-- ==== Sys2Proof/Word.lean ====
section
/-!
DEFINITION.  The words of the machine and their plainest arithmetic (R5, R61).
-/

namespace Sys2Proof

/-- A 32-bit word: a register, an instruction word (R9, R34). -/
abbrev Word := BitVec 32

/-- A byte of memory. -/
abbrev Byte := BitVec 8

/-- A 64-bit value: a register pair, a virtual address (R62). -/
abbrev Dword := BitVec 64

/-- A set of lanes of one group, bit i for lane i (R15, R251 HMASK). -/
abbrev Lanes := BitVec 64

/-- BITS(x, hi, lo) of R61, on a natural number: `n` bits of `x` from bit `lo` upward. -/
def bits (x lo n : Nat) : Nat := x / 2 ^ lo % 2 ^ n

/-- SEXT(x, n) of R61. -/
def sext (x n : Nat) : Int :=
  if n = 0 then 0
  else if bits x (n - 1) 1 = 1 then (bits x 0 n : Int) - (2 ^ n : Nat) else (bits x 0 n : Int)

/-- An integer taken mod 2^32 (R61: a value written to a 32-bit register). -/
def wordOfInt (x : Int) : Word := BitVec.ofInt 32 x

end Sys2Proof
end

