-- ==== Sys2Proof/Syntax.lean ====
section
/-!
DEFINITION.  The instructions and the events of the opcode table, as syntax.

Field types follow R34 to R42 and the two-word layouts R48 to R56: register, predicate, queue and slot numbers are bit
vectors of the field's width; every field whose codes the spec names is an inductive type of those names, with its code
beside it, so that a reserved code cannot be written down.
-/

namespace Sys2Proof

/-- A register field: v0–v127 or s0–s127 (R35). -/
abbrev Reg := BitVec 7
/-- A predicate p0–p7 (R35). -/
abbrev Pred := BitVec 3
/-- A lookahead count (R43). -/
abbrev La := BitVec 4
/-- An 11-bit immediate (R36). -/
abbrev Imm11 := BitVec 11
/-- A branch offset in packets (R37). -/
abbrev Off21 := BitVec 21
/-- A tensor-table slot t0–t63 (R172). -/
abbrev Tid := BitVec 6

/-- Bytes per lane of a memory access, SZ codes 0–5 (R39). -/
inductive Size where
  | b1 | b2 | b4 | b8 | b16 | b32
  deriving DecidableEq, Repr

/-- The order of an access, OS codes 000–100 (R39). -/
inductive Order where
  | rlx | team | die | pkg | sys
  deriving DecidableEq, Repr

/-- The scope of a fence, OS codes 001–100 (R309). -/
inductive Scope where
  | team | die | pkg | sys
  deriving DecidableEq, Repr

/-- The rounding of a conversion, codes 0–3 (R38). -/
inductive Rnd where
  | rne | rtz | rdn | rup
  deriving DecidableEq, Repr

/-- The rounding of QCVT, codes 0–4 (R49). -/
inductive QRnd where
  | rne | rtz | rdn | rup | sr
  deriving DecidableEq, Repr

/-- The element format of the QCVT major, codes 0–8 (R49). -/
inductive QFmt where
  | f16 | bf16 | e4m3 | e5m2 | s8 | n8 | s4 | e8m0 | t5
  deriving DecidableEq, Repr

/-- The transpose field of TCOPY, codes 0–2 (R51). -/
inductive Xpose where
  | none | x8 | x16
  deriving DecidableEq, Repr

/-- The filter of SMP, codes 0–3 (R55). -/
inductive Filt where
  | near | bilin | trilin | aniso
  deriving DecidableEq, Repr

/-- The largest anisotropy ratio of SMP, codes 0–4 for 1, 2, 4, 8, 16 (R55). -/
inductive Aniso where
  | r1 | r2 | r4 | r8 | r16
  deriving DecidableEq, Repr

/-- The address wrap of SMP, codes 0–3 (R55). -/
inductive Wrap where
  | clamp | rpt | mirror | border
  deriving DecidableEq, Repr

/-- The kind of a collective operation, codes 0–2 (R429). -/
inductive CollKind where
  | allred | rscat | bcast
  deriving DecidableEq, Repr

/-- The function of a collective operation, codes 0–5 (R429). -/
inductive CollFn where
  | add | fadd | bfadd | minn | maxn | maxa
  deriving DecidableEq, Repr

/-- What error control finds in an access on its way: nothing; an error that is corrected, or not, in the home slice (R278);
an error that is corrected, or not, in the payload of its packet (R327). -/
inductive Ecc where
  | none | corrected | lost | flitCorrected | flitLost
  deriving DecidableEq, Repr

/-- One constructor per row of the opcode table.

The first 125 constructors are the table's events: steps that an agent other than an issuing group takes; they are never
decoded from a word, and their arguments say which agent acts and on what: `g` is a group, `team`, `e`, `core`, `die`,
`cluster`, `slot`, `comm`, `lane`, `link` and `p` (a port) name others; `n` is a place in a list, oldest first from 0, `i` a
lane and `v` the value of a register write; `ok`, `ecc`, `pass`, `failing`, `reason`, `t`, `w` and `data` are what the
outside world gives.  The 353 constructors after them are the
instructions of the opcode map (R46) and carry the fields of their words, under the names the layouts give them (R34, R48
to R56).  The tie bit C (R30) belongs to the packet and is kept beside the instruction. -/
inductive Instr where
  /-- A packet is fetched into the group's instruction buffer, with segment and poison checks (R136). -/
  | instructionFetch (g pkt : Nat)
  /-- After 64 cycles on a blocking instruction the waiting lanes park (R17). -/
  | blockPark (g : Nat)
  /-- The fourth null iteration parks the spinning lanes at the branch target (R18). -/
  | spinPark (g : Nat)
  /-- A lane parked for 4,096 cycles wakes (R19). -/
  | parkTimeoutWake (g i : Nat)
  /-- A lane parked 2^30 cycles without effect raises PARK_LIMIT (R20). -/
  | parkLimit (g i : Nat)
  /-- A deferred result or fault of a long-latency instruction is written (R43). -/
  | lookaheadResult (g n : Nat)
  /-- A group retires once tokens, store acknowledgements and staged flushes are done (R134). -/
  | groupRetire (g : Nat)
  /-- All cores acknowledge the invalidation and the group's issue resumes (R137). -/
  | icinvDone (g : Nat)
  /-- All translation caches acknowledge and the group's issue resumes (R259). -/
  | tlbinvDone (g : Nat)
  /-- The descriptor arrives, is validated and enters the slot (R174). -/
  | tidsetDone (g : Nat)
  /-- The fenced writes become observable and issue resumes (R193). -/
  | xfenceDone (g : Nat)
  /-- Acknowledgements have arrived; the group publishes and renews its view (R310). -/
  | phaseDone (g : Nat)
  /-- Earlier loads have returned and the view is renewed (R311). -/
  | fenceAcqDone (g : Nat)
  /-- In fast mode every earlier reduction is acknowledged and issue resumes (R290). -/
  | redflushDone (g : Nat)
  /-- The sleep count expires and the group may issue again (R140). -/
  | sleepEnd (g : Nat)
  /-- The store buffer sends a store request toward its home slice (R280). -/
  | storeRequestSend (g n : Nat)
  /-- A home slice applies one write or atomic and numbers it (R279). -/
  | sliceApply (g n : Nat) (ecc : Ecc)
  /-- A home slice serves a read request (R306). -/
  | sliceRead (g key : Nat) (ecc : Ecc)
  /-- A write acknowledgement arrives and updates WSEQ (R281). -/
  | writeAck (g n : Nat)
  /-- The device publishes an applied write to an agent (R300). -/
  | spontaneousPublish (part upTo g : Nat)
  /-- A group's view is renewed at package scope within each 65,536 cycles (R303). -/
  | viewRenewal (g : Nat)
  /-- A fast-mode reduction buffer entry is sent to its home slice (R288). -/
  | reductionDrain (core n : Nat) (ok : Bool)
  /-- Staged reduction entries spill to the launch's staging area (R292). -/
  | stagingSpill (team : Nat)
  /-- The ticket unit applies a closed batch in key order (R291). -/
  | ticketBatchApply (e : Nat) (ok : Bool)
  /-- A device AtomicOp to host memory completes (R295). -/
  | hostAtomicCompletion (g : Nat) (ok : Bool)
  /-- The copy engine starts a queued copy command in issue order (R185). -/
  | copyStart (core : Nat)
  /-- A copy completes, changes its tags and writes its token (R186). -/
  | copyComplete (core n : Nat)
  /-- The ray unit traverses a queued ray entry and pushes its result (R230). -/
  | rayRequest (g q : Nat)
  /-- The walker processes a queued walk and pushes light index and pdf (R242). -/
  | lightWalk (g : Nat)
  /-- A queued Tun command starts on its port (R203). -/
  | tunCommandStart (core n : Nat)
  /-- A Tun command completes and writes its token (R206). -/
  | tunCommandComplete (core n : Nat)
  /-- A Tun command's tag waits reach 2^30 cycles and it completes with PARK_LIMIT (R205). -/
  | tunTagWaitLimit (core n : Nat)
  /-- The last command after AREL completes and the array becomes free (R197). -/
  | arrayRelease (core : Nat)
  /-- The 256-cycle clear of the array before a grant completes (R198). -/
  | arrayClear (core : Nat)
  /-- The 4,096-cycle hold for the first requesting team expires (R198). -/
  | arrayHoldExpire (core : Nat)
  /-- An uncorrectable error poisons a Tun bank or accumulator row (R218). -/
  | tunEccError (core : Nat) (acc : Bool) (row : Nat)
  /-- A handled trap enters the handler before the group's next issue (R263). -/
  | trapEntry (g : Nat)
  /-- A fatal trap kills the team and fences its launch (R269). -/
  | fatalTrap (team : Nat)
  /-- A pre-emption halt request stops a team's issue (R273). -/
  | haltRequest (team : Nat)
  /-- The context of a halted team is written to its block (R274). -/
  | contextSaveDone (team : Nat)
  /-- A saved team is restored on a core and resumes (R274). -/
  | teamResume (team core : Nat)
  /-- An uncorrectable register error poisons the word or, in control state, is fatal (R271). -/
  | registerEccError (g kind i r : Nat)
  /-- The background scrub visits register rows and finds latent errors (R271). -/
  | registerScrub (g row : Nat)
  /-- A waiting head packet reaches AGEP and is promoted (R324). -/
  | packetPromotion (a : Nat) (heads : List (Nat × Nat))
  /-- A flit failing CRC is refused and replayed with later flits (R327). -/
  | linkCrcReplay (link : Nat) (ok : Bool)
  /-- Sixteen failed replays start link retraining (R327). -/
  | linkRetrain (link : Nat)
  /-- Retraining succeeds, or fails as a fatal uncore error (R327). -/
  | linkRetrainDone (link : Nat) (ok : Bool)
  /-- The dispatcher sees a REQSEQ write and accepts or stalls requests (R341). -/
  | reqseqNotify (slot : Nat)
  /-- The dispatcher starts an execution once its predecessor conditions hold (R342). -/
  | executionStart (slot : Nat)
  /-- A die dispatcher places a pending team on a fitting core (R349). -/
  | teamPlace (die : Nat)
  /-- A drained core takes a new pool split (R151). -/
  | coreSplitChange (core : Nat)
  /-- After acknowledgements, LAUNCH adds to REQSEQ and awaits acceptance (R347). -/
  | launchReqseqAdd (id : Nat)
  /-- A page-table walk completes, setting A or D as needed (R354). -/
  | pageWalk (space va : Nat) (w : Bool)
  /-- Setting RSCTL.EN checks the fields and starts the window fill (R358). -/
  | rsctlEnable (v : Word)
  /-- The window fill completes and the store serves accesses (R358). -/
  | reservoirFillDone
  /-- Clearing RSCTL.EN stops new accesses and starts the write-back (R358). -/
  | rsctlDisable (v : Word)
  /-- The window write-back to the backing area completes (R358). -/
  | reservoirWritebackDone
  /-- The Sparge engine starts a command and copies the border column (R362). -/
  | spargeStart (cluster : Nat)
  /-- A Sparge command finishes its pixels and writes its token (R365). -/
  | spargeComplete (cluster : Nat)
  /-- The sorter starts a queued sort command (R373). -/
  | gristStart (die : Nat)
  /-- A sort completes and writes its token (R373). -/
  | gristComplete (die : Nat)
  /-- A binning execution bins primitives into keys and writes the count (R367). -/
  | rasterBinning (e : Nat)
  /-- A fragment batch's group starts when a slot is free (R369). -/
  | fragmentGroupStart (team : Nat)
  /-- An ordered-section watchdog expires, abandoning ownership (R371). -/
  | ordTimeout (g : Nat)
  /-- Setting HCTL.EN starts a head and its link training (R376). -/
  | headEnable (die head : Nat) (v : Word)
  /-- Clearing HCTL.EN stops the head at once (R377). -/
  | headDisable (die head : Nat) (v : Word)
  /-- A DisplayPort link finishes training and the head comes up (R376). -/
  | headLinkTrained (die head : Nat)
  /-- A hot-plug low or failed retraining takes the head down (R376). -/
  | displayLinkLoss (die head : Nat)
  /-- A head's timing generator starts a line and scans or writes it (R378). -/
  | scanoutLine (die head : Nat)
  /-- After all line acknowledgements head 2 writes the frame sequence word (R379). -/
  | head2FrameRelease (die : Nat)
  /-- Setting KCTL.EN checks the configuration and starts Kiln (R395). -/
  | kilnEnable (die : Nat) (v : Word)
  /-- Clearing KCTL.EN stops Kiln and heads scan KFILL (R381). -/
  | kilnDisable (die : Nat) (v : Word)
  /-- A KPROG write marks the program for validation at the next latch (R386). -/
  | kprogWrite (die : Nat) (v : Dword)
  /-- At line VTOT minus LLEAD the source and phase are latched (R384). -/
  | kilnLatch (die : Nat)
  /-- The program read completes and is accepted or refused (R386). -/
  | programValidated (die : Nat)
  /-- The network starts a band when its conditions hold (R391). -/
  | bandStart (die : Nat)
  /-- The network finishes a band's rows (R389). -/
  | bandNetworkDone (die : Nat)
  /-- At N_b the band's path is chosen and fallback begins if needed (R392). -/
  | networkDeadline (die : Nat)
  /-- The reprojection path finishes a band (R393). -/
  | reprojectionDone (die : Nat)
  /-- The repeat path finishes copying a band (R394). -/
  | repeatDone (die : Nat)
  /-- At D_b incomplete fallback lines are filled and UNDER is logged (R396). -/
  | bandUnderrun (die : Nat)
  /-- Motion estimation finishes an 8 by 8 block (R390). -/
  | motionBlockDone (die : Nat)
  /-- A core-domain control error core-fences a die (R418). -/
  | dieCoreFence (die : Nat)
  /-- A fatal uncore error fully fences a die (R418). -/
  | dieFullFence (die : Nat)
  /-- DIECTL command 1 core-fences the named die (R421). -/
  | diectlCoreFence (v : Word)
  /-- DIECTL command 2 resets the named die's core domain (R421). -/
  | diectlCoreReset (v : Word)
  /-- DIECTL command 3 fully fences and resets the named die's uncore domain (R421). -/
  | diectlUncoreReset (v : Word)
  /-- A core-domain reset completes (R416). -/
  | coreResetDone (die : Nat)
  /-- An uncore-domain reset completes with lines reading 0 (R417). -/
  | uncoreResetDone (die : Nat)
  /-- Each core runs self-test launches and failing cores are marked (R450). -/
  | selfTest (die failing : Nat)
  /-- A package barrier phase open for 2^30 cycles breaks (R424). -/
  | gbarTimeout (e b : Nat)
  /-- A UALink link finishes training (R427). -/
  | fabricLinkUp (lane : Nat)
  /-- A UALink link goes down (R427). -/
  | fabricLinkDown (lane : Nat)
  /-- A communicator write takes effect after any pending operation (R428). -/
  | commWrite (n : Nat) (v : Word)
  /-- A collective contribution from a rank arrives at the switch (R430). -/
  | collContribution (comm rank kind fn fmt n root : Nat) (data : List Byte)
  /-- All ranks have joined and results are written in rank order (R430). -/
  | collOperationComplete (comm : Nat)
  /-- A rank fails to join within 100 ms and the operation breaks (R431). -/
  | collTimeout (comm : Nat)
  /-- A host read through BAR2 is served at the home slice (R316). -/
  | hostRead (p off len : Nat)
  /-- A host posted write through BAR2 is applied or dropped (R316); with `p` 2 or 3, the host behind port p − 2 writes its own memory at
  bus address `off` (R298). -/
  | hostWrite (p off : Nat) (data : List Byte) (ro : Bool)
  /-- A host AtomicOp is executed at the home slice (R296). -/
  | hostAtomicop (p off size fn : Nat) (b c : Dword)
  /-- A host port goes down; pending accesses complete and its semaphores free (R435). -/
  | hostLinkDown (p : Nat)
  /-- A semaphore read acquires a free semaphore or reports its owner (R436). -/
  | semRead (n agent : Nat)
  /-- A write by the owner releases a semaphore (R436). -/
  | semRelease (n agent : Nat) (v : Word)
  /-- Setting EVCTL.EN starts event records and resets EVSEQ (R438). -/
  | evctlEnable (p : Nat) (v : Word)
  /-- MSI-X vector 0 is sent after records, spaced by MOD (R438). -/
  | msixInterrupt (p : Nat)
  /-- FLCMD 1 erases a 64 KiB flash sector (R443). -/
  | flashErase (v : Word)
  /-- FLCMD 2 programs flash from the window (R443). -/
  | flashProgram (v : Word)
  /-- FLCMD 3 reads flash into the window (R443). -/
  | flashRead (v : Word)
  /-- A flash command completes, clearing BUSY and setting RESULT (R443). -/
  | flashCommandDone (ok : Bool)
  /-- Mailbox command 1 returns a certificate of the chain (R445). -/
  | getcert (p : Nat) (v : Word)
  /-- Mailbox command 2 returns a signed attestation report (R445). -/
  | attest (p : Nat) (v : Word)
  /-- Mailbox command 3 extends MEAS2 with a digest (R444). -/
  | extend (p : Nat) (v : Word)
  /-- An unknown mailbox command completes with RESULT 1 (R445). -/
  | mailboxUnknown (p : Nat) (v : Word)
  /-- A mailbox command places its result and clears BUSY (R445). -/
  | mailboxDone (p : Nat)
  /-- Power-up runs the start-up steps through ready (R446). -/
  | packageReset (pass : Bool) (reason : Nat)
  /-- A write of 1 to PKGRST restarts the package (R447). -/
  | pkgrst (v : Word)
  /-- A fatal die C error stops the package in recovery mode (R447). -/
  | dieCFatal
  /-- A sensor reading starts throttling or fences the die at 105 C (R449). -/
  | thermalSample (die t : Nat)
  /-- Module power above PWRLIM starts throttling (R448). -/
  | powerSample (w : Nat)
  /-- Every 100 us a throttling die lowers or raises its clock (R448). -/
  | throttleStep (die : Nat)
  /-- A write of 0 clears a saturating counter; other writes are ignored (R382). -/
  | counterClear (off : Nat) (v : Dword)
  /-- A host or controller writes a register that has no behaviour of its own (R452). -/
  | registerWrite (off : Nat) (v : Dword)
  /-- A PCIe host port finishes training and comes up, exposing its BARs again (R433). -/
  | hostLinkUp (p : Nat)
  /-- A write to DISPCTL sets or clears EN, SLOTCNT and PREDIST, starting or stopping the dispatcher's watch of the slot table (R338). -/
  | dispctlWrite (v : Word)
  /-- A write to LINKCTLj changes the bonding of a lane group, taking its links down and retraining them as the new links (R427). -/
  | linkctlWrite (j : Nat) (v : Word)
  /-- SYS function 0 does nothing (R140). -/
  | nop
  /-- Raises TRAP_INSTR with TVAL n, returning after the unit (R260). -/
  | trap (n : BitVec 7)
  /-- Restores the saved lpc of every lane of HSET, leaves supervisor mode and flushes the instruction buffer (R265). -/
  | eret
  /-- Ends the team as a fatal trap, recording a code from the scalar or TCAUSE (R260). -/
  | halt (a : Reg)
  /-- Reads a control and status register into a scalar (R256). -/
  | csrr (d : Reg) (e : BitVec 7)
  /-- Writes a scalar to a control and status register under its field access rules (R256). -/
  | csrw (a : Reg) (e : BitVec 7)
  /-- Replaces the global, private or constant segment of the issuing group (R258). -/
  | segld (a : Reg) (k : BitVec 2)
  /-- Waits for earlier store acknowledgements, then invalidates cached translations of an address range package-wide (R259). -/
  | tlbinv (a e : Reg)
  /-- Invalidates every cached translation of the launch's address space package-wide (R259). -/
  | tlbinvAll
  /-- Waits for store acknowledgements and invalidates a range in the instruction caches of every core (R137). -/
  | icinv (a e : Reg)
  /-- Flushes the group's instruction buffer so later fetches see completed ICINVs (R138). -/
  | isync
  /-- Stops the group's issue for a number of cycles (R140). -/
  | sleep (a : Reg)
  /-- Makes the group's issue age the youngest in its partition (R140). -/
  | yield
  /-- Writes FLAGS to a scalar after earlier instructions have set their flags (R257). -/
  | flagrd (d : Reg)
  /-- Clears the FLAGS bits named by a mask (R257). -/
  | flagclr (m : BitVec 4)
  /-- Writes the 64-bit cycle count to a scalar pair (R257). -/
  | clock (d : Reg)
  /-- Adds two vector operands mod 2^32 (R88). -/
  | add (d a b : Reg)
  /-- Subtracts two vector operands mod 2^32 (R88). -/
  | sub (d a b : Reg)
  /-- Gives the low 32 bits of the product (R88). -/
  | mul (d a b : Reg)
  /-- Gives the high 32 bits of the signed product (R88). -/
  | mulhs (d a b : Reg)
  /-- Gives the high 32 bits of the unsigned product (R88). -/
  | mulhn (d a b : Reg)
  /-- Gives the signed minimum (R88). -/
  | mins (d a b : Reg)
  /-- Gives the signed maximum (R88). -/
  | maxs (d a b : Reg)
  /-- Gives the unsigned minimum (R88). -/
  | minn (d a b : Reg)
  /-- Gives the unsigned maximum (R88). -/
  | maxn (d a b : Reg)
  /-- Bitwise AND (R88). -/
  | and (d a b : Reg)
  /-- Bitwise OR (R88). -/
  | or (d a b : Reg)
  /-- Bitwise XOR (R88). -/
  | xor (d a b : Reg)
  /-- Gives a AND NOT b (R88). -/
  | andn (d a b : Reg)
  /-- Shifts left, giving 0 for shifts of 32 or more (R88). -/
  | shl (d a b : Reg)
  /-- Shifts right logically (R88). -/
  | shrn (d a b : Reg)
  /-- Shifts right arithmetically (R88). -/
  | shrs (d a b : Reg)
  /-- ADD with a scalar second operand (R88). -/
  | addS (d a b : Reg)
  /-- SUB with a scalar second operand (R88). -/
  | subS (d a b : Reg)
  /-- MUL with a scalar second operand (R88). -/
  | mulS (d a b : Reg)
  /-- MULHS with a scalar second operand (R88). -/
  | mulhsS (d a b : Reg)
  /-- MULHN with a scalar second operand (R88). -/
  | mulhnS (d a b : Reg)
  /-- MINS with a scalar second operand (R88). -/
  | minsS (d a b : Reg)
  /-- MAXS with a scalar second operand (R88). -/
  | maxsS (d a b : Reg)
  /-- MINN with a scalar second operand (R88). -/
  | minnS (d a b : Reg)
  /-- MAXN with a scalar second operand (R88). -/
  | maxnS (d a b : Reg)
  /-- AND with a scalar second operand (R88). -/
  | andS (d a b : Reg)
  /-- OR with a scalar second operand (R88). -/
  | orS (d a b : Reg)
  /-- XOR with a scalar second operand (R88). -/
  | xorS (d a b : Reg)
  /-- ANDN with a scalar second operand (R88). -/
  | andnS (d a b : Reg)
  /-- SHL with a scalar shift count (R88). -/
  | shlS (d a b : Reg)
  /-- SHRN with a scalar shift count (R88). -/
  | shrnS (d a b : Reg)
  /-- SHRS with a scalar shift count (R88). -/
  | shrsS (d a b : Reg)
  /-- Rotates left by b mod 32 (R89). -/
  | rot (d a b : Reg)
  /-- Gives the absolute signed difference (R89). -/
  | absd (d a b : Reg)
  /-- Adds a times b to the old destination mod 2^32 (R89). -/
  | mac (d a b : Reg)
  /-- Adds register pairs mod 2^64 (R89). -/
  | add64 (d a b : Reg)
  /-- Subtracts register pairs mod 2^64 (R89). -/
  | sub64 (d a b : Reg)
  /-- Extracts a bit field zero-extended (R90). -/
  | bfen (d a b : Reg)
  /-- Extracts a bit field sign-extended (R90). -/
  | bfes (d a b : Reg)
  /-- Inserts a bit field into the old destination (R90). -/
  | bfi (d a b : Reg)
  /-- Counts 1 bits (R89). -/
  | popc (d a : Reg)
  /-- Counts leading zero bits (R89). -/
  | clz (d a : Reg)
  /-- Reverses the bit order (R89). -/
  | brev (d a : Reg)
  /-- Builds a result byte by byte from selectors (R91). -/
  | bsel (d a b : Reg)
  /-- Adds a signed index to a 64-bit base (R89). -/
  | lea0 (d a b : Reg)
  /-- Adds a signed index times 2 to a 64-bit base (R89). -/
  | lea1 (d a b : Reg)
  /-- Adds a signed index times 4 to a 64-bit base (R89). -/
  | lea2 (d a b : Reg)
  /-- Adds a signed index times 8 to a 64-bit base (R89). -/
  | lea3 (d a b : Reg)
  /-- ROT with a scalar count (R89). -/
  | rotS (d a b : Reg)
  /-- ABSD with a scalar second operand (R89). -/
  | absdS (d a b : Reg)
  /-- MAC with a scalar second operand (R89). -/
  | macS (d a b : Reg)
  /-- ADD64 with a scalar pair (R89). -/
  | add64S (d a b : Reg)
  /-- SUB64 with a scalar pair (R89). -/
  | sub64S (d a b : Reg)
  /-- BFEN with a scalar field control (R90). -/
  | bfenS (d a b : Reg)
  /-- BFES with a scalar field control (R90). -/
  | bfesS (d a b : Reg)
  /-- BFI with a scalar field control (R90). -/
  | bfiS (d a b : Reg)
  /-- POPC in the scalar-B major (R89). -/
  | popcS (d a : Reg)
  /-- CLZ in the scalar-B major (R89). -/
  | clzS (d a : Reg)
  /-- BREV in the scalar-B major (R89). -/
  | brevS (d a : Reg)
  /-- BSEL with a scalar selector control (R91). -/
  | bselS (d a b : Reg)
  /-- LEA0 with a scalar index (R89). -/
  | lea0S (d a b : Reg)
  /-- LEA1 with a scalar index (R89). -/
  | lea1S (d a b : Reg)
  /-- LEA2 with a scalar index (R89). -/
  | lea2S (d a b : Reg)
  /-- LEA3 with a scalar index (R89). -/
  | lea3S (d a b : Reg)
  /-- Sets a predicate when a equals b (R92). -/
  | icmpEq (d : Pred) (a b : Reg)
  /-- Sets a predicate when a differs from b (R92). -/
  | icmpNe (d : Pred) (a b : Reg)
  /-- Signed less-than compare into a predicate (R92). -/
  | icmpLts (d : Pred) (a b : Reg)
  /-- Signed less-or-equal compare into a predicate (R92). -/
  | icmpLes (d : Pred) (a b : Reg)
  /-- Signed greater-than compare into a predicate (R92). -/
  | icmpGts (d : Pred) (a b : Reg)
  /-- Signed greater-or-equal compare into a predicate (R92). -/
  | icmpGes (d : Pred) (a b : Reg)
  /-- Unsigned less-than compare into a predicate (R92). -/
  | icmpLtn (d : Pred) (a b : Reg)
  /-- Unsigned less-or-equal compare into a predicate (R92). -/
  | icmpLen (d : Pred) (a b : Reg)
  /-- Unsigned greater-than compare into a predicate (R92). -/
  | icmpGtn (d : Pred) (a b : Reg)
  /-- Unsigned greater-or-equal compare into a predicate (R92). -/
  | icmpGen (d : Pred) (a b : Reg)
  /-- Sets a predicate when a AND b is nonzero (R92). -/
  | icmpTst (d : Pred) (a b : Reg)
  /-- Sets a predicate when a AND b is zero (R92). -/
  | icmpNtst (d : Pred) (a b : Reg)
  /-- ICMP.EQ against a scalar (R92). -/
  | icmpEqS (d : Pred) (a b : Reg)
  /-- ICMP.NE against a scalar (R92). -/
  | icmpNeS (d : Pred) (a b : Reg)
  /-- ICMP.LTS against a scalar (R92). -/
  | icmpLtsS (d : Pred) (a b : Reg)
  /-- ICMP.LES against a scalar (R92). -/
  | icmpLesS (d : Pred) (a b : Reg)
  /-- ICMP.GTS against a scalar (R92). -/
  | icmpGtsS (d : Pred) (a b : Reg)
  /-- ICMP.GES against a scalar (R92). -/
  | icmpGesS (d : Pred) (a b : Reg)
  /-- ICMP.LTN against a scalar (R92). -/
  | icmpLtnS (d : Pred) (a b : Reg)
  /-- ICMP.LEN against a scalar (R92). -/
  | icmpLenS (d : Pred) (a b : Reg)
  /-- ICMP.GTN against a scalar (R92). -/
  | icmpGtnS (d : Pred) (a b : Reg)
  /-- ICMP.GEN against a scalar (R92). -/
  | icmpGenS (d : Pred) (a b : Reg)
  /-- ICMP.TST against a scalar (R92). -/
  | icmpTstS (d : Pred) (a b : Reg)
  /-- ICMP.NTST against a scalar (R92). -/
  | icmpNtstS (d : Pred) (a b : Reg)
  /-- FP32 addition rounded RNE (R100). -/
  | fadd (d a b : Reg)
  /-- FP32 subtraction rounded RNE (R100). -/
  | fsub (d a b : Reg)
  /-- FP32 multiplication rounded RNE (R100). -/
  | fmul (d a b : Reg)
  /-- Fused a times b plus the old destination, rounded once (R100). -/
  | fmac (d a b : Reg)
  /-- Fused old destination minus a times b, rounded once (R100). -/
  | fmsc (d a b : Reg)
  /-- FP32 minimum propagating NaN (R101). -/
  | fmin (d a b : Reg)
  /-- FP32 maximum propagating NaN (R101). -/
  | fmax (d a b : Reg)
  /-- FP32 minimum ignoring a single NaN (R101). -/
  | fminn (d a b : Reg)
  /-- FP32 maximum ignoring a single NaN (R101). -/
  | fmaxn (d a b : Reg)
  /-- Copies the sign of b onto a (R102). -/
  | fcps (d a b : Reg)
  /-- Scales a by a power of two (R102). -/
  | fscl (d a b : Reg)
  /-- FADD with a scalar operand (R100). -/
  | faddS (d a b : Reg)
  /-- FSUB with a scalar operand (R100). -/
  | fsubS (d a b : Reg)
  /-- FMUL with a scalar operand (R100). -/
  | fmulS (d a b : Reg)
  /-- FMAC with a scalar operand (R100). -/
  | fmacS (d a b : Reg)
  /-- FMSC with a scalar operand (R100). -/
  | fmscS (d a b : Reg)
  /-- FMIN with a scalar operand (R101). -/
  | fminS (d a b : Reg)
  /-- FMAX with a scalar operand (R101). -/
  | fmaxS (d a b : Reg)
  /-- FMINN with a scalar operand (R101). -/
  | fminnS (d a b : Reg)
  /-- FMAXN with a scalar operand (R101). -/
  | fmaxnS (d a b : Reg)
  /-- FCPS with a scalar sign source (R102). -/
  | fcpsS (d a b : Reg)
  /-- FSCL with a scalar exponent (R102). -/
  | fsclS (d a b : Reg)
  /-- FP32 equal compare into a predicate (R103). -/
  | fcmpEq (d : Pred) (a b : Reg)
  /-- FP32 not-equal or unordered compare (R103). -/
  | fcmpNe (d : Pred) (a b : Reg)
  /-- FP32 ordered less-than compare (R103). -/
  | fcmpLt (d : Pred) (a b : Reg)
  /-- FP32 ordered less-or-equal compare (R103). -/
  | fcmpLe (d : Pred) (a b : Reg)
  /-- FP32 ordered greater-than compare (R103). -/
  | fcmpGt (d : Pred) (a b : Reg)
  /-- FP32 ordered greater-or-equal compare (R103). -/
  | fcmpGe (d : Pred) (a b : Reg)
  /-- True when either operand is NaN (R103). -/
  | fcmpUn (d : Pred) (a b : Reg)
  /-- True when neither operand is NaN (R103). -/
  | fcmpOr (d : Pred) (a b : Reg)
  /-- FCMP.EQ against a scalar (R103). -/
  | fcmpEqS (d : Pred) (a b : Reg)
  /-- FCMP.NE against a scalar (R103). -/
  | fcmpNeS (d : Pred) (a b : Reg)
  /-- FCMP.LT against a scalar (R103). -/
  | fcmpLtS (d : Pred) (a b : Reg)
  /-- FCMP.LE against a scalar (R103). -/
  | fcmpLeS (d : Pred) (a b : Reg)
  /-- FCMP.GT against a scalar (R103). -/
  | fcmpGtS (d : Pred) (a b : Reg)
  /-- FCMP.GE against a scalar (R103). -/
  | fcmpGeS (d : Pred) (a b : Reg)
  /-- FCMP.UN against a scalar (R103). -/
  | fcmpUnS (d : Pred) (a b : Reg)
  /-- FCMP.OR against a scalar (R103). -/
  | fcmpOrS (d : Pred) (a b : Reg)
  /-- Two-lane FP16 addition (R104). -/
  | hadd (d a b : Reg)
  /-- Two-lane FP16 subtraction (R104). -/
  | hsub (d a b : Reg)
  /-- Two-lane FP16 multiplication (R104). -/
  | hmul (d a b : Reg)
  /-- Two-lane fused FP16 multiply-add (R104). -/
  | hmac (d a b : Reg)
  /-- Two-lane FP16 minimum (R104). -/
  | hmin (d a b : Reg)
  /-- Two-lane FP16 maximum (R104). -/
  | hmax (d a b : Reg)
  /-- Two-lane BF16 addition (R104). -/
  | badd (d a b : Reg)
  /-- Two-lane BF16 subtraction (R104). -/
  | bsub (d a b : Reg)
  /-- Two-lane BF16 multiplication (R104). -/
  | bmul (d a b : Reg)
  /-- Two-lane fused BF16 multiply-add (R104). -/
  | bmac (d a b : Reg)
  /-- Two-lane BF16 minimum (R104). -/
  | bmin (d a b : Reg)
  /-- Two-lane BF16 maximum (R104). -/
  | bmax (d a b : Reg)
  /-- HADD with a scalar operand (R104). -/
  | haddS (d a b : Reg)
  /-- HSUB with a scalar operand (R104). -/
  | hsubS (d a b : Reg)
  /-- HMUL with a scalar operand (R104). -/
  | hmulS (d a b : Reg)
  /-- HMAC with a scalar operand (R104). -/
  | hmacS (d a b : Reg)
  /-- HMIN with a scalar operand (R104). -/
  | hminS (d a b : Reg)
  /-- HMAX with a scalar operand (R104). -/
  | hmaxS (d a b : Reg)
  /-- BADD with a scalar operand (R104). -/
  | baddS (d a b : Reg)
  /-- BSUB with a scalar operand (R104). -/
  | bsubS (d a b : Reg)
  /-- BMUL with a scalar operand (R104). -/
  | bmulS (d a b : Reg)
  /-- BMAC with a scalar operand (R104). -/
  | bmacS (d a b : Reg)
  /-- BMIN with a scalar operand (R104). -/
  | bminS (d a b : Reg)
  /-- BMAX with a scalar operand (R104). -/
  | bmaxS (d a b : Reg)
  /-- Selects a or a vector b by a predicate (R99). -/
  | sel (p : Pred) (d a b : Reg)
  /-- Selects a or a scalar b by a predicate (R99). -/
  | selS (p : Pred) (d a b : Reg)
  /-- Predicate AND (R141). -/
  | pand (d a b : Pred)
  /-- Predicate OR (R141). -/
  | por (d a b : Pred)
  /-- Predicate XOR (R141). -/
  | pxor (d a b : Pred)
  /-- Predicate AND NOT (R141). -/
  | pandn (d a b : Pred)
  /-- Moves a predicate into a vector register as 0 or 1 (R141). -/
  | p2v (d : Reg) (a : Pred)
  /-- Sets a predicate when a vector register is nonzero (R141). -/
  | v2p (d : Pred) (a : Reg)
  /-- Votes the OR of a predicate over active lanes (R141). -/
  | vany (d a : Pred)
  /-- Votes the AND of a predicate over active lanes (R141). -/
  | vall (d a : Pred)
  /-- Writes the ballot mask of a predicate to a scalar pair (R141). -/
  | vbal (d : Reg) (a : Pred)
  /-- Counts active lanes with a predicate set (R141). -/
  | vcnt (d : Reg) (a : Pred)
  /-- Adds a sign-extended immediate (R93). -/
  | addi (d a : Reg) (imm : Imm11)
  /-- ANDs with a sign-extended immediate (R93). -/
  | andi (d a : Reg) (imm : Imm11)
  /-- ORs with a sign-extended immediate (R93). -/
  | ori (d a : Reg) (imm : Imm11)
  /-- XORs with a sign-extended immediate (R93). -/
  | xori (d a : Reg) (imm : Imm11)
  /-- Shifts left by an immediate (R94). -/
  | shiShl (d a : Reg) (n : BitVec 5)
  /-- Shifts right logically by an immediate (R94). -/
  | shiShrn (d a : Reg) (n : BitVec 5)
  /-- Shifts right arithmetically by an immediate (R94). -/
  | shiShrs (d a : Reg) (n : BitVec 5)
  /-- Rotates left by an immediate (R94). -/
  | shiRot (d a : Reg) (n : BitVec 5)
  /-- Writes a sign-extended immediate (R93). -/
  | movi (d : Reg) (imm : Imm11)
  /-- Writes a 32-bit literal to a vector register or, with SD set, to a scalar (R95). -/
  | lit (sd : Bool) (d : Reg) (value : Word)
  /-- Scalar addition (R96). -/
  | sadd (d a b : Reg)
  /-- Scalar subtraction (R96). -/
  | ssub (d a b : Reg)
  /-- Scalar multiplication, low 32 bits (R96). -/
  | smul (d a b : Reg)
  /-- Scalar AND (R96). -/
  | sand (d a b : Reg)
  /-- Scalar OR (R96). -/
  | sor (d a b : Reg)
  /-- Scalar XOR (R96). -/
  | sxor (d a b : Reg)
  /-- Scalar shift left (R96). -/
  | sshl (d a b : Reg)
  /-- Scalar logical shift right (R96). -/
  | sshrn (d a b : Reg)
  /-- Scalar arithmetic shift right (R96). -/
  | sshrs (d a b : Reg)
  /-- Scalar signed minimum (R96). -/
  | smins (d a b : Reg)
  /-- Scalar signed maximum (R96). -/
  | smaxs (d a b : Reg)
  /-- Scalar pair addition mod 2^64 (R96). -/
  | sadd64 (d a b : Reg)
  /-- Scalar set to 1 when equal (R96). -/
  | sseteq (d a b : Reg)
  /-- Scalar set to 1 when not equal (R96). -/
  | ssetne (d a b : Reg)
  /-- Scalar set to 1 when signed less (R96). -/
  | ssetlt (d a b : Reg)
  /-- Scalar set to 1 when unsigned less (R96). -/
  | ssetltn (d a b : Reg)
  /-- Adds a sign-extended immediate to a scalar (R97). -/
  | saddi (d a : Reg) (imm : Imm11)
  /-- Broadcasts a scalar to every active lane (R98). -/
  | bcast (d b : Reg)
  /-- Reads the lowest active lane's register into a scalar (R98). -/
  | rdfirst (d a : Reg)
  /-- Reads a named lane's register into a scalar (R98). -/
  | rdlane (d a b : Reg)
  /-- Writes a scalar into a named active lane's register (R98). -/
  | wrlane (d a b : Reg)
  /-- Reads another lane's lpc (R98). -/
  | rdlpc (d a : Reg)
  /-- Writes each lane's index (R98). -/
  | laneid (d : Reg)
  /-- Computes 1/x (R105). -/
  | rcp (la : La) (d a : Reg)
  /-- Computes 1/sqrt(x) (R105). -/
  | rsq (la : La) (d a : Reg)
  /-- Computes sqrt(x) (R105). -/
  | sqrt (la : La) (d a : Reg)
  /-- Computes 2^x (R105). -/
  | ex2 (la : La) (d a : Reg)
  /-- Computes log2 x (R105). -/
  | lg2 (la : La) (d a : Reg)
  /-- Computes sin(pi x) (R105). -/
  | sinpi (la : La) (d a : Reg)
  /-- Computes cos(pi x) (R105). -/
  | cospi (la : La) (d a : Reg)
  /-- Computes tanh x (R105). -/
  | tanh (la : La) (d a : Reg)
  /-- Converts S32 to FP32 (R109). -/
  | cvtF32S32 (la : La) (d a : Reg) (rnd : Rnd)
  /-- Converts N32 to FP32 (R109). -/
  | cvtF32N32 (la : La) (d a : Reg) (rnd : Rnd)
  /-- Converts FP32 to S32, clamping (R109). -/
  | cvtS32F32 (la : La) (d a : Reg) (rnd : Rnd)
  /-- Converts FP32 to N32, clamping (R109). -/
  | cvtN32F32 (la : La) (d a : Reg) (rnd : Rnd)
  /-- Converts FP32 to FP16 (R109). -/
  | cvtF16F32 (la : La) (d a : Reg) (rnd : Rnd)
  /-- Converts FP32 to BF16 (R109). -/
  | cvtBf16F32 (la : La) (d a : Reg) (rnd : Rnd)
  /-- Widens FP16 to FP32 exactly (R109). -/
  | cvtF32F16 (la : La) (d a : Reg) (rnd : Rnd)
  /-- Widens BF16 to FP32 exactly (R109). -/
  | cvtF32Bf16 (la : La) (d a : Reg) (rnd : Rnd)
  /-- Rounds FP32 to an integral FP32 value (R109). -/
  | frint (la : La) (d a : Reg) (rnd : Rnd)
  /-- Narrows one FP32 value under a block scale into an element of the destination (R115). -/
  | qcvt (la : La) (d a b : Reg) (rnd : QRnd) (sat : Bool) (fmt : QFmt) (pos : BitVec 2) (draw : Reg)
  /-- Widens a narrow element under a block scale to FP32 (R117). -/
  | qwiden (la : La) (d a b : Reg) (rnd : Rnd) (sat : Bool) (fmt : QFmt) (pos : BitVec 2)
  /-- Chooses the E8M0 block scale of 32 FP32 values (R118). -/
  | qscale (la : La) (d a : Reg) (fmt : QFmt)
  /-- Dot product of four S8 pairs accumulated into S32 (R120). -/
  | dp4s8 (d a b : Reg)
  /-- Dot product of four N8 pairs accumulated into N32 (R120). -/
  | dp4n8 (d a b : Reg)
  /-- Dot product of S8 by N8 accumulated into S32 (R120). -/
  | dp4sn8 (d a b : Reg)
  /-- Dot product of eight S4 pairs (R120). -/
  | dp8s4 (d a b : Reg)
  /-- Dot product of two BF16 pairs into FP32 with one rounding (R120). -/
  | dp2bf (d a b : Reg)
  /-- Dot product of two FP16 pairs into FP32 with one rounding (R120). -/
  | dp2h (d a b : Reg)
  /-- Dot product of four E4M3 pairs into FP32 (R120). -/
  | dp4e4 (d a b : Reg)
  /-- Dot product of four E5M2 pairs into FP32 (R120). -/
  | dp4e5 (d a b : Reg)
  /-- Dot product of four T5 by S8 into S32, checking trit bytes (R120). -/
  | dp4t5 (d a b : Reg)
  /-- Packs a trit word into three trit bytes (R121). -/
  | t5pack (d a : Reg)
  /-- Unpacks three trit bytes into a trit word (R121). -/
  | t5unpk (d a : Reg)
  /-- Encodes four S8 values as T5 bytes, clamping (R121). -/
  | t5enc (d a : Reg)
  /-- Decodes four T5 bytes to S8 (R121). -/
  | t5dec (d a : Reg)
  /-- Sets a predicate when every byte is a valid trit byte (R121). -/
  | t5chk (d : Pred) (a : Reg)
  /-- Shifts a thresholded trit into a trit word (R121). -/
  | tern (d a b : Reg)
  /-- Counts +1 and -1 trits of a trit word (R121). -/
  | tcnt (d a : Reg)
  /-- Reads a register from an indexed lane (R143). -/
  | shfli (d a b : Reg)
  /-- Reads a register from a lane k below (R143). -/
  | shflu (d a b : Reg)
  /-- Reads a register from a lane k above (R143). -/
  | shfld (d a b : Reg)
  /-- Reads a register from the lane i XOR k (R143). -/
  | shflx (d a b : Reg)
  /-- Integer sum over active lanes (R144). -/
  | redadd (d a : Reg)
  /-- Signed minimum over active lanes (R144). -/
  | redmin (d a : Reg)
  /-- Signed maximum over active lanes (R144). -/
  | redmax (d a : Reg)
  /-- FP32 sum over active lanes by a fixed tree (R145). -/
  | redfadd (d a : Reg)
  /-- Inclusive integer prefix sum over active lanes (R144). -/
  | scanadd (d a : Reg)
  /-- Inclusive FP32 prefix sum by fixed trees (R145). -/
  | scanfadd (d a : Reg)
  /-- Chooses a lane by weight from a draw (R146). -/
  | cats (d a b : Reg)
  /-- Marks the lowest active lane whose predicate is set (R147). -/
  | elect (d a : Pred)
  /-- Computes the counter-based random word (R122). -/
  | rng (d a b : Reg)
  /-- Computes a random FP32 value in [0, 1) (R122). -/
  | rngf (d a b : Reg)
  /-- Unconditional branch (R127). -/
  | bra (off : Off21)
  /-- Conditional branch governed by the lowest active lane's condition (R128). -/
  | bru (neg : Bool) (p : Pred) (off : Off21)
  /-- Divergent conditional branch per lane (R127). -/
  | brx (neg : Bool) (p : Pred) (off : Off21)
  /-- Jumps each lane to the lpc in its register (R130). -/
  | jmpv (a : Reg)
  /-- Saves the return lpc and jumps per lane (R130). -/
  | callv (d a : Reg)
  /-- Returns each lane to the lpc in its register (R130). -/
  | ret (a : Reg)
  /-- Arrives at a team barrier and waits for its phase (R166). -/
  | bar (d : Pred) (a : Reg) (f : Bool) (b : BitVec 4)
  /-- Arrives at a team barrier without waiting (R166). -/
  | arrive (d a : Reg) (b : BitVec 4)
  /-- Waits until a barrier's phase differs from a value (R166). -/
  | waitb (d : Pred) (a : Reg) (b : BitVec 4)
  /-- Arrives at a package barrier after publishing at package scope (R423). -/
  | gbar (d : Pred) (a : Reg) (b : BitVec 4)
  /-- Waits for earlier loads and renews the view at its scope (R311). -/
  | fenceAcq (sc : Scope)
  /-- Gives later writes release semantics at its scope (R311). -/
  | fenceRel (sc : Scope)
  /-- Applies FENCE.rel then FENCE.acq (R311). -/
  | fenceAr (sc : Scope)
  /-- Waits for write acknowledgements, publishes at its scope and renews the view (R310). -/
  | phase (sc : Scope)
  /-- Makes completed writes of source paths visible to destination paths (R193). -/
  | xfence (a : Reg) (sc : Scope)
  /-- Ends the reduction epoch, or in fast mode waits for reductions to be acknowledged (R290). -/
  | redflush
  /-- Makes active lanes EXITED, naming a successor index (R133). -/
  | exit (n : BitVec 3)
  /-- Loads from global memory, optionally as an acquire (R160). -/
  | ldg (la : La) (d a : Reg) (sz : Size) (os : Order) (x : Bool)
  /-- Loads invariant global data (R161). -/
  | ldgi (la : La) (d a : Reg) (sz : Size) (x : Bool)
  /-- Stores to global memory, optionally as a release (R160). -/
  | stg (d a : Reg) (sz : Size) (os : Order) (x : Bool)
  /-- Plain scratchpad load (R162). -/
  | lds (la : La) (d a : Reg) (sz : Size) (x : Bool)
  /-- Scratchpad load that waits for full tags (R162). -/
  | ldsWfull (la : La) (d a : Reg) (sz : Size) (x : Bool)
  /-- Scratchpad load that waits for full tags and sets them empty (R162). -/
  | ldsWfullEmpty (la : La) (d a : Reg) (sz : Size) (x : Bool)
  /-- Reads a scratchpad word's tag (R162). -/
  | ldsTag (la : La) (d a : Reg) (x : Bool)
  /-- Plain scratchpad store (R162). -/
  | sts (d a : Reg) (sz : Size) (x : Bool)
  /-- Scratchpad store that waits for empty tags and sets them full (R162). -/
  | stsWefull (d a : Reg) (sz : Size) (x : Bool)
  /-- Scratchpad store that sets tags full (R162). -/
  | stsSfull (d a : Reg) (sz : Size) (x : Bool)
  /-- Sets scratchpad tags empty without writing data (R162). -/
  | stsSempty (a : Reg) (sz : Size) (x : Bool)
  /-- Loads from private space (R160). -/
  | ldp (la : La) (d a : Reg) (sz : Size) (x : Bool)
  /-- Stores to private space (R160). -/
  | stp (d a : Reg) (sz : Size) (x : Bool)
  /-- Loads from constant space (R160). -/
  | ldk (la : La) (d a : Reg) (sz : Size) (x : Bool)
  /-- Atomic integer add at the home slice (R284). -/
  | atomAdd (la : La) (d a b : Reg) (oss : Order) (s8 t : Bool)
  /-- Atomic AND at the home slice (R284). -/
  | atomAnd (la : La) (d a b : Reg) (oss : Order) (s8 t : Bool)
  /-- Atomic OR at the home slice (R284). -/
  | atomOr (la : La) (d a b : Reg) (oss : Order) (s8 t : Bool)
  /-- Atomic XOR at the home slice (R284). -/
  | atomXor (la : La) (d a b : Reg) (oss : Order) (s8 t : Bool)
  /-- Atomic signed minimum (R284). -/
  | atomMins (la : La) (d a b : Reg) (oss : Order) (s8 t : Bool)
  /-- Atomic signed maximum (R284). -/
  | atomMaxs (la : La) (d a b : Reg) (oss : Order) (s8 t : Bool)
  /-- Atomic unsigned minimum (R284). -/
  | atomMinn (la : La) (d a b : Reg) (oss : Order) (s8 t : Bool)
  /-- Atomic unsigned maximum (R284). -/
  | atomMaxn (la : La) (d a b : Reg) (oss : Order) (s8 t : Bool)
  /-- Atomic exchange (R284). -/
  | atomExch (la : La) (d a b : Reg) (oss : Order) (s8 t : Bool)
  /-- Atomic FP32 add, staged in deterministic mode (R284). -/
  | atomFadd (la : La) (d a b : Reg) (oss : Order) (t : Bool)
  /-- Atomic add of two BF16 halves (R284). -/
  | atomBfadd2 (la : La) (d a b : Reg) (oss : Order) (t : Bool)
  /-- Atomic maximum of absolute values (R284). -/
  | atomMaxa (la : La) (d a b : Reg) (oss : Order) (t : Bool)
  /-- Atomic compare and swap (R284). -/
  | atomCas (la : La) (d a b : Reg) (oss osf : Order) (s8 t : Bool) (cmp : Reg)
  /-- Reduction add without return (R287). -/
  | redAdd (os : Order) (s8 : Bool) (a b : Reg)
  /-- Reduction AND without return (R287). -/
  | redAnd (os : Order) (s8 : Bool) (a b : Reg)
  /-- Reduction OR without return (R287). -/
  | redOr (os : Order) (s8 : Bool) (a b : Reg)
  /-- Reduction XOR without return (R287). -/
  | redXor (os : Order) (s8 : Bool) (a b : Reg)
  /-- Reduction signed minimum (R287). -/
  | redMins (os : Order) (s8 : Bool) (a b : Reg)
  /-- Reduction signed maximum (R287). -/
  | redMaxs (os : Order) (s8 : Bool) (a b : Reg)
  /-- Reduction unsigned minimum (R287). -/
  | redMinn (os : Order) (s8 : Bool) (a b : Reg)
  /-- Reduction unsigned maximum (R287). -/
  | redMaxn (os : Order) (s8 : Bool) (a b : Reg)
  /-- Reduction FP32 add (R287). -/
  | redFadd (os : Order) (a b : Reg)
  /-- Reduction add of two BF16 halves (R287). -/
  | redBfadd2 (os : Order) (a b : Reg)
  /-- Reduction maximum of absolute values (R287). -/
  | redMaxa (os : Order) (a b : Reg)
  /-- Starts a copy of a tensor box into scratch rows (R177). -/
  | tcopyTile (tid : Tid) (cs off : Reg) (xpose : Xpose) (exp24 : Bool) (tok : Reg)
  /-- Starts a copy of scratch rows into a tensor box (R177). -/
  | tcopyStore (tid : Tid) (cs off : Reg) (xpose : Xpose) (exp24 : Bool) (tok : Reg)
  /-- Starts a copy of convolution windows into scratch rows (R178). -/
  | tcopyWin (tid : Tid) (cs off : Reg) (xpose : Xpose) (exp24 : Bool) (tok : Reg)
  /-- Starts a copy of listed tensor rows into scratch rows (R179). -/
  | tcopyGather (tid : Tid) (cs off : Reg) (xpose : Xpose) (exp24 : Bool) (tok : Reg) (gtid : Tid)
  /-- Starts a prefetch of a box's lines into their home slices (R177). -/
  | tcopyPf (tid : Tid) (cs : Reg) (xpose : Xpose) (exp24 : Bool) (tok : Reg)
  /-- Reads and validates a descriptor into a tensor-table slot (R174). -/
  | tidset (s : Bool) (a : Reg) (t : Tid)
  /-- Makes a tensor-table slot invalid (R174). -/
  | tidinv (t : Tid)
  /-- Reads a word of a slot's descriptor (R174). -/
  | tidq (d : Reg) (wi : BitVec 5) (t : Tid)
  /-- Appends one entry of eight-word records to a queue (R191). -/
  | qpush (q : BitVec 4) (a : Reg)
  /-- Removes the oldest queue entry, blocking while empty (R191). -/
  | qpop (d : Reg) (q : BitVec 4) (p : Pred)
  /-- Removes the oldest queue entry if any, without blocking (R191). -/
  | qtry (d : Reg) (q : BitVec 4) (p : Pred)
  /-- Counts entries or free places of a queue (R191). -/
  | qcnt (d : Reg) (q : BitVec 4)
  /-- Tries to reserve the core's Tun array (R197). -/
  | ares (d : Pred)
  /-- Ends the team's Tun reservation (R197). -/
  | arel
  /-- Queues a load of a weight tile into a bank (R207). -/
  | tunLdw (tid : Tid) (cs tok : Reg) (bank t5 : Bool)
  /-- Queues a ternary or T5 product of activation rows into accumulators (R209). -/
  | tunMm (tid : Tid) (cs tok : Reg) (bank : Bool) (m1 row : BitVec 7) (t5 acc : Bool)
  /-- Queues a product of listed activation rows (R211). -/
  | tunGmm (tid : Tid) (cs tok : Reg) (bank : Bool) (m1 row : BitVec 7) (t5 acc : Bool) (tid2 : Tid)
  /-- Queues a drain of accumulator rows to narrow outputs (R213). -/
  | tunDrn (tid : Tid) (cs tok : Reg) (m1 row : BitVec 7) (tid3 : Tid)
  /-- Queues clearing of accumulator rows (R216). -/
  | tunZero (tok : Reg) (m1 row : BitVec 7)
  /-- Queues a privileged block-diagonal self-test product (R217). -/
  | tunBdiag (tid : Tid) (cs tok : Reg) (bank : Bool) (m1 row : BitVec 7) (acc : Bool)
  /-- Pushes closest-hit ray requests to q0 (R228). -/
  | trace (tid : Tid) (a : Reg) (mask : BitVec 8) (flags : BitVec 2) (tag : BitVec 8)
  /-- Pushes visibility ray requests to q2 (R228). -/
  | tracev (tid : Tid) (a : Reg) (mask : BitVec 8) (flags : BitVec 2) (tag : BitVec 8)
  /-- Pushes reconnection segment requests to q2 (R228). -/
  | tracerc (tid : Tid) (a : Reg) (mask : BitVec 8) (flags : BitVec 2) (tag : BitVec 8)
  /-- Pushes light-tree walk requests to q4 (R241). -/
  | ltwalk (tid : Tid) (a : Reg) (tag : BitVec 8)
  /-- Updates a reservoir record with a candidate (R236). -/
  | rsvUpd (d a b : Reg)
  /-- Merges another reservoir record into one (R236). -/
  | rsvMrg (d a b : Reg)
  /-- Computes W and caps M of a reservoir record (R237). -/
  | rsvNrm (d b : Reg)
  /-- Clears a reservoir record (R235). -/
  | rsvClr (d : Reg)
  /-- Loads a pixel's record from the reservoir store (R238). -/
  | rsvLd (la : La) (d a : Reg) (os : Order)
  /-- Stores a pixel's record to the reservoir store (R238). -/
  | rsvSt (d a : Reg) (os : Order)
  /-- Samples a texture and returns four channels (R247). -/
  | smp (la : La) (d a : Reg) (tid : Tid) (filt : Filt) (aniso : Aniso) (grad : Bool) (wrap : Wrap)
  /-- Issues a reservoir reuse command on a tile rectangle (R361). -/
  | sparge (tid : Tid) (ar tok : Reg)
  /-- Issues a stable key sort command (R372). -/
  | grist (tid : Tid) (ar tok : Reg)
  /-- Issues a collective operation over a communicator (R429). -/
  | coll (tid : Tid) (ar tok : Reg) (kind : CollKind) (fn : CollFn)
  /-- Issues a command that advances a slot's REQSEQ (R347). -/
  | launch (slot : BitVec 12) (ar tok : Reg)
  /-- Waits for the fragment's turn at its pixel and takes ownership (R370). -/
  | ordenter (d : Reg)
  /-- Releases the fragment's ordered section (R370). -/
  | ordleave
  deriving DecidableEq, Repr

end Sys2Proof
end

