-- ==== Sys2Proof/Config.lean ====
section
/-!
DEFINITION.  What an implementation fixes and the spec leaves open: the free values.

Each is a constant with no body, so no proof can see what it is.  The assumption log names the places that apply one.
-/

namespace Sys2Proof.Config

/-- Which of the results that R106 allows an SFU function gives for an input while CORECTL.EXACT = 0: the function's
code and the input word, so that the result is one bit pattern for each input. -/
opaque sfuChoice : Nat → Word → Nat

/-- A free natural number for each use of the counter `State.fresh`: which of several outcomes the spec allows. -/
opaque freeChoice : Nat → Nat

/-- A free natural number for each part of memory and each use of the counter: which version of the part is read. -/
opaque readChoice : Nat → Nat → Nat

/-- A free word for each use of the counter `State.fresh`: a value the spec does not give. -/
opaque freeWord : Nat → Word

/-- A free list of bytes for each use of the counter, cut or filled to a length where it is used. -/
opaque freeBytes : Nat → List Byte

/-- Whether a raster primitive with a vertex, centre or radius that is not finite covers a pixel's sample: the primitive's
words, x and y (R368). -/
opaque rasterCovers : List Word → Nat → Nat → Bool

/-- The payload rate in kbit/s of a DisplayPort link with a LANES code and a RATE code (R376); the spec cites the DisplayPort
specification for it. -/
opaque linkPayload : Nat → Nat → Nat

/-- A byte of the module's flash as it was manufactured (R443). -/
opaque flashByte : Nat → BitVec 8

/-- Certificates of the identity key's chain, and the DER bytes of each (R444, R445). -/
opaque certCount : Nat
opaque certificate : Nat → List (BitVec 8)

/-- Bytes of the module serial number, and of the firmware version and security version (R445). -/
opaque serialByte : Nat → BitVec 8
opaque versionByte : Nat → BitVec 8

/-- What manufacture burnt into the fuses: the bytes of the digest of the firmware key, the counter of security versions, and the bytes of
the device identity's secret (R441, R444). -/
opaque fusedKey : Nat → BitVec 8
opaque fusedVersion : Nat
opaque fusedSecret : Nat → BitVec 8

/-- Offset and length in a flash of a part of its firmware image, whose header's layout the spec does not give (R441, R443, R444): 0 the bytes
that its digest covers, 1 that digest in the header, 2 the bytes that the header's signature covers, 3 the signature, 4 the firmware key,
5 the security version, 6 the firmware configuration block. -/
opaque imagePart : Nat → (Nat → BitVec 8) → Nat × Nat

/-- The private identity key that a secret derives (R444). -/
opaque identityKey : List (BitVec 8) → Nat

end Sys2Proof.Config
end

