-- ==== Sys2Proof/Machine/Float.lean ====
section
/-!
DEFINITION.  Number formats, exact arithmetic and the one rounding procedure (R62 to R80).

Every operand is first read as an exact value, the operation is carried out exactly, and `roundF` narrows the result
once.  An exact finite value is a sign and a dyadic number m · 2^e.
-/

namespace Sys2Proof.Machine

/-- The exception flags of R78: bit 0 NV, bit 1 OF, bit 2 UF, bit 3 IX. -/
abbrev Flags := BitVec 4

/-- NV, invalid (R77). -/
def flagNV : Flags := 1
/-- OF, overflow (R77). -/
def flagOF : Flags := 2
/-- UF, underflow (R77). -/
def flagUF : Flags := 4
/-- IX, inexact (R77). -/
def flagIX : Flags := 8

/-- NV when `b` holds. -/
def nvIf (b : Bool) : Flags := if b then flagNV else 0

/-- IX when `b` holds. -/
def ixIf (b : Bool) : Flags := if b then flagIX else 0

/-- An exact value: NaN, an infinity, or (−1)^neg · m · 2^e, where m = 0 is a signed zero. -/
inductive FNum where
  | nan
  | inf (neg : Bool)
  | fin (neg : Bool) (m : Nat) (e : Int)
  deriving DecidableEq, Repr

/-- A floating-point format (R63). -/
structure Fmt where
  /-- Bits of the fraction T. -/
  tBits : Nat
  /-- Bits of the exponent E. -/
  eBits : Nat
  bias : Nat
  /-- The format has infinities; E4M3 has none. -/
  hasInf : Bool
  /-- The encoding of maxf. -/
  maxf : Nat
  /-- The canonical NaN (R65). -/
  nan : Nat
  deriving DecidableEq, Repr

/-- FP32 (R63). -/
def fp32 : Fmt := ⟨23, 8, 127, true, 0x7F7FFFFF, 0x7FC00000⟩
/-- FP16 (R63). -/
def fp16 : Fmt := ⟨10, 5, 15, true, 0x7BFF, 0x7E00⟩
/-- BF16 (R63). -/
def bf16 : Fmt := ⟨7, 8, 127, true, 0x7F7F, 0x7FC0⟩
/-- E5M2 (R63). -/
def e5m2 : Fmt := ⟨2, 5, 15, true, 0x7B, 0x7F⟩
/-- E4M3 (R63). -/
def e4m3 : Fmt := ⟨3, 4, 7, false, 0x7E, 0x7F⟩

/-- The exponent of the smallest normal (R63). -/
def Fmt.emin (f : Fmt) : Int := 1 - (f.bias : Int)

/-- The sign bit of an encoding. -/
def Fmt.signBit (f : Fmt) : Nat := 2 ^ (f.tBits + f.eBits)

/-- An encoding with a sign. -/
def Fmt.signed (f : Fmt) (neg : Bool) (mag : Nat) : Nat := if neg then f.signBit + mag else mag

/-- The magnitude encoding of infinity. -/
def Fmt.infMag (f : Fmt) : Nat := (2 ^ f.eBits - 1) * 2 ^ f.tBits

/-- The value an encoding stands for (R64, R65). -/
def Fmt.value (f : Fmt) (x : Nat) : FNum :=
  let t := bits x 0 f.tBits
  let e := bits x f.tBits f.eBits
  let neg := bits x (f.tBits + f.eBits) 1 == 1
  let mag := bits x 0 (f.tBits + f.eBits)
  if f.hasInf && e == 2 ^ f.eBits - 1 then (if t = 0 then .inf neg else .nan)
  else if !f.hasInf && mag == f.nan then .nan
  else if e = 0 then .fin neg t (f.emin - (f.tBits : Int))
  else .fin neg (2 ^ f.tBits + t) ((e : Int) - (f.bias : Int) - (f.tBits : Int))

/-- The rounding modes of R71. -/
inductive RMode where
  | rne | rtz | rdn | rup | sr
  deriving DecidableEq, Repr

/-- Whether the magnitude moves away from the lower grid point (R71): `n` is that point in grid steps and `r / 2^sh`
the discarded part, which is not 0; `w` is the random word of SR. -/
def roundsAway (mode : RMode) (neg : Bool) (n r sh w : Nat) : Bool :=
  match mode with
  | .rne => decide (2 ^ sh < 2 * r) || (decide (2 * r = 2 ^ sh) && n % 2 == 1)
  | .rtz => false
  | .rup => !neg
  | .rdn => neg
  | .sr => decide (w < r * 2 ^ 32 / 2 ^ sh)

/-- A magnitude m · 2^e in steps of 2^g: the rounded count of steps and whether anything was discarded (R71). -/
def roundSteps (mode : RMode) (w : Nat) (neg : Bool) (m : Nat) (e g : Int) : Nat × Bool :=
  if g ≤ e then (m * 2 ^ (e - g).toNat, false)
  else
    let sh := (g - e).toNat
    let n := m / 2 ^ sh
    let r := m % 2 ^ sh
    if r = 0 then (n, false) else (if roundsAway mode neg n r sh w then n + 1 else n, true)

/-- The overflow result of R72, as an encoding. -/
def Fmt.overflow (f : Fmt) (mode : RMode) (sat neg : Bool) : Nat :=
  let big := f.signed neg f.maxf
  let far := if f.hasInf then f.signed neg f.infMag else f.signed neg f.nan
  if sat then big
  else match mode with
    | .rne => far
    | .sr => far
    | .rtz => big
    | .rup => if neg then big else far
    | .rdn => if neg then far else big

/-- floor(log2 x) of a nonzero magnitude m · 2^e. -/
def log2Of (m : Nat) (e : Int) : Int := (m.log2 : Int) + e

/-- The exponent floor(log2 |x|) of a finite nonzero value. -/
def FNum.exponent : FNum → Int
  | .nan => 0
  | .inf _ => 0
  | .fin _ m e => log2Of m e

/-- Round an exact value to a floating-point format: the encoding and the flags it raises (R71, R72, R77). -/
def Fmt.round (f : Fmt) (mode : RMode) (w : Nat) (sat : Bool) (x : FNum) : Nat × Flags :=
  match x with
  | .nan => (f.nan, 0)
  | .inf neg =>
    if sat then (f.signed neg f.maxf, flagIX)
    else if f.hasInf then (f.signed neg f.infMag, 0)
    else
      let y := f.overflow mode false neg
      (y, if y = f.signed neg f.maxf then flagIX else flagNV)
  | .fin neg m e =>
    if m = 0 then (f.signed neg 0, 0)
    else
      let l := log2Of m e
      let ee := max l f.emin
      let (n, inexact) := roundSteps mode w neg m e (ee - (f.tBits : Int))
      let mag := (ee - f.emin).toNat * 2 ^ f.tBits + n
      if f.maxf < mag then (f.overflow mode sat neg, flagOF ||| flagIX)
      else (f.signed neg mag, (if decide (l < f.emin) && inexact then flagUF else 0) ||| ixIf inexact)

/-- RNE(x) in FP32, as a word with its flags. -/
def rne32 (x : FNum) : Word × Flags :=
  let (n, fl) := fp32.round .rne 0 false x
  (BitVec.ofNat 32 n, fl)

/-- The value of an FP32 word. -/
def val32 (x : Word) : FNum := fp32.value x.toNat

/-! ### Exact arithmetic -/

/-- The value is NaN. -/
def FNum.isNan : FNum → Bool
  | .nan => true | .inf _ => false | .fin _ _ _ => false

/-- The value is an infinity. -/
def FNum.isInf : FNum → Bool
  | .nan => false | .inf _ => true | .fin _ _ _ => false

/-- The value is a zero of either sign. -/
def FNum.isZero : FNum → Bool
  | .nan => false | .inf _ => false | .fin _ m _ => m == 0

/-- The sign of a number; a NaN has none. -/
def FNum.isNeg : FNum → Bool
  | .nan => false | .inf n => n | .fin n _ _ => n

/-- The opposite value. -/
def FNum.neg : FNum → FNum
  | .nan => .nan | .inf n => .inf !n | .fin n m e => .fin (!n) m e

/-- The magnitude. -/
def FNum.abs : FNum → FNum
  | .nan => .nan | .inf _ => .inf false | .fin _ m e => .fin false m e

/-- Times 2^k, exactly. -/
def FNum.scale (x : FNum) (k : Int) : FNum :=
  match x with
  | .nan => .nan | .inf n => .inf n | .fin n m e => .fin n m (e + k)

/-- A signed integer m · 2^e. -/
def signedMag (neg : Bool) (m : Nat) : Int := if neg then -(m : Int) else (m : Int)

/-- An exact integer as a value; zero is +0. -/
def FNum.ofInt (x : Int) : FNum := .fin (decide (x < 0)) x.natAbs 0

/-- The exact sum (R66): the value, and whether it is ∞ − ∞. -/
def FNum.add (a b : FNum) : FNum × Bool :=
  match a, b with
  | .nan, _ => (.nan, false)
  | .inf _, .nan => (.nan, false)
  | .fin _ _ _, .nan => (.nan, false)
  | .inf x, .inf y => if x = y then (.inf x, false) else (.nan, true)
  | .inf x, .fin _ _ _ => (.inf x, false)
  | .fin _ _ _, .inf y => (.inf y, false)
  | .fin x m e, .fin y n g =>
    let lo := min e g
    let s := signedMag x (m * 2 ^ (e - lo).toNat) + signedMag y (n * 2 ^ (g - lo).toNat)
    if s = 0 then (.fin (x && y && m == 0 && n == 0) 0 0, false)
    else (.fin (decide (s < 0)) s.natAbs lo, false)

/-- The exact product (R66): the value, and whether it is 0 × ∞. -/
def FNum.mul (a b : FNum) : FNum × Bool :=
  match a, b with
  | .nan, _ => (.nan, false)
  | .inf _, .nan => (.nan, false)
  | .fin _ _ _, .nan => (.nan, false)
  | .inf x, .inf y => (.inf (x != y), false)
  | .inf x, .fin y n _ => if n = 0 then (.nan, true) else (.inf (x != y), false)
  | .fin x m _, .inf y => if m = 0 then (.nan, true) else (.inf (x != y), false)
  | .fin x m e, .fin y n g => (.fin (x != y) (m * n) (e + g), false)

/-- A quotient of finite nonzero magnitudes with `k` further bits and a last bit that stands for the rest: it rounds
to any format of fewer than `k` bits as the exact quotient does. -/
def stickyDiv (m n k : Nat) : Nat :=
  let q := m * 2 ^ k / n
  2 * q + (if m * 2 ^ k % n = 0 then 0 else 1)

/-- The quotient, exact for rounding to 32 bits or fewer: the value, and whether it is 0 / 0 or ∞ / ∞. -/
def FNum.div (a b : FNum) : FNum × Bool :=
  match a, b with
  | .nan, _ => (.nan, false)
  | .inf _, .nan => (.nan, false)
  | .fin _ _ _, .nan => (.nan, false)
  | .inf _, .inf _ => (.nan, true)
  | .inf x, .fin y _ _ => (.inf (x != y), false)
  | .fin x _ _, .inf y => (.fin (x != y) 0 0, false)
  | .fin x m e, .fin y n g =>
    if n = 0 then (if m = 0 then (.nan, true) else (.inf (x != y), false))
    else
      let k := n.log2 + 80
      (.fin (x != y) (stickyDiv m n k) (e - g - (k : Int) - 1), false)

/-- Compare exactly: a < b for numbers; false when either is NaN.  Zeros of either sign are equal. -/
def FNum.lt (a b : FNum) : Bool :=
  match a, b with
  | .nan, _ => false
  | .inf _, .nan => false
  | .fin _ _ _, .nan => false
  | .inf x, .inf y => x && !y
  | .inf x, .fin _ _ _ => x
  | .fin _ _ _, .inf y => !y
  | .fin x m e, .fin y n g =>
    let lo := min e g
    decide (signedMag x (m * 2 ^ (e - lo).toNat) < signedMag y (n * 2 ^ (g - lo).toNat))

/-- Equal as numbers; false when either is NaN. -/
def FNum.eq (a b : FNum) : Bool := !a.isNan && !b.isNan && !a.lt b && !b.lt a

/-! ### FP32 operations rounded to nearest -/

/-- RNE(a + b). -/
def fadd (a b : Word) : Word × Flags :=
  let (x, nv) := (val32 a).add (val32 b)
  let (y, fl) := rne32 x
  (y, fl ||| nvIf nv)

/-- RNE(a − b). -/
def fsub (a b : Word) : Word × Flags :=
  let (x, nv) := (val32 a).add (val32 b).neg
  let (y, fl) := rne32 x
  (y, fl ||| nvIf nv)

/-- RNE(a × b). -/
def fmul (a b : Word) : Word × Flags :=
  let (x, nv) := (val32 a).mul (val32 b)
  let (y, fl) := rne32 x
  (y, fl ||| nvIf nv)

/-- RNE(a × b + c), fused, in a format (R100, R104).  A product 0 × ∞ raises NV whether or not c is NaN. -/
def fmaIn (f : Fmt) (neg : Bool) (a b c : Nat) : Nat × Flags :=
  let (p, nv1) := (f.value a).mul (f.value b)
  let (x, nv2) := (if neg then p.neg else p).add (f.value c)
  let (y, fl) := f.round .rne 0 false x
  (y, fl ||| nvIf (nv1 || nv2))

/-- FMAC: RNE(a × b + c) (R100). -/
def fmac (a b c : Word) : Word × Flags :=
  let (y, fl) := fmaIn fp32 false a.toNat b.toNat c.toNat
  (BitVec.ofNat 32 y, fl)

/-- FMSC: RNE(c − a × b) (R100). -/
def fmsc (a b c : Word) : Word × Flags :=
  let (y, fl) := fmaIn fp32 true a.toNat b.toNat c.toNat
  (BitVec.ofNat 32 y, fl)

/-- A key that orders the numbers of a format with −0 below +0 (R101). -/
def Fmt.orderKey (f : Fmt) (x : Nat) : Int :=
  let mag := bits x 0 (f.tBits + f.eBits)
  if bits x (f.tBits + f.eBits) 1 = 1 then -(mag : Int) - 1 else (mag : Int)

/-- Minimum, or maximum when `mx`, in a format: NaN when either operand is NaN (R101). -/
def Fmt.minMax (f : Fmt) (mx : Bool) (a b : Nat) : Nat :=
  if (f.value a).isNan || (f.value b).isNan then f.nan
  else if (decide (f.orderKey b < f.orderKey a)) == mx then a else b

/-- FMIN and FMAX (R101). -/
def fminmax (mx : Bool) (a b : Word) : Word := BitVec.ofNat 32 (fp32.minMax mx a.toNat b.toNat)

/-- FMINN and FMAXN: the other operand when exactly one is NaN (R101). -/
def fminmaxN (mx : Bool) (a b : Word) : Word :=
  if (val32 a).isNan && !(val32 b).isNan then b
  else if (val32 b).isNan && !(val32 a).isNan then a
  else fminmax mx a b

/-- FCPS: a with the sign of b (R102). -/
def fcps (a b : Word) : Word :=
  if (val32 a).isNan then 0x7FC00000
  else BitVec.ofNat 32 (a.toNat % 2147483648 + b.toNat / 2147483648 * 2147483648)

/-- FSCL: RNE(a × 2^n), n clamped to −320 … +320 (R102). -/
def fscl (a b : Word) : Word × Flags :=
  if (val32 a).isInf || (val32 a).isZero then (a, 0)
  else rne32 ((val32 a).scale (max (-320) (min 320 b.toInt)))

/-- The conditions of FCMP (R103). -/
inductive FCond where
  | eq | ne | lt | le | gt | ge | un | or
  deriving DecidableEq, Repr

/-- FCMP: the condition and its flags (R103). -/
def fcmp (c : FCond) (a b : Word) : Bool × Flags :=
  let x := val32 a
  let y := val32 b
  let un := x.isNan || y.isNan
  match c with
  | .eq => (x.eq y, 0)
  | .ne => (!x.eq y, 0)
  | .lt => (x.lt y, nvIf un)
  | .le => (x.lt y || x.eq y, nvIf un)
  | .gt => (y.lt x, nvIf un)
  | .ge => (y.lt x || x.eq y, nvIf un)
  | .un => (un, 0)
  | .or => (!un, 0)

/-- The operations of HOP on one element (R104). -/
inductive HopFn where
  | add | sub | mul | mac | min | max
  deriving DecidableEq, Repr

/-- One element of HOP (R104). -/
def hopElem (f : Fmt) (op : HopFn) (x y z : Nat) : Nat × Flags :=
  match op with
  | .add =>
    let (v, nv) := (f.value x).add (f.value y)
    let (r, fl) := f.round .rne 0 false v
    (r, fl ||| nvIf nv)
  | .sub =>
    let (v, nv) := (f.value x).add (f.value y).neg
    let (r, fl) := f.round .rne 0 false v
    (r, fl ||| nvIf nv)
  | .mul =>
    let (v, nv) := (f.value x).mul (f.value y)
    let (r, fl) := f.round .rne 0 false v
    (r, fl ||| nvIf nv)
  | .mac => fmaIn f false x y z
  | .min => (f.minMax false x y, 0)
  | .max => (f.minMax true x y, 0)

/-- HOP: both elements, their flags ORed (R104). -/
def hop (f : Fmt) (op : HopFn) (a b c : Word) : Word × Flags :=
  let (lo, f0) := hopElem f op (bits a.toNat 0 16) (bits b.toNat 0 16) (bits c.toNat 0 16)
  let (hi, f1) := hopElem f op (bits a.toNat 16 16) (bits b.toNat 16 16) (bits c.toNat 16 16)
  (BitVec.ofNat 32 (lo + hi * 65536), f0 ||| f1)

/-! ### Conversions -/

/-- An exact value rounded to a grid spacing of 1: the integer, and whether it differs from the value (R71, R75). -/
def roundInt (mode : RMode) (w : Nat) (neg : Bool) (m : Nat) (e : Int) : Int × Bool :=
  let (n, inexact) := roundSteps mode w neg m e 0
  (signedMag neg n, inexact)

/-- A conversion to an integer range: it rounds, clamps and never wraps (R75, R76). -/
def toIntRange (mode : RMode) (w : Nat) (lo hi : Int) (x : FNum) : Int × Flags :=
  match x with
  | .nan => (0, flagNV)
  | .inf neg => (if neg then lo else hi, flagNV)
  | .fin neg m e =>
    let (v, inexact) := roundInt mode w neg m e
    if v < lo then (lo, flagNV)
    else if hi < v then (hi, flagNV)
    else (v, ixIf inexact)

/-- The mode of a rounding field. -/
def Rnd.mode : Rnd → RMode
  | .rne => .rne | .rtz => .rtz | .rdn => .rdn | .rup => .rup

/-- The mode of QCVT's rounding field. -/
def QRnd.mode : QRnd → RMode
  | .rne => .rne | .rtz => .rtz | .rdn => .rdn | .rup => .rup | .sr => .sr

/-- CVT.F32.S32 (R109). -/
def cvtF32S32 (r : Rnd) (a : Word) : Word × Flags :=
  let (n, fl) := fp32.round (Rnd.mode r) 0 false (FNum.ofInt a.toInt)
  (BitVec.ofNat 32 n, fl)

/-- CVT.F32.N32 (R109). -/
def cvtF32N32 (r : Rnd) (a : Word) : Word × Flags :=
  let (n, fl) := fp32.round (Rnd.mode r) 0 false (FNum.ofInt a.toNat)
  (BitVec.ofNat 32 n, fl)

/-- CVT.S32.F32 (R109). -/
def cvtS32F32 (r : Rnd) (a : Word) : Word × Flags :=
  let (v, fl) := toIntRange (Rnd.mode r) 0 (-2147483648) 2147483647 (val32 a)
  (wordOfInt v, fl)

/-- CVT.N32.F32 (R109). -/
def cvtN32F32 (r : Rnd) (a : Word) : Word × Flags :=
  let (v, fl) := toIntRange (Rnd.mode r) 0 0 4294967295 (val32 a)
  (wordOfInt v, fl)

/-- CVT.F16.F32 and CVT.BF16.F32: the narrow value in bits 15:0, 0 above (R109). -/
def cvtNarrow (f : Fmt) (r : Rnd) (a : Word) : Word × Flags :=
  let (n, fl) := f.round (Rnd.mode r) 0 false (val32 a)
  (BitVec.ofNat 32 n, fl)

/-- CVT.F32.F16 and CVT.F32.BF16: exact, no flag (R109). -/
def cvtWiden (f : Fmt) (a : Word) : Word := (rne32 (f.value (bits a.toNat 0 16))).1

/-- FRINT: the integral value the rounding selects (R109). -/
def frint (r : Rnd) (a : Word) : Word × Flags :=
  match val32 a with
  | .nan => (0x7FC00000, 0)
  | .inf _ => (a, 0)
  | .fin neg m e =>
    let (n, inexact) := roundSteps (Rnd.mode r) 0 neg m e 0
    ((rne32 (.fin neg n 0)).1, ixIf inexact)

end Sys2Proof.Machine
end

