-- ==== Sys2Proof/Machine/Alu.lean ====
section
/-!
DEFINITION.  The integer functions of the lane and scalar instructions (R88 to R97, R112 to R126 in integers, R82).
-/

namespace Sys2Proof.Machine

/-- The whole word 0 or all ones. -/
def boolWord (b : Bool) : Word := if b then 1 else 0

/-- SHL of R88: 0 for a count of 32 or more. -/
def aluShl (a b : Word) : Word := if b.toNat < 32 then a <<< b.toNat else 0
/-- SHRN of R88. -/
def aluShrn (a b : Word) : Word := if b.toNat < 32 then a >>> b.toNat else 0
/-- SHRS of R88: the sign for a count of 32 or more. -/
def aluShrs (a b : Word) : Word := a.sshiftRight (min b.toNat 31)
/-- ROT of R89: left by b mod 32. -/
def aluRot (a b : Word) : Word := a.rotateLeft (b.toNat % 32)
/-- MULHS of R88: bits 63:32 of the signed product. -/
def aluMulhs (a b : Word) : Word := wordOfInt (a.toInt * b.toInt / 4294967296)
/-- MULHN of R88: bits 63:32 of the unsigned product. -/
def aluMulhn (a b : Word) : Word := BitVec.ofNat 32 (a.toNat * b.toNat / 4294967296)
/-- MINS of R88. -/
def aluMins (a b : Word) : Word := if a.toInt ≤ b.toInt then a else b
/-- MAXS of R88. -/
def aluMaxs (a b : Word) : Word := if a.toInt ≤ b.toInt then b else a
/-- MINN of R88. -/
def aluMinn (a b : Word) : Word := if a.toNat ≤ b.toNat then a else b
/-- MAXN of R88. -/
def aluMaxn (a b : Word) : Word := if a.toNat ≤ b.toNat then b else a
/-- ANDN of R88. -/
def aluAndn (a b : Word) : Word := a &&& ~~~b
/-- ABSD of R89. -/
def aluAbsd (a b : Word) : Word := BitVec.ofNat 32 (a.toInt - b.toInt).natAbs

/-- The low `n` bits counted from bit 0, ones. -/
def popCount (x : Nat) : Nat → Nat
  | 0 => 0
  | n + 1 => popCount x n + bits x n 1

/-- POPC of R89. -/
def aluPopc (a : Word) : Word := BitVec.ofNat 32 (popCount a.toNat 32)

/-- CLZ of R89: 32 for 0. -/
def aluClz (a : Word) : Word := if a = 0 then 32 else BitVec.ofNat 32 (31 - a.toNat.log2)

/-- The low `n` bits of `x` in reverse order. -/
def revBits (x : Nat) : Nat → Nat
  | 0 => 0
  | n + 1 => revBits (x / 2) n + bits x 0 1 * 2 ^ n

/-- BREV of R89. -/
def aluBrev (a : Word) : Word := BitVec.ofNat 32 (revBits a.toNat 32)

/-- The position of a bit field (R90). -/
def bfPos (b : Word) : Nat := bits b.toNat 0 5
/-- The length of a bit field, cut at bit 31 (R90). -/
def bfLen (b : Word) : Nat := min (bits b.toNat 8 6) (32 - bfPos b)

/-- BFEN of R90. -/
def aluBfen (a b : Word) : Word := BitVec.ofNat 32 (bits a.toNat (bfPos b) (bfLen b))
/-- BFES of R90. -/
def aluBfes (a b : Word) : Word := wordOfInt (sext (bits a.toNat (bfPos b) (bfLen b)) (bfLen b))
/-- BFI of R90. -/
def aluBfi (a b c : Word) : Word :=
  BitVec.ofNat 32 (bits c.toNat 0 (bfPos b) + bits a.toNat 0 (bfLen b) * 2 ^ bfPos b
    + c.toNat / 2 ^ (bfPos b + bfLen b) * 2 ^ (bfPos b + bfLen b))

/-- Byte `k` of a word. -/
def byteOf (a : Word) (k : Nat) : Nat := bits a.toNat (8 * k) 8

/-- One byte of BSEL: `prev` is the result byte below, or byte 3 of a for k = 0 (R91). -/
def bselByte (a c : Word) (s k prev : Nat) : Nat :=
  if s < 4 then byteOf a s
  else if s = 4 then 0
  else if s = 5 then 255
  else if s = 6 then byteOf c k
  else if 128 ≤ prev then 255 else 0

/-- BSEL of R91. -/
def aluBsel (a b c : Word) : Word :=
  let s := b.toNat
  let r0 := bselByte a c (bits s 0 3) 0 (byteOf a 3)
  let r1 := bselByte a c (bits s 3 3) 1 r0
  let r2 := bselByte a c (bits s 6 3) 2 r1
  let r3 := bselByte a c (bits s 9 3) 3 r2
  BitVec.ofNat 32 (r0 + r1 * 256 + r2 * 65536 + r3 * 16777216)

/-- A register pair as one 64-bit value (R62). -/
def pairVal (lo hi : Word) : Dword := hi ++ lo
/-- The low word of a pair. -/
def pairLo (x : Dword) : Word := x.setWidth 32
/-- The high word of a pair. -/
def pairHi (x : Dword) : Word := (x >>> 32).setWidth 32

/-- LEAk of R89: the base plus the signed index times 2^k. -/
def aluLea (k : Nat) (base : Dword) (b : Word) : Dword := base + BitVec.ofInt 64 (b.toInt * (2 ^ k : Nat))

/-- An 11-bit immediate, sign-extended (R36). -/
def immWord (i : Imm11) : Word := i.signExtend 32

/-! ### Trit words, trit bytes and T5 numbers -/

/-- Trit `j` of a trit word: code 0b10 reads as 0 (R112). -/
def tritOf (a : Word) (j : Nat) : Int :=
  let c := bits a.toNat (2 * j) 2
  if c = 1 then 1 else if c = 3 then -1 else 0

/-- The code of a trit in a trit word (R112). -/
def tritCode (t : Int) : Nat := if t = 1 then 1 else if t = -1 then 3 else 0

/-- The base-three digit of a trit (R68). -/
def tritDigit (t : Int) : Nat := if t = 1 then 1 else if t = -1 then 2 else 0

/-- The trit of a base-three digit (R68). -/
def digitTrit (d : Nat) : Int := if d = 1 then 1 else if d = 2 then -1 else 0

/-- Digit `j` of a trit byte (R68). -/
def tritByteDigit (b j : Nat) : Nat := b / 3 ^ j % 3

/-- The trit byte of five trits (R68). -/
def packTrits (t0 t1 t2 t3 t4 : Int) : Nat :=
  tritDigit t0 + 3 * tritDigit t1 + 9 * tritDigit t2 + 27 * tritDigit t3 + 81 * tritDigit t4

/-- The T5 value of a trit byte (R70). -/
def t5Value (b : Nat) : Int :=
  digitTrit (tritByteDigit b 0) + 3 * digitTrit (tritByteDigit b 1) + 9 * digitTrit (tritByteDigit b 2)
    + 27 * digitTrit (tritByteDigit b 3) + 81 * digitTrit (tritByteDigit b 4)

/-- The digits of an integer in balanced base three, as a trit byte. -/
def t5Digits : Nat → Int → Nat
  | 0, _ => 0
  | n + 1, v =>
    let d := (v % 3).toNat
    d + 3 * t5Digits n ((v - digitTrit d) / 3)

/-- The trit byte of a T5 value in −121 … +121 (R70). -/
def t5Encode (v : Int) : Nat := t5Digits 5 v

/-- A value clamped to a range. -/
def clampInt (lo hi v : Int) : Int := max lo (min hi v)

/-- T5PACK of R121. -/
def aluT5pack (a : Word) : Word :=
  let pk := fun k => packTrits (tritOf a (5 * k)) (tritOf a (5 * k + 1)) (tritOf a (5 * k + 2))
    (tritOf a (5 * k + 3)) (tritOf a (5 * k + 4))
  BitVec.ofNat 32 (pk 0 + pk 1 * 256 + pk 2 * 65536)

/-- The trit codes of one trit byte, at trits 0–4. -/
def tritCodes (b : Nat) : Nat :=
  let c := fun j => tritCode (digitTrit (tritByteDigit b j))
  c 0 + c 1 * 4 + c 2 * 16 + c 3 * 64 + c 4 * 256

/-- T5UNPK of R121. -/
def aluT5unpk (a : Word) : Word :=
  BitVec.ofNat 32 (tritCodes (byteOf a 0) + tritCodes (byteOf a 1) * 1024 + tritCodes (byteOf a 2) * 1048576)

/-- A word of four bytes. -/
def ofBytes (b0 b1 b2 b3 : Nat) : Word := BitVec.ofNat 32 (b0 + b1 * 256 + b2 * 65536 + b3 * 16777216)

/-- T5ENC of R121. -/
def aluT5enc (a : Word) : Word :=
  let e := fun k => t5Encode (clampInt (-121) 121 (sext (byteOf a k) 8))
  ofBytes (e 0) (e 1) (e 2) (e 3)

/-- T5DEC of R121. -/
def aluT5dec (a : Word) : Word :=
  let d := fun k => (t5Value (byteOf a k) % 256).toNat
  ofBytes (d 0) (d 1) (d 2) (d 3)

/-- The index of the lowest of the first `n` bytes that is no trit byte, counting from `k` (R126). -/
def badTritByteFrom (a : Word) : Nat → Nat → Option Nat
  | _, 0 => none
  | k, n + 1 => if 242 < byteOf a k then some k else badTritByteFrom a (k + 1) n

/-- The lowest byte among the first `n` that is no trit byte. -/
def badTritByte (a : Word) (n : Nat) : Option Nat := badTritByteFrom a 0 n

/-- T5CHK of R121. -/
def aluT5chk (a : Word) : Bool := (badTritByte a 4).isNone

/-- How many trits of a trit word have a code. -/
def tritCount (a : Word) (code : Nat) : Nat → Nat
  | 0 => 0
  | n + 1 => tritCount a code n + (if bits a.toNat (2 * n) 2 = code then 1 else 0)

/-- TCNT of R121. -/
def aluTcnt (a : Word) : Word := BitVec.ofNat 32 (tritCount a 1 16 + tritCount a 3 16 * 256)

/-! ### Random words -/

/-- mix32 of R82. -/
def mix32 (x : Word) : Word :=
  let x := x ^^^ (x >>> 16)
  let x := x * 0x7FEB352D
  let x := x ^^^ (x >>> 15)
  let x := x * 0x846CA68B
  x ^^^ (x >>> 16)

/-- RNG of R82. -/
def rngWord (counter key : Word) : Word := mix32 (mix32 (counter ^^^ key) + key)

/-- RNGF of R122. -/
def rngFloat (counter key : Word) : Word :=
  (rne32 (.fin false (bits (rngWord counter key).toNat 8 24) (-24))).1

/-- The random word of a lane (R83): the draw index is bits 15:0 of `n`. -/
def laneRng (logical : Nat) (n key : Word) : Word :=
  rngWord (BitVec.ofNat 32 (logical * 65536 + bits n.toNat 0 16)) key

/-- The conditions of ICMP (R92). -/
inductive ICond where
  | eq | ne | lts | les | gts | ges | ltn | len | gtn | gen | tst | ntst
  deriving DecidableEq, Repr

/-- ICMP of R92. -/
def icmp (c : ICond) (a b : Word) : Bool :=
  match c with
  | .eq => decide (a = b)
  | .ne => decide (a ≠ b)
  | .lts => decide (a.toInt < b.toInt)
  | .les => decide (a.toInt ≤ b.toInt)
  | .gts => decide (b.toInt < a.toInt)
  | .ges => decide (b.toInt ≤ a.toInt)
  | .ltn => decide (a.toNat < b.toNat)
  | .len => decide (a.toNat ≤ b.toNat)
  | .gtn => decide (b.toNat < a.toNat)
  | .gen => decide (b.toNat ≤ a.toNat)
  | .tst => decide (a &&& b ≠ 0)
  | .ntst => decide (a &&& b = 0)

end Sys2Proof.Machine
end

