-- ==== Sys2Proof/Machine/Map.lean ====
section
/-!
DEFINITION.  Finite maps as plain data: a list of keys and values, keys strictly rising, no entry equal to the default.

One canonical form for every map, so that equal maps are equal lists: banks of registers, tables of groups and teams,
memory.  Reading takes the first entry of a key and removing drops every entry of it, so that a read after a write
gives the value written whatever list it starts from.
-/

namespace Sys2Proof.Machine

/-- A map from natural numbers, held as its entries. -/
abbrev FMap (α : Type) := List (Nat × α)

/-- The value at a key: `dflt` where no entry is listed. -/
def fget {α : Type} (dflt : α) : FMap α → Nat → α
  | [], _ => dflt
  | (k, v) :: m, i => if i = k then v else fget dflt m i

/-- The entry of a key, where one is listed. -/
def ffind {α : Type} : FMap α → Nat → Option α
  | [], _ => none
  | (k, v) :: m, i => if i = k then some v else ffind m i

/-- Insert or replace an entry, in the order of the keys. -/
def fins {α : Type} : FMap α → Nat → α → FMap α
  | [], i, x => [(i, x)]
  | (k, v) :: m, i, x =>
    if i = k then (i, x) :: m
    else if i < k then (i, x) :: (k, v) :: m
    else (k, v) :: fins m i x

/-- Remove the entries of a key. -/
def fdel {α : Type} (m : FMap α) (i : Nat) : FMap α := m.filter (fun e => e.1 != i)

/-- Set the value at a key: a value equal to `dflt` is not listed. -/
def fset {α : Type} [DecidableEq α] (dflt : α) (m : FMap α) (i : Nat) (x : α) : FMap α :=
  if x = dflt then fdel m i else fins m i x

/-- The keys are at least `lo` and strictly rising, and no entry is the default. -/
def fwfFrom {α : Type} [DecidableEq α] (dflt : α) : Nat → FMap α → Bool
  | _, [] => true
  | lo, (k, v) :: m => decide (lo ≤ k) && decide (v ≠ dflt) && fwfFrom dflt (k + 1) m

/-- The canonical form. -/
def fwf {α : Type} [DecidableEq α] (dflt : α) (m : FMap α) : Bool := fwfFrom dflt 0 m

/-- The element of a list at an index, or a default. -/
def nth {α : Type} (dflt : α) : List α → Nat → α
  | [], _ => dflt
  | x :: _, 0 => x
  | _ :: xs, i + 1 => nth dflt xs i

/-- Replace the element at an index, where the list has one. -/
def setNth {α : Type} : List α → Nat → α → List α
  | [], _, _ => []
  | _ :: xs, 0, y => y :: xs
  | x :: xs, i + 1, y => x :: setNth xs i y

/-- Apply a function at one index of a list. -/
def modNth {α : Type} : List α → Nat → (α → α) → List α
  | [], _, _ => []
  | x :: xs, 0, f => f x :: xs
  | x :: xs, i + 1, f => x :: modNth xs i f

/-- Map with the index of each element, counting from `n`. -/
def mapFrom {α β : Type} (f : Nat → α → β) : Nat → List α → List β
  | _, [] => []
  | n, x :: xs => f n x :: mapFrom f (n + 1) xs

/-- Map over the entries of a map. -/
def fmapVals {α β : Type} (f : Nat → α → β) (m : FMap α) : FMap β := m.map (fun e => (e.1, f e.1 e.2))

/-- The numbers below `n` that are set in a lane mask, lowest first. -/
def lanesOf (n : Nat) (m : Lanes) : List Nat := (List.range n).filter (fun i => m.getLsbD i)

/-- The mask of the numbers below `n` that satisfy a test. -/
def maskOf (f : Nat → Bool) : Nat → Lanes
  | 0 => 0
  | n + 1 => if f n then maskOf f n ||| (1 <<< n) else maskOf f n

/-- The least of a list of numbers, or a default. -/
def minOf (dflt : Nat) : List Nat → Nat
  | [] => dflt
  | x :: xs => min x (minOf x xs)

end Sys2Proof.Machine
end

