-- ==== Sys2Proof/WellFormed.lean ====
section
/-!
DEFINITION.  Which instructions are well formed: the register bases of R35 and the field limits that the word layouts
and the instruction chapters add (R47).  The pipe classes of R46, which R32 constrains within a chain, stand here too.
-/

namespace Sys2Proof

/-- Why a word, or a pair of words, is no instruction (R28, R47); each is ILLEGAL_INSTR. -/
inductive Reject where
  /-- A reserved MAJ (R46). -/
  | reservedMajor
  /-- A reserved FN, OPC, MODE or OP (R46, R47). -/
  | reservedFunction
  /-- A reserved value of a field (R47). -/
  | reservedValue
  /-- A bit that R35, R37, R38, R40, R41 or R42 requires to be 0, or a fixed field, holds another value. -/
  | fieldNotZero
  /-- An SZ or SIZE code that the major excludes (R39, R47, R50). -/
  | sizeCode
  /-- An OS code that the major excludes (R39, R47). -/
  | orderCode
  /-- A register base that R35 forbids. -/
  | registerBase
  /-- Fields that do not fit together (R52, R113, R245, R282, R429). -/
  | fieldsClash
  /-- Bit 31 of the first word of a two-word instruction is 1 (R28). -/
  | pairBit31
  /-- A two-word major whose second word is missing: in slot 2 (R28), or at the end of the bytes given. -/
  | truncated
  deriving DecidableEq, Repr

/-- The pipe classes of R46. -/
inductive Pipe where
  /-- Vector arithmetic. -/
  | a
  /-- Special function, conversion and random. -/
  | f
  /-- Scalar and predicate. -/
  | s
  /-- Memory. -/
  | m
  /-- Engine and queue. -/
  | e
  /-- Branch, control and barrier. -/
  | b
  deriving DecidableEq, Repr

/-- The bytes per lane of an access (R39). -/
def Size.bytes : Size → Nat
  | .b1 => 1 | .b2 => 2 | .b4 => 4 | .b8 => 8 | .b16 => 16 | .b32 => 32

/-- The registers an access names: one up to 4 bytes, then a group of 2, 4 or 8 (R39). -/
def Size.regs : Size → Nat
  | .b1 => 1 | .b2 => 1 | .b4 => 1 | .b8 => 2 | .b16 => 4 | .b32 => 8

/-- The sizes of the tagged forms of LDS and STS, SZ = 2 to 5 (R162). -/
def Size.tagged : Size → Bool
  | .b1 => false | .b2 => false | .b4 => true | .b8 => true | .b16 => true | .b32 => true

/-- The width in bits of an element of the QCVT major (R113). -/
def QFmt.width : QFmt → Nat
  | .f16 => 16 | .bf16 => 16 | .e4m3 => 8 | .e5m2 => 8 | .s8 => 8 | .n8 => 8 | .s4 => 4 | .e8m0 => 8 | .t5 => 8

/-- POS lies in 0 … min(3, 32 / w_e − 1) (R113). -/
def QFmt.posFits (f : QFmt) (pos : BitVec 2) : Bool := pos.toNat ≤ min 3 (32 / f.width - 1)

/-- The pipe class of each instruction (R46).  An event has none. -/
def Instr.pipe : Instr → Option Pipe
  | .nop => some .b
  | .trap _ => some .b
  | .eret => some .b
  | .halt _ => some .b
  | .csrr _ _ => some .b
  | .csrw _ _ => some .b
  | .segld _ _ => some .b
  | .tlbinv _ _ => some .b
  | .tlbinvAll => some .b
  | .icinv _ _ => some .b
  | .isync => some .b
  | .sleep _ => some .b
  | .yield => some .b
  | .flagrd _ => some .b
  | .flagclr _ => some .b
  | .clock _ => some .b
  | .add _ _ _ => some .a
  | .sub _ _ _ => some .a
  | .mul _ _ _ => some .a
  | .mulhs _ _ _ => some .a
  | .mulhn _ _ _ => some .a
  | .mins _ _ _ => some .a
  | .maxs _ _ _ => some .a
  | .minn _ _ _ => some .a
  | .maxn _ _ _ => some .a
  | .and _ _ _ => some .a
  | .or _ _ _ => some .a
  | .xor _ _ _ => some .a
  | .andn _ _ _ => some .a
  | .shl _ _ _ => some .a
  | .shrn _ _ _ => some .a
  | .shrs _ _ _ => some .a
  | .addS _ _ _ => some .a
  | .subS _ _ _ => some .a
  | .mulS _ _ _ => some .a
  | .mulhsS _ _ _ => some .a
  | .mulhnS _ _ _ => some .a
  | .minsS _ _ _ => some .a
  | .maxsS _ _ _ => some .a
  | .minnS _ _ _ => some .a
  | .maxnS _ _ _ => some .a
  | .andS _ _ _ => some .a
  | .orS _ _ _ => some .a
  | .xorS _ _ _ => some .a
  | .andnS _ _ _ => some .a
  | .shlS _ _ _ => some .a
  | .shrnS _ _ _ => some .a
  | .shrsS _ _ _ => some .a
  | .rot _ _ _ => some .a
  | .absd _ _ _ => some .a
  | .mac _ _ _ => some .a
  | .add64 _ _ _ => some .a
  | .sub64 _ _ _ => some .a
  | .bfen _ _ _ => some .a
  | .bfes _ _ _ => some .a
  | .bfi _ _ _ => some .a
  | .popc _ _ => some .a
  | .clz _ _ => some .a
  | .brev _ _ => some .a
  | .bsel _ _ _ => some .a
  | .lea0 _ _ _ => some .a
  | .lea1 _ _ _ => some .a
  | .lea2 _ _ _ => some .a
  | .lea3 _ _ _ => some .a
  | .rotS _ _ _ => some .a
  | .absdS _ _ _ => some .a
  | .macS _ _ _ => some .a
  | .add64S _ _ _ => some .a
  | .sub64S _ _ _ => some .a
  | .bfenS _ _ _ => some .a
  | .bfesS _ _ _ => some .a
  | .bfiS _ _ _ => some .a
  | .popcS _ _ => some .a
  | .clzS _ _ => some .a
  | .brevS _ _ => some .a
  | .bselS _ _ _ => some .a
  | .lea0S _ _ _ => some .a
  | .lea1S _ _ _ => some .a
  | .lea2S _ _ _ => some .a
  | .lea3S _ _ _ => some .a
  | .icmpEq _ _ _ => some .a
  | .icmpNe _ _ _ => some .a
  | .icmpLts _ _ _ => some .a
  | .icmpLes _ _ _ => some .a
  | .icmpGts _ _ _ => some .a
  | .icmpGes _ _ _ => some .a
  | .icmpLtn _ _ _ => some .a
  | .icmpLen _ _ _ => some .a
  | .icmpGtn _ _ _ => some .a
  | .icmpGen _ _ _ => some .a
  | .icmpTst _ _ _ => some .a
  | .icmpNtst _ _ _ => some .a
  | .icmpEqS _ _ _ => some .a
  | .icmpNeS _ _ _ => some .a
  | .icmpLtsS _ _ _ => some .a
  | .icmpLesS _ _ _ => some .a
  | .icmpGtsS _ _ _ => some .a
  | .icmpGesS _ _ _ => some .a
  | .icmpLtnS _ _ _ => some .a
  | .icmpLenS _ _ _ => some .a
  | .icmpGtnS _ _ _ => some .a
  | .icmpGenS _ _ _ => some .a
  | .icmpTstS _ _ _ => some .a
  | .icmpNtstS _ _ _ => some .a
  | .fadd _ _ _ => some .a
  | .fsub _ _ _ => some .a
  | .fmul _ _ _ => some .a
  | .fmac _ _ _ => some .a
  | .fmsc _ _ _ => some .a
  | .fmin _ _ _ => some .a
  | .fmax _ _ _ => some .a
  | .fminn _ _ _ => some .a
  | .fmaxn _ _ _ => some .a
  | .fcps _ _ _ => some .a
  | .fscl _ _ _ => some .a
  | .faddS _ _ _ => some .a
  | .fsubS _ _ _ => some .a
  | .fmulS _ _ _ => some .a
  | .fmacS _ _ _ => some .a
  | .fmscS _ _ _ => some .a
  | .fminS _ _ _ => some .a
  | .fmaxS _ _ _ => some .a
  | .fminnS _ _ _ => some .a
  | .fmaxnS _ _ _ => some .a
  | .fcpsS _ _ _ => some .a
  | .fsclS _ _ _ => some .a
  | .fcmpEq _ _ _ => some .a
  | .fcmpNe _ _ _ => some .a
  | .fcmpLt _ _ _ => some .a
  | .fcmpLe _ _ _ => some .a
  | .fcmpGt _ _ _ => some .a
  | .fcmpGe _ _ _ => some .a
  | .fcmpUn _ _ _ => some .a
  | .fcmpOr _ _ _ => some .a
  | .fcmpEqS _ _ _ => some .a
  | .fcmpNeS _ _ _ => some .a
  | .fcmpLtS _ _ _ => some .a
  | .fcmpLeS _ _ _ => some .a
  | .fcmpGtS _ _ _ => some .a
  | .fcmpGeS _ _ _ => some .a
  | .fcmpUnS _ _ _ => some .a
  | .fcmpOrS _ _ _ => some .a
  | .hadd _ _ _ => some .a
  | .hsub _ _ _ => some .a
  | .hmul _ _ _ => some .a
  | .hmac _ _ _ => some .a
  | .hmin _ _ _ => some .a
  | .hmax _ _ _ => some .a
  | .badd _ _ _ => some .a
  | .bsub _ _ _ => some .a
  | .bmul _ _ _ => some .a
  | .bmac _ _ _ => some .a
  | .bmin _ _ _ => some .a
  | .bmax _ _ _ => some .a
  | .haddS _ _ _ => some .a
  | .hsubS _ _ _ => some .a
  | .hmulS _ _ _ => some .a
  | .hmacS _ _ _ => some .a
  | .hminS _ _ _ => some .a
  | .hmaxS _ _ _ => some .a
  | .baddS _ _ _ => some .a
  | .bsubS _ _ _ => some .a
  | .bmulS _ _ _ => some .a
  | .bmacS _ _ _ => some .a
  | .bminS _ _ _ => some .a
  | .bmaxS _ _ _ => some .a
  | .sel _ _ _ _ => some .a
  | .selS _ _ _ _ => some .a
  | .pand _ _ _ => some .s
  | .por _ _ _ => some .s
  | .pxor _ _ _ => some .s
  | .pandn _ _ _ => some .s
  | .p2v _ _ => some .s
  | .v2p _ _ => some .s
  | .vany _ _ => some .s
  | .vall _ _ => some .s
  | .vbal _ _ => some .s
  | .vcnt _ _ => some .s
  | .addi _ _ _ => some .a
  | .andi _ _ _ => some .a
  | .ori _ _ _ => some .a
  | .xori _ _ _ => some .a
  | .shiShl _ _ _ => some .a
  | .shiShrn _ _ _ => some .a
  | .shiShrs _ _ _ => some .a
  | .shiRot _ _ _ => some .a
  | .movi _ _ => some .a
  | .lit sd _ _ => some (if sd then .s else .a)
  | .sadd _ _ _ => some .s
  | .ssub _ _ _ => some .s
  | .smul _ _ _ => some .s
  | .sand _ _ _ => some .s
  | .sor _ _ _ => some .s
  | .sxor _ _ _ => some .s
  | .sshl _ _ _ => some .s
  | .sshrn _ _ _ => some .s
  | .sshrs _ _ _ => some .s
  | .smins _ _ _ => some .s
  | .smaxs _ _ _ => some .s
  | .sadd64 _ _ _ => some .s
  | .sseteq _ _ _ => some .s
  | .ssetne _ _ _ => some .s
  | .ssetlt _ _ _ => some .s
  | .ssetltn _ _ _ => some .s
  | .saddi _ _ _ => some .s
  | .bcast _ _ => some .a
  | .rdfirst _ _ => some .a
  | .rdlane _ _ _ => some .a
  | .wrlane _ _ _ => some .a
  | .rdlpc _ _ => some .a
  | .laneid _ => some .a
  | .rcp _ _ _ => some .f
  | .rsq _ _ _ => some .f
  | .sqrt _ _ _ => some .f
  | .ex2 _ _ _ => some .f
  | .lg2 _ _ _ => some .f
  | .sinpi _ _ _ => some .f
  | .cospi _ _ _ => some .f
  | .tanh _ _ _ => some .f
  | .cvtF32S32 _ _ _ _ => some .f
  | .cvtF32N32 _ _ _ _ => some .f
  | .cvtS32F32 _ _ _ _ => some .f
  | .cvtN32F32 _ _ _ _ => some .f
  | .cvtF16F32 _ _ _ _ => some .f
  | .cvtBf16F32 _ _ _ _ => some .f
  | .cvtF32F16 _ _ _ _ => some .f
  | .cvtF32Bf16 _ _ _ _ => some .f
  | .frint _ _ _ _ => some .f
  | .qcvt _ _ _ _ _ _ _ _ _ => some .f
  | .qwiden _ _ _ _ _ _ _ _ => some .f
  | .qscale _ _ _ _ => some .f
  | .dp4s8 _ _ _ => some .a
  | .dp4n8 _ _ _ => some .a
  | .dp4sn8 _ _ _ => some .a
  | .dp8s4 _ _ _ => some .a
  | .dp2bf _ _ _ => some .a
  | .dp2h _ _ _ => some .a
  | .dp4e4 _ _ _ => some .a
  | .dp4e5 _ _ _ => some .a
  | .dp4t5 _ _ _ => some .a
  | .t5pack _ _ => some .a
  | .t5unpk _ _ => some .a
  | .t5enc _ _ => some .a
  | .t5dec _ _ => some .a
  | .t5chk _ _ => some .a
  | .tern _ _ _ => some .a
  | .tcnt _ _ => some .a
  | .shfli _ _ _ => some .a
  | .shflu _ _ _ => some .a
  | .shfld _ _ _ => some .a
  | .shflx _ _ _ => some .a
  | .redadd _ _ => some .a
  | .redmin _ _ => some .a
  | .redmax _ _ => some .a
  | .redfadd _ _ => some .a
  | .scanadd _ _ => some .a
  | .scanfadd _ _ => some .a
  | .cats _ _ _ => some .a
  | .elect _ _ => some .a
  | .rng _ _ _ => some .f
  | .rngf _ _ _ => some .f
  | .bra _ => some .b
  | .bru _ _ _ => some .b
  | .brx _ _ _ => some .b
  | .jmpv _ => some .b
  | .callv _ _ => some .b
  | .ret _ => some .b
  | .bar _ _ _ _ => some .b
  | .arrive _ _ _ => some .b
  | .waitb _ _ _ => some .b
  | .gbar _ _ _ => some .b
  | .fenceAcq _ => some .m
  | .fenceRel _ => some .m
  | .fenceAr _ => some .m
  | .phase _ => some .m
  | .xfence _ _ => some .m
  | .redflush => some .m
  | .exit _ => some .b
  | .ldg _ _ _ _ _ _ => some .m
  | .ldgi _ _ _ _ _ => some .m
  | .stg _ _ _ _ _ => some .m
  | .lds _ _ _ _ _ => some .m
  | .ldsWfull _ _ _ _ _ => some .m
  | .ldsWfullEmpty _ _ _ _ _ => some .m
  | .ldsTag _ _ _ _ => some .m
  | .sts _ _ _ _ => some .m
  | .stsWefull _ _ _ _ => some .m
  | .stsSfull _ _ _ _ => some .m
  | .stsSempty _ _ _ => some .m
  | .ldp _ _ _ _ _ => some .m
  | .stp _ _ _ _ => some .m
  | .ldk _ _ _ _ _ => some .m
  | .atomAdd _ _ _ _ _ _ _ => some .m
  | .atomAnd _ _ _ _ _ _ _ => some .m
  | .atomOr _ _ _ _ _ _ _ => some .m
  | .atomXor _ _ _ _ _ _ _ => some .m
  | .atomMins _ _ _ _ _ _ _ => some .m
  | .atomMaxs _ _ _ _ _ _ _ => some .m
  | .atomMinn _ _ _ _ _ _ _ => some .m
  | .atomMaxn _ _ _ _ _ _ _ => some .m
  | .atomExch _ _ _ _ _ _ _ => some .m
  | .atomFadd _ _ _ _ _ _ => some .m
  | .atomBfadd2 _ _ _ _ _ _ => some .m
  | .atomMaxa _ _ _ _ _ _ => some .m
  | .atomCas _ _ _ _ _ _ _ _ _ => some .m
  | .redAdd _ _ _ _ => some .m
  | .redAnd _ _ _ _ => some .m
  | .redOr _ _ _ _ => some .m
  | .redXor _ _ _ _ => some .m
  | .redMins _ _ _ _ => some .m
  | .redMaxs _ _ _ _ => some .m
  | .redMinn _ _ _ _ => some .m
  | .redMaxn _ _ _ _ => some .m
  | .redFadd _ _ _ => some .m
  | .redBfadd2 _ _ _ => some .m
  | .redMaxa _ _ _ => some .m
  | .tcopyTile _ _ _ _ _ _ => some .e
  | .tcopyStore _ _ _ _ _ _ => some .e
  | .tcopyWin _ _ _ _ _ _ => some .e
  | .tcopyGather _ _ _ _ _ _ _ => some .e
  | .tcopyPf _ _ _ _ _ => some .e
  | .tidset _ _ _ => some .e
  | .tidinv _ => some .e
  | .tidq _ _ _ => some .e
  | .qpush _ _ => some .e
  | .qpop _ _ _ => some .e
  | .qtry _ _ _ => some .e
  | .qcnt _ _ => some .e
  | .ares _ => some .e
  | .arel => some .e
  | .tunLdw _ _ _ _ _ => some .e
  | .tunMm _ _ _ _ _ _ _ _ => some .e
  | .tunGmm _ _ _ _ _ _ _ _ _ => some .e
  | .tunDrn _ _ _ _ _ _ => some .e
  | .tunZero _ _ _ => some .e
  | .tunBdiag _ _ _ _ _ _ _ => some .e
  | .trace _ _ _ _ _ => some .e
  | .tracev _ _ _ _ _ => some .e
  | .tracerc _ _ _ _ _ => some .e
  | .ltwalk _ _ _ => some .e
  | .rsvUpd _ _ _ => some .a
  | .rsvMrg _ _ _ => some .a
  | .rsvNrm _ _ => some .a
  | .rsvClr _ => some .a
  | .rsvLd _ _ _ _ => some .m
  | .rsvSt _ _ _ => some .m
  | .smp _ _ _ _ _ _ _ _ => some .e
  | .sparge _ _ _ => some .e
  | .grist _ _ _ => some .e
  | .coll _ _ _ _ _ => some .e
  | .launch _ _ _ => some .e
  | .ordenter _ => some .b
  | .ordleave => some .b
  | .instructionFetch _ _ => none
  | .blockPark _ => none
  | .spinPark _ => none
  | .parkTimeoutWake _ _ => none
  | .parkLimit _ _ => none
  | .lookaheadResult _ _ => none
  | .groupRetire _ => none
  | .icinvDone _ => none
  | .tlbinvDone _ => none
  | .tidsetDone _ => none
  | .xfenceDone _ => none
  | .phaseDone _ => none
  | .fenceAcqDone _ => none
  | .redflushDone _ => none
  | .sleepEnd _ => none
  | .storeRequestSend _ _ => none
  | .sliceApply _ _ _ => none
  | .sliceRead _ _ _ => none
  | .writeAck _ _ => none
  | .spontaneousPublish _ _ _ => none
  | .viewRenewal _ => none
  | .reductionDrain _ _ _ => none
  | .stagingSpill _ => none
  | .ticketBatchApply _ _ => none
  | .hostAtomicCompletion _ _ => none
  | .copyStart _ => none
  | .copyComplete _ _ => none
  | .rayRequest _ _ => none
  | .lightWalk _ => none
  | .tunCommandStart _ _ => none
  | .tunCommandComplete _ _ => none
  | .tunTagWaitLimit _ _ => none
  | .arrayRelease _ => none
  | .arrayClear _ => none
  | .arrayHoldExpire _ => none
  | .tunEccError _ _ _ => none
  | .trapEntry _ => none
  | .fatalTrap _ => none
  | .haltRequest _ => none
  | .contextSaveDone _ => none
  | .teamResume _ _ => none
  | .registerEccError _ _ _ _ => none
  | .registerScrub _ _ => none
  | .packetPromotion _ _ => none
  | .linkCrcReplay _ _ => none
  | .linkRetrain _ => none
  | .linkRetrainDone _ _ => none
  | .reqseqNotify _ => none
  | .executionStart _ => none
  | .teamPlace _ => none
  | .coreSplitChange _ => none
  | .launchReqseqAdd _ => none
  | .pageWalk _ _ _ => none
  | .rsctlEnable _ => none
  | .reservoirFillDone => none
  | .rsctlDisable _ => none
  | .reservoirWritebackDone => none
  | .spargeStart _ => none
  | .spargeComplete _ => none
  | .gristStart _ => none
  | .gristComplete _ => none
  | .rasterBinning _ => none
  | .fragmentGroupStart _ => none
  | .ordTimeout _ => none
  | .headEnable _ _ _ => none
  | .headDisable _ _ _ => none
  | .headLinkTrained _ _ => none
  | .displayLinkLoss _ _ => none
  | .scanoutLine _ _ => none
  | .head2FrameRelease _ => none
  | .kilnEnable _ _ => none
  | .kilnDisable _ _ => none
  | .kprogWrite _ _ => none
  | .kilnLatch _ => none
  | .programValidated _ => none
  | .bandStart _ => none
  | .bandNetworkDone _ => none
  | .networkDeadline _ => none
  | .reprojectionDone _ => none
  | .repeatDone _ => none
  | .bandUnderrun _ => none
  | .motionBlockDone _ => none
  | .dieCoreFence _ => none
  | .dieFullFence _ => none
  | .diectlCoreFence _ => none
  | .diectlCoreReset _ => none
  | .diectlUncoreReset _ => none
  | .coreResetDone _ => none
  | .uncoreResetDone _ => none
  | .selfTest _ _ => none
  | .gbarTimeout _ _ => none
  | .fabricLinkUp _ => none
  | .fabricLinkDown _ => none
  | .commWrite _ _ => none
  | .collContribution _ _ _ _ _ _ _ _ => none
  | .collOperationComplete _ => none
  | .collTimeout _ => none
  | .hostRead _ _ _ => none
  | .hostWrite _ _ _ _ => none
  | .hostAtomicop _ _ _ _ _ _ => none
  | .hostLinkDown _ => none
  | .semRead _ _ => none
  | .semRelease _ _ _ => none
  | .evctlEnable _ _ => none
  | .msixInterrupt _ => none
  | .flashErase _ => none
  | .flashProgram _ => none
  | .flashRead _ => none
  | .flashCommandDone _ => none
  | .getcert _ _ => none
  | .attest _ _ => none
  | .extend _ _ => none
  | .mailboxUnknown _ _ => none
  | .mailboxDone _ => none
  | .packageReset _ _ => none
  | .pkgrst _ => none
  | .dieCFatal => none
  | .thermalSample _ _ => none
  | .powerSample _ => none
  | .throttleStep _ => none
  | .counterClear _ _ => none
  | .registerWrite _ _ => none
  | .hostLinkUp _ => none
  | .dispctlWrite _ => none
  | .linkctlWrite _ _ => none

/-- The register bases that R35 and the instruction chapters constrain: each entry is a register field and the number of
registers its group holds, of which the base must be a multiple. -/
def Instr.bases : Instr → List (Reg × Nat)
  | .nop => []
  | .trap _ => []
  | .eret => []
  | .halt _ => []
  | .csrr _ _ => []
  | .csrw _ _ => []
  | .segld a _ => [(a, 4)]
  | .tlbinv a _ => [(a, 2)]
  | .tlbinvAll => []
  | .icinv a _ => [(a, 2)]
  | .isync => []
  | .sleep _ => []
  | .yield => []
  | .flagrd _ => []
  | .flagclr _ => []
  | .clock d => [(d, 2)]
  | .add _ _ _ => []
  | .sub _ _ _ => []
  | .mul _ _ _ => []
  | .mulhs _ _ _ => []
  | .mulhn _ _ _ => []
  | .mins _ _ _ => []
  | .maxs _ _ _ => []
  | .minn _ _ _ => []
  | .maxn _ _ _ => []
  | .and _ _ _ => []
  | .or _ _ _ => []
  | .xor _ _ _ => []
  | .andn _ _ _ => []
  | .shl _ _ _ => []
  | .shrn _ _ _ => []
  | .shrs _ _ _ => []
  | .addS _ _ _ => []
  | .subS _ _ _ => []
  | .mulS _ _ _ => []
  | .mulhsS _ _ _ => []
  | .mulhnS _ _ _ => []
  | .minsS _ _ _ => []
  | .maxsS _ _ _ => []
  | .minnS _ _ _ => []
  | .maxnS _ _ _ => []
  | .andS _ _ _ => []
  | .orS _ _ _ => []
  | .xorS _ _ _ => []
  | .andnS _ _ _ => []
  | .shlS _ _ _ => []
  | .shrnS _ _ _ => []
  | .shrsS _ _ _ => []
  | .rot _ _ _ => []
  | .absd _ _ _ => []
  | .mac _ _ _ => []
  | .add64 d a b => [(d, 2), (a, 2), (b, 2)]
  | .sub64 d a b => [(d, 2), (a, 2), (b, 2)]
  | .bfen _ _ _ => []
  | .bfes _ _ _ => []
  | .bfi _ _ _ => []
  | .popc _ _ => []
  | .clz _ _ => []
  | .brev _ _ => []
  | .bsel _ _ _ => []
  | .lea0 d a _ => [(d, 2), (a, 2)]
  | .lea1 d a _ => [(d, 2), (a, 2)]
  | .lea2 d a _ => [(d, 2), (a, 2)]
  | .lea3 d a _ => [(d, 2), (a, 2)]
  | .rotS _ _ _ => []
  | .absdS _ _ _ => []
  | .macS _ _ _ => []
  | .add64S d a b => [(d, 2), (a, 2), (b, 2)]
  | .sub64S d a b => [(d, 2), (a, 2), (b, 2)]
  | .bfenS _ _ _ => []
  | .bfesS _ _ _ => []
  | .bfiS _ _ _ => []
  | .popcS _ _ => []
  | .clzS _ _ => []
  | .brevS _ _ => []
  | .bselS _ _ _ => []
  | .lea0S d a _ => [(d, 2), (a, 2)]
  | .lea1S d a _ => [(d, 2), (a, 2)]
  | .lea2S d a _ => [(d, 2), (a, 2)]
  | .lea3S d a _ => [(d, 2), (a, 2)]
  | .icmpEq _ _ _ => []
  | .icmpNe _ _ _ => []
  | .icmpLts _ _ _ => []
  | .icmpLes _ _ _ => []
  | .icmpGts _ _ _ => []
  | .icmpGes _ _ _ => []
  | .icmpLtn _ _ _ => []
  | .icmpLen _ _ _ => []
  | .icmpGtn _ _ _ => []
  | .icmpGen _ _ _ => []
  | .icmpTst _ _ _ => []
  | .icmpNtst _ _ _ => []
  | .icmpEqS _ _ _ => []
  | .icmpNeS _ _ _ => []
  | .icmpLtsS _ _ _ => []
  | .icmpLesS _ _ _ => []
  | .icmpGtsS _ _ _ => []
  | .icmpGesS _ _ _ => []
  | .icmpLtnS _ _ _ => []
  | .icmpLenS _ _ _ => []
  | .icmpGtnS _ _ _ => []
  | .icmpGenS _ _ _ => []
  | .icmpTstS _ _ _ => []
  | .icmpNtstS _ _ _ => []
  | .fadd _ _ _ => []
  | .fsub _ _ _ => []
  | .fmul _ _ _ => []
  | .fmac _ _ _ => []
  | .fmsc _ _ _ => []
  | .fmin _ _ _ => []
  | .fmax _ _ _ => []
  | .fminn _ _ _ => []
  | .fmaxn _ _ _ => []
  | .fcps _ _ _ => []
  | .fscl _ _ _ => []
  | .faddS _ _ _ => []
  | .fsubS _ _ _ => []
  | .fmulS _ _ _ => []
  | .fmacS _ _ _ => []
  | .fmscS _ _ _ => []
  | .fminS _ _ _ => []
  | .fmaxS _ _ _ => []
  | .fminnS _ _ _ => []
  | .fmaxnS _ _ _ => []
  | .fcpsS _ _ _ => []
  | .fsclS _ _ _ => []
  | .fcmpEq _ _ _ => []
  | .fcmpNe _ _ _ => []
  | .fcmpLt _ _ _ => []
  | .fcmpLe _ _ _ => []
  | .fcmpGt _ _ _ => []
  | .fcmpGe _ _ _ => []
  | .fcmpUn _ _ _ => []
  | .fcmpOr _ _ _ => []
  | .fcmpEqS _ _ _ => []
  | .fcmpNeS _ _ _ => []
  | .fcmpLtS _ _ _ => []
  | .fcmpLeS _ _ _ => []
  | .fcmpGtS _ _ _ => []
  | .fcmpGeS _ _ _ => []
  | .fcmpUnS _ _ _ => []
  | .fcmpOrS _ _ _ => []
  | .hadd _ _ _ => []
  | .hsub _ _ _ => []
  | .hmul _ _ _ => []
  | .hmac _ _ _ => []
  | .hmin _ _ _ => []
  | .hmax _ _ _ => []
  | .badd _ _ _ => []
  | .bsub _ _ _ => []
  | .bmul _ _ _ => []
  | .bmac _ _ _ => []
  | .bmin _ _ _ => []
  | .bmax _ _ _ => []
  | .haddS _ _ _ => []
  | .hsubS _ _ _ => []
  | .hmulS _ _ _ => []
  | .hmacS _ _ _ => []
  | .hminS _ _ _ => []
  | .hmaxS _ _ _ => []
  | .baddS _ _ _ => []
  | .bsubS _ _ _ => []
  | .bmulS _ _ _ => []
  | .bmacS _ _ _ => []
  | .bminS _ _ _ => []
  | .bmaxS _ _ _ => []
  | .sel _ _ _ _ => []
  | .selS _ _ _ _ => []
  | .pand _ _ _ => []
  | .por _ _ _ => []
  | .pxor _ _ _ => []
  | .pandn _ _ _ => []
  | .p2v _ _ => []
  | .v2p _ _ => []
  | .vany _ _ => []
  | .vall _ _ => []
  | .vbal d _ => [(d, 2)]
  | .vcnt _ _ => []
  | .addi _ _ _ => []
  | .andi _ _ _ => []
  | .ori _ _ _ => []
  | .xori _ _ _ => []
  | .shiShl _ _ _ => []
  | .shiShrn _ _ _ => []
  | .shiShrs _ _ _ => []
  | .shiRot _ _ _ => []
  | .movi _ _ => []
  | .lit _ _ _ => []
  | .sadd _ _ _ => []
  | .ssub _ _ _ => []
  | .smul _ _ _ => []
  | .sand _ _ _ => []
  | .sor _ _ _ => []
  | .sxor _ _ _ => []
  | .sshl _ _ _ => []
  | .sshrn _ _ _ => []
  | .sshrs _ _ _ => []
  | .smins _ _ _ => []
  | .smaxs _ _ _ => []
  | .sadd64 d a b => [(d, 2), (a, 2), (b, 2)]
  | .sseteq _ _ _ => []
  | .ssetne _ _ _ => []
  | .ssetlt _ _ _ => []
  | .ssetltn _ _ _ => []
  | .saddi _ _ _ => []
  | .bcast _ _ => []
  | .rdfirst _ _ => []
  | .rdlane _ _ _ => []
  | .wrlane _ _ _ => []
  | .rdlpc _ _ => []
  | .laneid _ => []
  | .rcp _ _ _ => []
  | .rsq _ _ _ => []
  | .sqrt _ _ _ => []
  | .ex2 _ _ _ => []
  | .lg2 _ _ _ => []
  | .sinpi _ _ _ => []
  | .cospi _ _ _ => []
  | .tanh _ _ _ => []
  | .cvtF32S32 _ _ _ _ => []
  | .cvtF32N32 _ _ _ _ => []
  | .cvtS32F32 _ _ _ _ => []
  | .cvtN32F32 _ _ _ _ => []
  | .cvtF16F32 _ _ _ _ => []
  | .cvtBf16F32 _ _ _ _ => []
  | .cvtF32F16 _ _ _ _ => []
  | .cvtF32Bf16 _ _ _ _ => []
  | .frint _ _ _ _ => []
  | .qcvt _ _ _ _ _ _ _ _ _ => []
  | .qwiden _ _ _ _ _ _ _ _ => []
  | .qscale _ _ a _ => [(a, 32)]
  | .dp4s8 _ _ _ => []
  | .dp4n8 _ _ _ => []
  | .dp4sn8 _ _ _ => []
  | .dp8s4 _ _ _ => []
  | .dp2bf _ _ _ => []
  | .dp2h _ _ _ => []
  | .dp4e4 _ _ _ => []
  | .dp4e5 _ _ _ => []
  | .dp4t5 _ _ _ => []
  | .t5pack _ _ => []
  | .t5unpk _ _ => []
  | .t5enc _ _ => []
  | .t5dec _ _ => []
  | .t5chk _ _ => []
  | .tern _ _ _ => []
  | .tcnt _ _ => []
  | .shfli _ _ _ => []
  | .shflu _ _ _ => []
  | .shfld _ _ _ => []
  | .shflx _ _ _ => []
  | .redadd _ _ => []
  | .redmin _ _ => []
  | .redmax _ _ => []
  | .redfadd _ _ => []
  | .scanadd _ _ => []
  | .scanfadd _ _ => []
  | .cats _ _ _ => []
  | .elect _ _ => []
  | .rng _ _ _ => []
  | .rngf _ _ _ => []
  | .bra _ => []
  | .bru _ _ _ => []
  | .brx _ _ _ => []
  | .jmpv _ => []
  | .callv _ _ => []
  | .ret _ => []
  | .bar _ _ _ _ => []
  | .arrive _ _ _ => []
  | .waitb _ _ _ => []
  | .gbar _ _ _ => []
  | .fenceAcq _ => []
  | .fenceRel _ => []
  | .fenceAr _ => []
  | .phase _ => []
  | .xfence _ _ => []
  | .redflush => []
  | .exit _ => []
  | .ldg _ d a sz _ _ => [(a, 2), (d, sz.regs)]
  | .ldgi _ d a sz _ => [(a, 2), (d, sz.regs)]
  | .stg d a sz _ _ => [(a, 2), (d, sz.regs)]
  | .lds _ d _ sz _ => [(d, sz.regs)]
  | .ldsWfull _ d _ sz _ => [(d, sz.regs)]
  | .ldsWfullEmpty _ d _ sz _ => [(d, sz.regs)]
  | .ldsTag _ _ _ _ => []
  | .sts d _ sz _ => [(d, sz.regs)]
  | .stsWefull d _ sz _ => [(d, sz.regs)]
  | .stsSfull d _ sz _ => [(d, sz.regs)]
  | .stsSempty _ _ _ => []
  | .ldp _ d _ sz _ => [(d, sz.regs)]
  | .stp d _ sz _ => [(d, sz.regs)]
  | .ldk _ d a sz _ => [(a, 2), (d, sz.regs)]
  | .atomAdd _ d a b _ s8 t => [(a, 2), (d, if t || s8 then 2 else 1), (b, if s8 then 2 else 1)]
  | .atomAnd _ d a b _ s8 t => [(a, 2), (d, if t || s8 then 2 else 1), (b, if s8 then 2 else 1)]
  | .atomOr _ d a b _ s8 t => [(a, 2), (d, if t || s8 then 2 else 1), (b, if s8 then 2 else 1)]
  | .atomXor _ d a b _ s8 t => [(a, 2), (d, if t || s8 then 2 else 1), (b, if s8 then 2 else 1)]
  | .atomMins _ d a b _ s8 t => [(a, 2), (d, if t || s8 then 2 else 1), (b, if s8 then 2 else 1)]
  | .atomMaxs _ d a b _ s8 t => [(a, 2), (d, if t || s8 then 2 else 1), (b, if s8 then 2 else 1)]
  | .atomMinn _ d a b _ s8 t => [(a, 2), (d, if t || s8 then 2 else 1), (b, if s8 then 2 else 1)]
  | .atomMaxn _ d a b _ s8 t => [(a, 2), (d, if t || s8 then 2 else 1), (b, if s8 then 2 else 1)]
  | .atomExch _ d a b _ s8 t => [(a, 2), (d, if t || s8 then 2 else 1), (b, if s8 then 2 else 1)]
  | .atomFadd _ d a _ _ t => [(a, 2), (d, if t then 2 else 1)]
  | .atomBfadd2 _ d a _ _ t => [(a, 2), (d, if t then 2 else 1)]
  | .atomMaxa _ d a _ _ t => [(a, 2), (d, if t then 2 else 1)]
  | .atomCas _ d a b _ _ s8 t cmp => [(a, 2), (d, if t || s8 then 2 else 1), (b, if s8 then 2 else 1), (cmp, if s8 then 2 else 1)]
  | .redAdd _ s8 a b => [(a, 2), (b, if s8 then 2 else 1)]
  | .redAnd _ s8 a b => [(a, 2), (b, if s8 then 2 else 1)]
  | .redOr _ s8 a b => [(a, 2), (b, if s8 then 2 else 1)]
  | .redXor _ s8 a b => [(a, 2), (b, if s8 then 2 else 1)]
  | .redMins _ s8 a b => [(a, 2), (b, if s8 then 2 else 1)]
  | .redMaxs _ s8 a b => [(a, 2), (b, if s8 then 2 else 1)]
  | .redMinn _ s8 a b => [(a, 2), (b, if s8 then 2 else 1)]
  | .redMaxn _ s8 a b => [(a, 2), (b, if s8 then 2 else 1)]
  | .redFadd _ a _ => [(a, 2)]
  | .redBfadd2 _ a _ => [(a, 2)]
  | .redMaxa _ a _ => [(a, 2)]
  | .tcopyTile _ _ _ _ _ _ => []
  | .tcopyStore _ _ _ _ _ _ => []
  | .tcopyWin _ _ _ _ _ _ => []
  | .tcopyGather _ _ _ _ _ _ _ => []
  | .tcopyPf _ _ _ _ _ => []
  | .tidset s a _ => [(a, if s then 1 else 2)]
  | .tidinv _ => []
  | .tidq _ _ _ => []
  | .qpush _ a => [(a, 8)]
  | .qpop d _ _ => [(d, 8)]
  | .qtry d _ _ => [(d, 8)]
  | .qcnt _ _ => []
  | .ares _ => []
  | .arel => []
  | .tunLdw _ _ _ _ _ => []
  | .tunMm _ _ _ _ _ _ _ _ => []
  | .tunGmm _ _ _ _ _ _ _ _ _ => []
  | .tunDrn _ _ _ _ _ _ => []
  | .tunZero _ _ _ => []
  | .tunBdiag _ _ _ _ _ _ _ => []
  | .trace _ a _ _ _ => [(a, 8)]
  | .tracev _ a _ _ _ => [(a, 8)]
  | .tracerc _ a _ _ _ => [(a, 8)]
  | .ltwalk _ a _ => [(a, 8)]
  | .rsvUpd d a _ => [(d, 8), (a, 8)]
  | .rsvMrg d a _ => [(d, 8), (a, 8)]
  | .rsvNrm d _ => [(d, 8)]
  | .rsvClr d => [(d, 8)]
  | .rsvLd _ d a _ => [(d, 8), (a, 2)]
  | .rsvSt d a _ => [(d, 8), (a, 2)]
  | .smp _ d a _ _ _ grad _ => [(d, 4), (a, if grad then 8 else 4)]
  | .sparge _ _ _ => []
  | .grist _ _ _ => []
  | .coll _ _ _ _ _ => []
  | .launch _ _ _ => []
  | .ordenter _ => []
  | .ordleave => []
  | .instructionFetch _ _ => []
  | .blockPark _ => []
  | .spinPark _ => []
  | .parkTimeoutWake _ _ => []
  | .parkLimit _ _ => []
  | .lookaheadResult _ _ => []
  | .groupRetire _ => []
  | .icinvDone _ => []
  | .tlbinvDone _ => []
  | .tidsetDone _ => []
  | .xfenceDone _ => []
  | .phaseDone _ => []
  | .fenceAcqDone _ => []
  | .redflushDone _ => []
  | .sleepEnd _ => []
  | .storeRequestSend _ _ => []
  | .sliceApply _ _ _ => []
  | .sliceRead _ _ _ => []
  | .writeAck _ _ => []
  | .spontaneousPublish _ _ _ => []
  | .viewRenewal _ => []
  | .reductionDrain _ _ _ => []
  | .stagingSpill _ => []
  | .ticketBatchApply _ _ => []
  | .hostAtomicCompletion _ _ => []
  | .copyStart _ => []
  | .copyComplete _ _ => []
  | .rayRequest _ _ => []
  | .lightWalk _ => []
  | .tunCommandStart _ _ => []
  | .tunCommandComplete _ _ => []
  | .tunTagWaitLimit _ _ => []
  | .arrayRelease _ => []
  | .arrayClear _ => []
  | .arrayHoldExpire _ => []
  | .tunEccError _ _ _ => []
  | .trapEntry _ => []
  | .fatalTrap _ => []
  | .haltRequest _ => []
  | .contextSaveDone _ => []
  | .teamResume _ _ => []
  | .registerEccError _ _ _ _ => []
  | .registerScrub _ _ => []
  | .packetPromotion _ _ => []
  | .linkCrcReplay _ _ => []
  | .linkRetrain _ => []
  | .linkRetrainDone _ _ => []
  | .reqseqNotify _ => []
  | .executionStart _ => []
  | .teamPlace _ => []
  | .coreSplitChange _ => []
  | .launchReqseqAdd _ => []
  | .pageWalk _ _ _ => []
  | .rsctlEnable _ => []
  | .reservoirFillDone => []
  | .rsctlDisable _ => []
  | .reservoirWritebackDone => []
  | .spargeStart _ => []
  | .spargeComplete _ => []
  | .gristStart _ => []
  | .gristComplete _ => []
  | .rasterBinning _ => []
  | .fragmentGroupStart _ => []
  | .ordTimeout _ => []
  | .headEnable _ _ _ => []
  | .headDisable _ _ _ => []
  | .headLinkTrained _ _ => []
  | .displayLinkLoss _ _ => []
  | .scanoutLine _ _ => []
  | .head2FrameRelease _ => []
  | .kilnEnable _ _ => []
  | .kilnDisable _ _ => []
  | .kprogWrite _ _ => []
  | .kilnLatch _ => []
  | .programValidated _ => []
  | .bandStart _ => []
  | .bandNetworkDone _ => []
  | .networkDeadline _ => []
  | .reprojectionDone _ => []
  | .repeatDone _ => []
  | .bandUnderrun _ => []
  | .motionBlockDone _ => []
  | .dieCoreFence _ => []
  | .dieFullFence _ => []
  | .diectlCoreFence _ => []
  | .diectlCoreReset _ => []
  | .diectlUncoreReset _ => []
  | .coreResetDone _ => []
  | .uncoreResetDone _ => []
  | .selfTest _ _ => []
  | .gbarTimeout _ _ => []
  | .fabricLinkUp _ => []
  | .fabricLinkDown _ => []
  | .commWrite _ _ => []
  | .collContribution _ _ _ _ _ _ _ _ => []
  | .collOperationComplete _ => []
  | .collTimeout _ => []
  | .hostRead _ _ _ => []
  | .hostWrite _ _ _ _ => []
  | .hostAtomicop _ _ _ _ _ _ => []
  | .hostLinkDown _ => []
  | .semRead _ _ => []
  | .semRelease _ _ _ => []
  | .evctlEnable _ _ => []
  | .msixInterrupt _ => []
  | .flashErase _ => []
  | .flashProgram _ => []
  | .flashRead _ => []
  | .flashCommandDone _ => []
  | .getcert _ _ => []
  | .attest _ _ => []
  | .extend _ _ => []
  | .mailboxUnknown _ _ => []
  | .mailboxDone _ => []
  | .packageReset _ _ => []
  | .pkgrst _ => []
  | .dieCFatal => []
  | .thermalSample _ _ => []
  | .powerSample _ => []
  | .throttleStep _ => []
  | .counterClear _ _ => []
  | .registerWrite _ _ => []
  | .hostLinkUp _ => []
  | .dispctlWrite _ => []
  | .linkctlWrite _ _ => []

/-- The limits on field values that are not limits of a single field: R39 and R162 (tagged sizes), R52 (TUN rows), R113
(QCVT positions, draw and formats), R245 (SMP ratio), R282 (the sequence word of an 8-byte ATOM), R429 (COLL). -/
def Instr.fieldsFit : Instr → Bool
  | .nop => true
  | .trap _ => true
  | .eret => true
  | .halt _ => true
  | .csrr _ _ => true
  | .csrw _ _ => true
  | .segld _ k => k != 3
  | .tlbinv _ _ => true
  | .tlbinvAll => true
  | .icinv _ _ => true
  | .isync => true
  | .sleep _ => true
  | .yield => true
  | .flagrd _ => true
  | .flagclr _ => true
  | .clock _ => true
  | .add _ _ _ => true
  | .sub _ _ _ => true
  | .mul _ _ _ => true
  | .mulhs _ _ _ => true
  | .mulhn _ _ _ => true
  | .mins _ _ _ => true
  | .maxs _ _ _ => true
  | .minn _ _ _ => true
  | .maxn _ _ _ => true
  | .and _ _ _ => true
  | .or _ _ _ => true
  | .xor _ _ _ => true
  | .andn _ _ _ => true
  | .shl _ _ _ => true
  | .shrn _ _ _ => true
  | .shrs _ _ _ => true
  | .addS _ _ _ => true
  | .subS _ _ _ => true
  | .mulS _ _ _ => true
  | .mulhsS _ _ _ => true
  | .mulhnS _ _ _ => true
  | .minsS _ _ _ => true
  | .maxsS _ _ _ => true
  | .minnS _ _ _ => true
  | .maxnS _ _ _ => true
  | .andS _ _ _ => true
  | .orS _ _ _ => true
  | .xorS _ _ _ => true
  | .andnS _ _ _ => true
  | .shlS _ _ _ => true
  | .shrnS _ _ _ => true
  | .shrsS _ _ _ => true
  | .rot _ _ _ => true
  | .absd _ _ _ => true
  | .mac _ _ _ => true
  | .add64 _ _ _ => true
  | .sub64 _ _ _ => true
  | .bfen _ _ _ => true
  | .bfes _ _ _ => true
  | .bfi _ _ _ => true
  | .popc _ _ => true
  | .clz _ _ => true
  | .brev _ _ => true
  | .bsel _ _ _ => true
  | .lea0 _ _ _ => true
  | .lea1 _ _ _ => true
  | .lea2 _ _ _ => true
  | .lea3 _ _ _ => true
  | .rotS _ _ _ => true
  | .absdS _ _ _ => true
  | .macS _ _ _ => true
  | .add64S _ _ _ => true
  | .sub64S _ _ _ => true
  | .bfenS _ _ _ => true
  | .bfesS _ _ _ => true
  | .bfiS _ _ _ => true
  | .popcS _ _ => true
  | .clzS _ _ => true
  | .brevS _ _ => true
  | .bselS _ _ _ => true
  | .lea0S _ _ _ => true
  | .lea1S _ _ _ => true
  | .lea2S _ _ _ => true
  | .lea3S _ _ _ => true
  | .icmpEq _ _ _ => true
  | .icmpNe _ _ _ => true
  | .icmpLts _ _ _ => true
  | .icmpLes _ _ _ => true
  | .icmpGts _ _ _ => true
  | .icmpGes _ _ _ => true
  | .icmpLtn _ _ _ => true
  | .icmpLen _ _ _ => true
  | .icmpGtn _ _ _ => true
  | .icmpGen _ _ _ => true
  | .icmpTst _ _ _ => true
  | .icmpNtst _ _ _ => true
  | .icmpEqS _ _ _ => true
  | .icmpNeS _ _ _ => true
  | .icmpLtsS _ _ _ => true
  | .icmpLesS _ _ _ => true
  | .icmpGtsS _ _ _ => true
  | .icmpGesS _ _ _ => true
  | .icmpLtnS _ _ _ => true
  | .icmpLenS _ _ _ => true
  | .icmpGtnS _ _ _ => true
  | .icmpGenS _ _ _ => true
  | .icmpTstS _ _ _ => true
  | .icmpNtstS _ _ _ => true
  | .fadd _ _ _ => true
  | .fsub _ _ _ => true
  | .fmul _ _ _ => true
  | .fmac _ _ _ => true
  | .fmsc _ _ _ => true
  | .fmin _ _ _ => true
  | .fmax _ _ _ => true
  | .fminn _ _ _ => true
  | .fmaxn _ _ _ => true
  | .fcps _ _ _ => true
  | .fscl _ _ _ => true
  | .faddS _ _ _ => true
  | .fsubS _ _ _ => true
  | .fmulS _ _ _ => true
  | .fmacS _ _ _ => true
  | .fmscS _ _ _ => true
  | .fminS _ _ _ => true
  | .fmaxS _ _ _ => true
  | .fminnS _ _ _ => true
  | .fmaxnS _ _ _ => true
  | .fcpsS _ _ _ => true
  | .fsclS _ _ _ => true
  | .fcmpEq _ _ _ => true
  | .fcmpNe _ _ _ => true
  | .fcmpLt _ _ _ => true
  | .fcmpLe _ _ _ => true
  | .fcmpGt _ _ _ => true
  | .fcmpGe _ _ _ => true
  | .fcmpUn _ _ _ => true
  | .fcmpOr _ _ _ => true
  | .fcmpEqS _ _ _ => true
  | .fcmpNeS _ _ _ => true
  | .fcmpLtS _ _ _ => true
  | .fcmpLeS _ _ _ => true
  | .fcmpGtS _ _ _ => true
  | .fcmpGeS _ _ _ => true
  | .fcmpUnS _ _ _ => true
  | .fcmpOrS _ _ _ => true
  | .hadd _ _ _ => true
  | .hsub _ _ _ => true
  | .hmul _ _ _ => true
  | .hmac _ _ _ => true
  | .hmin _ _ _ => true
  | .hmax _ _ _ => true
  | .badd _ _ _ => true
  | .bsub _ _ _ => true
  | .bmul _ _ _ => true
  | .bmac _ _ _ => true
  | .bmin _ _ _ => true
  | .bmax _ _ _ => true
  | .haddS _ _ _ => true
  | .hsubS _ _ _ => true
  | .hmulS _ _ _ => true
  | .hmacS _ _ _ => true
  | .hminS _ _ _ => true
  | .hmaxS _ _ _ => true
  | .baddS _ _ _ => true
  | .bsubS _ _ _ => true
  | .bmulS _ _ _ => true
  | .bmacS _ _ _ => true
  | .bminS _ _ _ => true
  | .bmaxS _ _ _ => true
  | .sel _ _ _ _ => true
  | .selS _ _ _ _ => true
  | .pand _ _ _ => true
  | .por _ _ _ => true
  | .pxor _ _ _ => true
  | .pandn _ _ _ => true
  | .p2v _ _ => true
  | .v2p _ _ => true
  | .vany _ _ => true
  | .vall _ _ => true
  | .vbal _ _ => true
  | .vcnt _ _ => true
  | .addi _ _ _ => true
  | .andi _ _ _ => true
  | .ori _ _ _ => true
  | .xori _ _ _ => true
  | .shiShl _ _ _ => true
  | .shiShrn _ _ _ => true
  | .shiShrs _ _ _ => true
  | .shiRot _ _ _ => true
  | .movi _ _ => true
  | .lit _ _ _ => true
  | .sadd _ _ _ => true
  | .ssub _ _ _ => true
  | .smul _ _ _ => true
  | .sand _ _ _ => true
  | .sor _ _ _ => true
  | .sxor _ _ _ => true
  | .sshl _ _ _ => true
  | .sshrn _ _ _ => true
  | .sshrs _ _ _ => true
  | .smins _ _ _ => true
  | .smaxs _ _ _ => true
  | .sadd64 _ _ _ => true
  | .sseteq _ _ _ => true
  | .ssetne _ _ _ => true
  | .ssetlt _ _ _ => true
  | .ssetltn _ _ _ => true
  | .saddi _ _ _ => true
  | .bcast _ _ => true
  | .rdfirst _ _ => true
  | .rdlane _ _ _ => true
  | .wrlane _ _ _ => true
  | .rdlpc _ _ => true
  | .laneid _ => true
  | .rcp _ _ _ => true
  | .rsq _ _ _ => true
  | .sqrt _ _ _ => true
  | .ex2 _ _ _ => true
  | .lg2 _ _ _ => true
  | .sinpi _ _ _ => true
  | .cospi _ _ _ => true
  | .tanh _ _ _ => true
  | .cvtF32S32 _ _ _ _ => true
  | .cvtF32N32 _ _ _ _ => true
  | .cvtS32F32 _ _ _ _ => true
  | .cvtN32F32 _ _ _ _ => true
  | .cvtF16F32 _ _ _ _ => true
  | .cvtBf16F32 _ _ _ _ => true
  | .cvtF32F16 _ _ _ _ => true
  | .cvtF32Bf16 _ _ _ _ => true
  | .frint _ _ _ _ => true
  | .qcvt _ _ _ _ rnd _ fmt pos draw => fmt.posFits pos && (rnd == .sr || draw == 0)
  | .qwiden _ _ _ _ _ _ fmt pos => fmt.posFits pos
  | .qscale _ _ _ fmt => fmt != .e8m0
  | .dp4s8 _ _ _ => true
  | .dp4n8 _ _ _ => true
  | .dp4sn8 _ _ _ => true
  | .dp8s4 _ _ _ => true
  | .dp2bf _ _ _ => true
  | .dp2h _ _ _ => true
  | .dp4e4 _ _ _ => true
  | .dp4e5 _ _ _ => true
  | .dp4t5 _ _ _ => true
  | .t5pack _ _ => true
  | .t5unpk _ _ => true
  | .t5enc _ _ => true
  | .t5dec _ _ => true
  | .t5chk _ _ => true
  | .tern _ _ _ => true
  | .tcnt _ _ => true
  | .shfli _ _ _ => true
  | .shflu _ _ _ => true
  | .shfld _ _ _ => true
  | .shflx _ _ _ => true
  | .redadd _ _ => true
  | .redmin _ _ => true
  | .redmax _ _ => true
  | .redfadd _ _ => true
  | .scanadd _ _ => true
  | .scanfadd _ _ => true
  | .cats _ _ _ => true
  | .elect _ _ => true
  | .rng _ _ _ => true
  | .rngf _ _ _ => true
  | .bra _ => true
  | .bru _ _ _ => true
  | .brx _ _ _ => true
  | .jmpv _ => true
  | .callv _ _ => true
  | .ret _ => true
  | .bar _ _ _ _ => true
  | .arrive _ _ _ => true
  | .waitb _ _ _ => true
  | .gbar _ _ _ => true
  | .fenceAcq _ => true
  | .fenceRel _ => true
  | .fenceAr _ => true
  | .phase _ => true
  | .xfence _ _ => true
  | .redflush => true
  | .exit _ => true
  | .ldg _ _ _ _ _ _ => true
  | .ldgi _ _ _ _ _ => true
  | .stg _ _ _ _ _ => true
  | .lds _ _ _ _ _ => true
  | .ldsWfull _ _ _ sz _ => sz.tagged
  | .ldsWfullEmpty _ _ _ sz _ => sz.tagged
  | .ldsTag _ _ _ _ => true
  | .sts _ _ _ _ => true
  | .stsWefull _ _ sz _ => sz.tagged
  | .stsSfull _ _ sz _ => sz.tagged
  | .stsSempty _ sz _ => sz.tagged
  | .ldp _ _ _ _ _ => true
  | .stp _ _ _ _ => true
  | .ldk _ _ _ _ _ => true
  | .atomAdd _ d _ _ _ s8 t => !(t && s8 && d == 126)
  | .atomAnd _ d _ _ _ s8 t => !(t && s8 && d == 126)
  | .atomOr _ d _ _ _ s8 t => !(t && s8 && d == 126)
  | .atomXor _ d _ _ _ s8 t => !(t && s8 && d == 126)
  | .atomMins _ d _ _ _ s8 t => !(t && s8 && d == 126)
  | .atomMaxs _ d _ _ _ s8 t => !(t && s8 && d == 126)
  | .atomMinn _ d _ _ _ s8 t => !(t && s8 && d == 126)
  | .atomMaxn _ d _ _ _ s8 t => !(t && s8 && d == 126)
  | .atomExch _ d _ _ _ s8 t => !(t && s8 && d == 126)
  | .atomFadd _ _ _ _ _ _ => true
  | .atomBfadd2 _ _ _ _ _ _ => true
  | .atomMaxa _ _ _ _ _ _ => true
  | .atomCas _ d _ _ _ _ s8 t _ => !(t && s8 && d == 126)
  | .redAdd _ _ _ _ => true
  | .redAnd _ _ _ _ => true
  | .redOr _ _ _ _ => true
  | .redXor _ _ _ _ => true
  | .redMins _ _ _ _ => true
  | .redMaxs _ _ _ _ => true
  | .redMinn _ _ _ _ => true
  | .redMaxn _ _ _ _ => true
  | .redFadd _ _ _ => true
  | .redBfadd2 _ _ _ => true
  | .redMaxa _ _ _ => true
  | .tcopyTile _ _ _ _ _ _ => true
  | .tcopyStore _ _ _ _ _ _ => true
  | .tcopyWin _ _ _ _ _ _ => true
  | .tcopyGather _ _ _ _ _ _ _ => true
  | .tcopyPf _ _ _ _ _ => true
  | .tidset _ _ _ => true
  | .tidinv _ => true
  | .tidq _ _ _ => true
  | .qpush _ _ => true
  | .qpop _ _ _ => true
  | .qtry _ _ _ => true
  | .qcnt _ _ => true
  | .ares _ => true
  | .arel => true
  | .tunLdw _ _ _ _ _ => true
  | .tunMm _ _ _ _ m1 row _ _ => decide (row.toNat + m1.toNat + 1 ≤ 128)
  | .tunGmm _ _ _ _ m1 row _ _ _ => decide (row.toNat + m1.toNat + 1 ≤ 128)
  | .tunDrn _ _ _ m1 row _ => decide (row.toNat + m1.toNat + 1 ≤ 128)
  | .tunZero _ m1 row => decide (row.toNat + m1.toNat + 1 ≤ 128)
  | .tunBdiag _ _ _ _ m1 row _ => decide (row.toNat + m1.toNat + 1 ≤ 128)
  | .trace _ _ _ _ _ => true
  | .tracev _ _ _ _ _ => true
  | .tracerc _ _ _ _ _ => true
  | .ltwalk _ _ _ => true
  | .rsvUpd _ _ _ => true
  | .rsvMrg _ _ _ => true
  | .rsvNrm _ _ => true
  | .rsvClr _ => true
  | .rsvLd _ _ _ _ => true
  | .rsvSt _ _ _ => true
  | .smp _ _ _ _ filt aniso _ _ => filt == .aniso || aniso == .r1
  | .sparge _ _ _ => true
  | .grist _ _ _ => true
  | .coll _ _ _ kind fn => kind != .bcast || fn == .add
  | .launch _ _ _ => true
  | .ordenter _ => true
  | .ordleave => true
  | .instructionFetch _ _ => true
  | .blockPark _ => true
  | .spinPark _ => true
  | .parkTimeoutWake _ _ => true
  | .parkLimit _ _ => true
  | .lookaheadResult _ _ => true
  | .groupRetire _ => true
  | .icinvDone _ => true
  | .tlbinvDone _ => true
  | .tidsetDone _ => true
  | .xfenceDone _ => true
  | .phaseDone _ => true
  | .fenceAcqDone _ => true
  | .redflushDone _ => true
  | .sleepEnd _ => true
  | .storeRequestSend _ _ => true
  | .sliceApply _ _ _ => true
  | .sliceRead _ _ _ => true
  | .writeAck _ _ => true
  | .spontaneousPublish _ _ _ => true
  | .viewRenewal _ => true
  | .reductionDrain _ _ _ => true
  | .stagingSpill _ => true
  | .ticketBatchApply _ _ => true
  | .hostAtomicCompletion _ _ => true
  | .copyStart _ => true
  | .copyComplete _ _ => true
  | .rayRequest _ _ => true
  | .lightWalk _ => true
  | .tunCommandStart _ _ => true
  | .tunCommandComplete _ _ => true
  | .tunTagWaitLimit _ _ => true
  | .arrayRelease _ => true
  | .arrayClear _ => true
  | .arrayHoldExpire _ => true
  | .tunEccError _ _ _ => true
  | .trapEntry _ => true
  | .fatalTrap _ => true
  | .haltRequest _ => true
  | .contextSaveDone _ => true
  | .teamResume _ _ => true
  | .registerEccError _ _ _ _ => true
  | .registerScrub _ _ => true
  | .packetPromotion _ _ => true
  | .linkCrcReplay _ _ => true
  | .linkRetrain _ => true
  | .linkRetrainDone _ _ => true
  | .reqseqNotify _ => true
  | .executionStart _ => true
  | .teamPlace _ => true
  | .coreSplitChange _ => true
  | .launchReqseqAdd _ => true
  | .pageWalk _ _ _ => true
  | .rsctlEnable _ => true
  | .reservoirFillDone => true
  | .rsctlDisable _ => true
  | .reservoirWritebackDone => true
  | .spargeStart _ => true
  | .spargeComplete _ => true
  | .gristStart _ => true
  | .gristComplete _ => true
  | .rasterBinning _ => true
  | .fragmentGroupStart _ => true
  | .ordTimeout _ => true
  | .headEnable _ _ _ => true
  | .headDisable _ _ _ => true
  | .headLinkTrained _ _ => true
  | .displayLinkLoss _ _ => true
  | .scanoutLine _ _ => true
  | .head2FrameRelease _ => true
  | .kilnEnable _ _ => true
  | .kilnDisable _ _ => true
  | .kprogWrite _ _ => true
  | .kilnLatch _ => true
  | .programValidated _ => true
  | .bandStart _ => true
  | .bandNetworkDone _ => true
  | .networkDeadline _ => true
  | .reprojectionDone _ => true
  | .repeatDone _ => true
  | .bandUnderrun _ => true
  | .motionBlockDone _ => true
  | .dieCoreFence _ => true
  | .dieFullFence _ => true
  | .diectlCoreFence _ => true
  | .diectlCoreReset _ => true
  | .diectlUncoreReset _ => true
  | .coreResetDone _ => true
  | .uncoreResetDone _ => true
  | .selfTest _ _ => true
  | .gbarTimeout _ _ => true
  | .fabricLinkUp _ => true
  | .fabricLinkDown _ => true
  | .commWrite _ _ => true
  | .collContribution _ _ _ _ _ _ _ _ => true
  | .collOperationComplete _ => true
  | .collTimeout _ => true
  | .hostRead _ _ _ => true
  | .hostWrite _ _ _ _ => true
  | .hostAtomicop _ _ _ _ _ _ => true
  | .hostLinkDown _ => true
  | .semRead _ _ => true
  | .semRelease _ _ _ => true
  | .evctlEnable _ _ => true
  | .msixInterrupt _ => true
  | .flashErase _ => true
  | .flashProgram _ => true
  | .flashRead _ => true
  | .flashCommandDone _ => true
  | .getcert _ _ => true
  | .attest _ _ => true
  | .extend _ _ => true
  | .mailboxUnknown _ _ => true
  | .mailboxDone _ => true
  | .packageReset _ _ => true
  | .pkgrst _ => true
  | .dieCFatal => true
  | .thermalSample _ _ => true
  | .powerSample _ => true
  | .throttleStep _ => true
  | .counterClear _ _ => true
  | .registerWrite _ _ => true
  | .hostLinkUp _ => true
  | .dispctlWrite _ => true
  | .linkctlWrite _ _ => true

/-- A register group's base is a multiple of the group's size (R35). -/
def baseFits (b : Reg × Nat) : Bool := b.1.toNat % b.2 == 0

/-- What makes an instruction ill formed, if anything does (R47). -/
def Instr.flaw (i : Instr) : Option Reject :=
  if !i.bases.all baseFits then some .registerBase
  else if !i.fieldsFit then some .fieldsClash
  else none

/-- Well formed: R35's register bases and the field limits hold. -/
abbrev Instr.WellFormed (i : Instr) : Prop := i.flaw = none

end Sys2Proof
end

