-- ==== Sys2Proof/Machine/State.lean ====
section
/-!
DEFINITION.  The state of the machine, as plain data, and the state after reset.

A module holds compute dies A and B (numbered 0 and 1) and the collective die C, its host ports and its links.  Groups
run in teams on cores; every table below is a list of keys and entries.
-/

namespace Sys2Proof.Machine

/-- The states of a lane (R11). -/
inductive LaneState where
  | run | parked | barred | exited | absent
  deriving DecidableEq, Repr

/-- What a parked lane waits for (R19). -/
inductive WaitOn where
  /-- Nothing but the timeout and the last running lane. -/
  | nothing
  /-- A tag change on one of these scratchpad words. -/
  | tags (words : List Nat)
  /-- A push to, or a pop from, a queue. -/
  | queue (q : Nat)
  /-- A write of a token scalar. -/
  | token (s : Nat)
  /-- A spin: a write to one of these lines, or to a scalar or queue register of the group. -/
  | spin (lines : List Nat)
  /-- A release at a pixel of the team's tile (R370). -/
  | release (pixel : Nat)
  deriving DecidableEq, Repr

/-- The wait of a lane at a barrier (R166). -/
structure BarWait where
  /-- The barrier, 0–15 for a team barrier. -/
  bar : Nat
  /-- A package barrier (R423). -/
  pkg : Bool
  /-- The phase the lane waits on. -/
  phase : Word
  /-- The lpc of the BAR or WAITB. -/
  addr : Word
  /-- The lpc after its unit. -/
  next : Word
  /-- The predicate it writes. -/
  pred : Pred
  /-- The lane arrived by BAR; false for WAITB. -/
  arrives : Bool
  /-- The expected count that the BAR supplies, and its FLUSH bit (R165, R166). -/
  expect : Word
  flush : Bool
  deriving DecidableEq, Repr

/-- The control state of a lane (R9), with what the parking and spin rules keep for it. -/
structure Lane where
  /-- The lane program counter: PKT in bits 31:2, SLOT in bits 1:0 (R10). -/
  lpc : Word
  /-- The saved lpc of R263. -/
  slpc : Word
  st : LaneState
  /-- What a parked lane waits for. -/
  wait : WaitOn
  /-- The cycle in which the lane parked. -/
  parkedAt : Nat
  /-- Cycles spent in earlier parks with no instruction of effect between (R20). -/
  parkSum : Nat
  /-- The lane has executed only instructions without effect since it stood at this lpc (R18). -/
  clean : Word
  /-- The barrier a BARRED lane waits at. -/
  bar : BarWait
  /-- Its state in an ordered section: 0 unentered, 1 owning, 2 released (R370). -/
  ord : Nat
  /-- Its fragment: pixel 32 · py + px of the tile, rank there, and screen pixel (R368, R369). -/
  pixel : Nat
  rank : Nat
  screen : Word
  /-- Cycles it has owned its section, and since when it counts (R371). -/
  owned : Nat
  ownAt : Nat
  deriving DecidableEq, Repr

/-- The segment registers (R157). -/
structure Segs where
  cb : Dword
  cl : Dword
  gb : Dword
  gl : Dword
  sb : Word
  sl : Word
  pb : Dword
  pl : Word
  kb : Dword
  kl : Dword
  deriving DecidableEq, Repr

/-- The control and status registers a group holds for itself (R13, R251). -/
structure Csrs where
  /-- GSTATUS.ROLE: 0 producer, 1 consumer, 2 system. -/
  role : BitVec 2
  /-- GSTATUS.AUTOW. -/
  autow : Bool
  /-- GSTATUS.SPINP. -/
  spinp : Bool
  /-- GSTATUS.DIVV. -/
  divv : Bool
  /-- FLAGS (R78). -/
  flags : BitVec 4
  /-- TRAPCTL (R252): NV OF UF IX UNIF BRK from bit 0. -/
  trapctl : BitVec 6
  rngkey : Word
  /-- WSEQ (R281). -/
  wseq : Word
  tvec : Word
  /-- TSTATUS.SUP (R254). -/
  sup : Bool
  /-- TCAUSE: CODE 7:0, SLOT 9:8, DEFER 10, AFTER 11, MULTI 12. -/
  tcause : BitVec 13
  tval : Word
  tvalh : Word
  tlane : BitVec 11
  tfaddr : Word
  /-- HMASK: the lanes of HSET. -/
  hset : Lanes
  tscratch : Word
  efault : Word
  /-- EFAULT holds a fault that came since it was last written (R270). -/
  ekept : Bool
  prio : BitVec 5
  deriving DecidableEq, Repr

/-- What a trap records (R267). -/
structure Cause where
  code : Nat
  tval : Word
  tvalh : Word
  /-- The logical lane. -/
  lane : Nat
  /-- The lpc of the faulting word. -/
  faddr : Word
  slot : Nat
  after : Bool
  defer : Bool
  deriving DecidableEq, Repr

/-- A word bound for a register: a vector register's key (128 · lane + register), its value and its poison mark. -/
structure Dest where
  key : Nat
  val : Word
  poison : Bool
  deriving DecidableEq, Repr

/-- A pending lookahead result (R43), or a deferred fault (R44). -/
structure Look where
  /-- The words it will write. -/
  dests : List Dest
  /-- For each lane of the instruction, how many further instructions may still run before it is written. -/
  left : List (Nat × Nat)
  /-- The flags it sets when it is written. -/
  flags : BitVec 4
  /-- The fault it reports instead of a result. -/
  fault : Option Cause
  deriving DecidableEq, Repr

/-- Why a group's issue is held, other than by a blocked unit (R249).  A held unit has taken no effect; the event that
ends its wait makes its effect and leaves `passed`, and the unit, issued again, goes on (R273). -/
inductive Hold where
  | none
  /-- ICINV of a range of virtual addresses (R137). -/
  | icinv (lo hi : Nat)
  /-- TLBINV of a range, or of all (R259). -/
  | tlbinv (range : Option (Nat × Nat))
  /-- TIDSET: slot, and the virtual address or scratch offset of its source (R174). -/
  | tidset (slot : Nat) (scratch : Bool) (addr : Nat)
  /-- XFENCE: source and destination masks and scope (R193). -/
  | xfence (src dst : Nat) (sc : Scope)
  | phase (sc : Scope)
  | redflush
  | fenceAcq (sc : Scope)
  /-- An atomic to host memory has not come back (R295). -/
  | hostAtomic
  /-- The wait of a kind (see `Hold.kind`) is over for the unit at an address, with the fault it ended in. -/
  | passed (what : Nat) (addr : Word) (fault : Option Cause)
  deriving DecidableEq, Repr

/-- The agents whose writes and publications the memory model tells apart (R298, R299). -/
inductive Agent where
  /-- A group of a team on a compute die: its LANE path. -/
  | lane (team die group : Nat)
  /-- An engine command acting for a group. -/
  | engine (team die group : Nat)
  /-- A die engine of a compute die: its rasteriser, its display engine (R366, R375). -/
  | dieEngine (die : Nat)
  /-- An engine of die C. -/
  | dieC
  /-- A host port with the host behind it. -/
  | port (p : Nat)
  deriving DecidableEq, Repr

/-- Lower bounds in the version order of parts: which write a part may not be read before (R301, R455). -/
abbrev Floors := FMap Nat

/-- What a FENCE.rel gives later writes to carry, or a release its own (R305, R311): the scope it is published to, the
step it was made in, and the writes. -/
structure FenceSet where
  scope : Scope
  time : Nat
  set : Floors
  deriving DecidableEq, Repr

/-- One request of a group's store buffer, from issue to acknowledgement (R280). -/
structure Request where
  /-- The bytes it writes: physical key and value, in lane order. -/
  cells : List Host.Cell
  /-- Its scope when it is a release (R305). -/
  release : Option Scope
  /-- The sets that are published with it (R305, R311). -/
  cum : List FenceSet
  /-- The step in which it was issued. -/
  time : Nat
  /-- Part of it goes to an uncached host page (R315). -/
  uncached : Bool
  /-- It is an RSV.ST, of the RSVS path (R239). -/
  rsvs : Bool
  /-- The plane that it travels on (R319). -/
  plane : Nat
  /-- It has left the store buffer, and in which step. -/
  sent : Bool
  sentAt : Nat
  /-- Its acknowledgement has arrived: from the home slice once it is applied, from a host port once it is sent (R315). -/
  acked : Bool
  /-- The slice has applied it, its number, and in which step. -/
  applied : Option Word
  appliedAt : Nat
  /-- The scopes to which it is published as it is applied: a later release, PHASE or fence of its group has covered it while it was
  on its way to a host (R305, R310, R311). -/
  owes : List Scope
  deriving DecidableEq, Repr

/-- The functions of atomics and reductions (R284). -/
inductive AtomFn where
  | add | and | or | xor | mins | maxs | minn | maxn | exch | fadd | bfadd2 | maxa | cas
  deriving DecidableEq, Repr

/-- One reduction contribution, buffered in fast mode or staged in deterministic mode (R288, R289). -/
structure RedEntry where
  group : Nat
  fn : AtomFn
  /-- The physical key of its first byte. -/
  addr : Nat
  /-- 4 or 8. -/
  size : Nat
  val : Dword
  /-- A staged plain store of `size` bytes (det_stores) instead of a function. -/
  store : Bool
  epoch : Nat
  seq : Nat
  lane : Nat
  /-- A host page: it leaves as a FetchAdd (R295). -/
  host : Bool
  /-- An ordered reduction is a release (R305). -/
  release : Option Scope
  time : Nat
  /-- The execution that made it, by key. -/
  exec : Nat
  /-- The plane that it travels on (R319). -/
  plane : Nat
  /-- Where a staged entry lies that has been spilled: its key, and the writes its parts had had by then (R292). -/
  spill : Option (Nat × Nat)
  deriving DecidableEq, Repr

/-- An atomic on its way to host memory (R295). -/
structure HostOp where
  lane : Nat
  fn : AtomFn
  addr : Nat
  size : Nat
  val : Dword
  cmp : Dword
  /-- The key of its destination, and of its sequence word. -/
  dest : Nat
  seqDest : Option Nat
  /-- The step of its unit. -/
  time : Nat
  /-- The order of its write, and of a failing CAS (R285, R308). -/
  oss : Order
  osf : Order
  /-- What is published with its write (R305, R311). -/
  sets : List FenceSet
  /-- On a page without W, the PAGE_PERMISSION of a CAS that compares equal, and its HSET (R286). -/
  deny : Option (Cause × Lanes)
  deriving DecidableEq, Repr

/-- An entry of a queue register: eight words for each lane, and the lanes it holds (R188). -/
structure QEntry where
  mask : Lanes
  words : FMap Word
  poison : FMap Bool
  deriving DecidableEq, Repr

/-- The spin detector of a group (R18). -/
structure Spin where
  branch : Word
  target : Word
  lanes : Lanes
  count : Nat
  /-- The lines those lanes have read since the last backward branch. -/
  lines : List Nat
  /-- A wake event has come since then: the lanes do not stay parked (R19, R23). -/
  woken : Bool
  deriving DecidableEq, Repr

/-- A unit that waits (R17). -/
structure Blocked where
  addr : Word
  lanes : Lanes
  since : Nat
  /-- What each waiting lane waits on, by lane. -/
  waits : List (Nat × WaitOn)
  deriving DecidableEq, Repr

/-- How the read of an index-list entry ends (R179). -/
inductive ListEntry where
  | outside
  | entry (e : Nat)
  | fails (code : Nat)
  deriving DecidableEq, Repr

/-- A command of an engine, as read at its issue, with its progress (R172, R185, R203, R361, R372, R347, R429). -/
structure Cmd where
  id : Nat
  /-- The issuing group and team, by key. -/
  group : Nat
  team : Nat
  /-- The token scalar, 127 for none (R45). -/
  tok : Nat
  /-- MODE, OPC or kind and function of the operation. -/
  op : Nat
  /-- T5 of a TUN command, or EXP24 of a copy. -/
  t5 : Bool
  /-- ACCUM. -/
  acc : Bool
  /-- BANK of a TUN command, or XPOSE of a copy. -/
  bank : Nat
  row : Nat
  m : Nat
  /-- The descriptor of its slot, and of its second slot. -/
  desc : List Word
  desc2 : List Word
  /-- The scalars it read. -/
  args : List Word
  seg : Segs
  /-- Its address space. -/
  space : Nat
  /-- CORECTL.EXACT at issue. -/
  exact : Bool
  started : Bool
  /-- Rows, words or elements done. -/
  done : Nat
  /-- The lowest fault met so far: code and index. -/
  fault : Option (Nat × Nat)
  /-- The global parts it has written. -/
  writes : Floors
  /-- The version of each part that its reads must not precede (R193, R313), and the version it has read of a part (R194). -/
  floors : Floors
  pins : Floors
  /-- The scratchpad words that a store has read, each once, with their marks (R183). -/
  held : List (Nat × (Word × Bool))
  /-- The list entries that a gather has read, by row (R179). -/
  entries : List (Nat × ListEntry)
  /-- The parameter block of a drain, or the sequence value a launch waits for, as words with marks. -/
  block : List (Word × Bool)
  /-- The amax of a drain so far, and whether it has been sent. -/
  amax : Option Word
  sent : Bool
  /-- Cycles it has waited for tags (R205), and since when it waits. -/
  waited : Nat
  since : Nat
  deriving DecidableEq, Repr

/-- A request in flight in a ray unit or light-tree walker (R189, R227, R241). -/
structure RayReq where
  /-- q0, q2 or q4. -/
  queue : Nat
  /-- TRACERC. -/
  rc : Bool
  desc : List Word
  mask : Nat
  flags : Nat
  tag : Nat
  entry : QEntry
  seg : Segs
  exact : Bool
  /-- The version of each part that its fetches must not precede (R193, R233, R313). -/
  floors : Floors
  deriving DecidableEq, Repr

/-- The global writes of a completed engine command of a group, and the token that tells of them: 127 where none does
(R193). -/
structure Done where
  tok : Nat
  /-- The command. -/
  id : Nat
  /-- Its path class (R192). -/
  path : Nat
  writes : Floors
  deriving DecidableEq, Repr

/-- A group (R12). -/
structure Group where
  /-- The team it belongs to, and its index there. -/
  team : Nat
  index : Nat
  /-- Lanes: 8, 16, 32 or 64. -/
  width : Nat
  /-- The vector registers: key 128 · lane + register, unlisted words 0 (R9). -/
  v : FMap Word
  /-- Their poison marks (R271). -/
  vp : FMap Bool
  /-- The predicates p0–p6: key 8 · lane + predicate. -/
  p : FMap Bool
  /-- The scalar registers s0–s126 (R12). -/
  s : FMap Word
  /-- Their poison marks. -/
  sp : FMap Bool
  /-- Scalars that are pending tokens (R45). -/
  tok : FMap Bool
  lanes : List Lane
  csr : Csrs
  seg : Segs
  /-- The register budget (R155). -/
  budget : Nat
  /-- The queue registers, oldest entry first (R188). -/
  queues : FMap (List QEntry)
  /-- Requests of q0, q2 and q4 pushed and not yet popped (R189). -/
  owed : FMap Nat
  /-- Requests that the ray unit and the walker have not answered, oldest first. -/
  rays : List RayReq
  /-- Of a callable group: the units issued since each pop of q6 that is not yet answered, oldest first (R363). -/
  asked : List Nat
  /-- The instruction buffer: packet index and its three words (R136). -/
  ibuf : List (Nat × List Word)
  /-- The age stamp (R249). -/
  stamp : Nat
  /-- Partition and group slot (R24, R249). -/
  part : Nat
  slot : Nat
  /-- The first datapath lane (R24). -/
  offset : Nat
  /-- Cycle until which it sleeps (R140). -/
  sleepTo : Nat
  hold : Hold
  blocked : Option Blocked
  spin : Spin
  looks : List Look
  /-- The lower bounds of its view (R301): what it has read, and what its renewals have raised. -/
  low : Floors
  /-- Its own writes on the LANE path and on the RSVS path (R194, R239). -/
  lowLane : Floors
  lowRsvs : Floors
  /-- What its lanes and its RSV.LD must see of other paths without its being published to the group: by XFENCE, and the records of
  SPARGE commands whose tokens it has read (R193, R313, R365). -/
  toldLane : Floors
  toldRsvs : Floors
  /-- What renewals below system scope have raised of host memory that is not write-back (R315). -/
  lowThrough : Floors
  /-- What its XFENCEs have made certain for the accesses of path classes (R193): a destination mask and writes. -/
  fenced : List (BitVec 11 × Floors)
  /-- Sectors whose data for its next load was spoilt on the network (R327). -/
  spoilt : FMap Bool
  /-- FENCE.rel sets that later writes must carry (R311). -/
  fences : List FenceSet
  /-- Writes counted by XFENCE (R313): per scope, engine writes that count as the group's. -/
  counted : List (Scope × Floors)
  /-- The store buffer and the requests not yet acknowledged, oldest first. -/
  stores : List Request
  /-- Fast-mode reductions not yet acknowledged. -/
  redsOut : Nat
  /-- Atomics that wait for the host, and the step of the unit whose refusal EFAULT holds (R295). -/
  hostOps : List HostOp
  refusedAt : Option Nat
  /-- Staging counters (R289). -/
  epoch : Nat
  seq : Nat
  /-- Its lanes' EXITs: lane, index named, and the EXIT's lpc (R135). -/
  exits : List (Nat × Nat × Word)
  retired : Bool
  /-- Sums for the AUTO rule: active lanes and issues in user mode (R26). -/
  actSum : Nat
  issues : Nat
  /-- Engine commands of this group that have not completed. -/
  cmds : Nat
  /-- Completed commands whose tokens the group has not read, and those whose completion it knows of (R193). -/
  unread : List Done
  learnt : List Done
  /-- Traps raised and not yet entered, each with its HSET (R261). -/
  pend : List (Cause × Lanes)
  deriving DecidableEq, Repr

/-- A team barrier (R154). -/
structure Barrier where
  phase : Word
  count : Nat
  /-- The expected count of the phase's first arrival. -/
  expect : Option Word
  /-- Groups that have arrived in this phase, and whether some BAR.flush has (R168). -/
  came : List Nat
  flush : Bool
  deriving DecidableEq, Repr

/-- A fragment of a tile (R368). -/
structure Fragment where
  screen : Word
  /-- 32 · py + px. -/
  pixel : Nat
  val : Word
  s : Word
  q : Word
  rank : Nat
  deriving DecidableEq, Repr

/-- One weight bank of a Tun (R196): the weight of each cell, key 256 · n + k, from whose trits its planes follow. -/
structure Bank where
  cells : FMap Int
  t5 : Bool
  pm : BitVec 5
  /-- The cause it is poisoned with. -/
  poison : Option Nat
  deriving DecidableEq, Repr

/-- A Tun array (R196). -/
structure Tun where
  bank0 : Bank
  bank1 : Bank
  /-- Accumulators, key 256 · row + column. -/
  acc : FMap (BitVec 48)
  rowBad : FMap Bool
  /-- Commands not completed, in issue order. -/
  queue : List Cmd
  /-- The reserving team. -/
  owner : Option Nat
  /-- The team that gave its reservation up and whose commands still run. -/
  leaving : Option Nat
  /-- The request order (R198). -/
  order : List Nat
  /-- The array is held for the first team of the order until this cycle. -/
  heldTo : Option Nat
  /-- It must be cleared before its next grant; a clear is under way until this cycle. -/
  dirty : Bool
  clearTo : Option Nat
  deriving DecidableEq, Repr

/-- A slot of the tensor-identifier table: the 32 words of a valid descriptor (R171, R172). -/
abbrev TensorSlot := Option (List Word)

/-- A word that an engine command has written to the scratchpad and that lanes and engines may not see yet (R183, R194).
-/
structure Fog where
  /-- The command, its group and its path class. -/
  id : Nat
  group : Nat
  path : Nat
  word : Nat
  val : Word
  poison : Bool
  /-- The bytes it writes: none of an element that faulted (R184). -/
  mask : BitVec 4
  /-- The path classes of the group whose accesses observe it (R193). -/
  must : BitVec 11
  /-- It was written with its tag (R164, R182). -/
  tagged : Bool
  deriving DecidableEq, Repr

/-- An EXIT of a lane of a group that has retired: logical lane, index named, lpc, and group (R135). -/
structure Exited where
  lane : Nat
  index : Nat
  addr : Word
  group : Nat
  deriving DecidableEq, Repr

/-- A team (R154). -/
structure Team where
  /-- The execution it belongs to. -/
  exec : Nat
  /-- The core it resides on: its COREID. -/
  core : Nat
  /-- TEAMID. -/
  teamId : Word
  /-- Launched lanes (R153). -/
  lanes : Nat
  width : Nat
  groups : Nat
  /-- Scratchpad words, unlisted 0, with tags and poison marks (R162, R454). -/
  scratch : FMap Word
  tags : FMap Bool
  spoison : FMap Bool
  fogs : List Fog
  tensors : FMap TensorSlot
  bars : FMap Barrier
  /-- The age of its launch (R349). -/
  age : Nat
  /-- Stopped by a fatal trap or a fence. -/
  dead : Bool
  /-- Halted for pre-emption, or saved (R273). -/
  halted : Bool
  /-- Saved: it resides on no core; its block of the context area (R350). -/
  saved : Bool
  block : Option Nat
  /-- The Tun state it was saved with (R220). -/
  tun : Option Tun
  /-- A team of callable groups of a SPARGE command (R363). -/
  callable : Bool
  /-- The tile memory's scratch offset, for a team of a fragment execution (R366, R370). -/
  tmoff : Option Nat
  /-- REL and ABANDONED of its pixels. -/
  rel : FMap Nat
  left : FMap Bool
  /-- Its fragments, and the next batch to start (R369). -/
  frags : List Fragment
  batch : Nat
  /-- The EXITs of its retired groups. -/
  exits : List Exited
  /-- Its offset in the core's scratchpad part at its placement: what SEGSB holds at the start of its groups (R157). -/
  sb : Nat
  /-- EFAULT of the lowest GROUPID among the fragment groups that others have replaced (R270, R369). -/
  efault : Option (Nat × Word)
  /-- The global writes of those groups on the LANE and the RSVS path (R135). -/
  pastLane : Floors
  pastRsvs : Floors
  deriving DecidableEq, Repr

/-- One version of an 8-byte part: its contents after a write, the writer, when it was applied (R300, R455). -/
structure Version where
  val : Dword
  owner : Agent
  time : Nat
  /-- A write of a whole reservoir record, which is one part (R239, R455). -/
  whole : Bool
  /-- The sector stood marked poisoned before this write (R278). -/
  was : Bool
  deriving DecidableEq, Repr

/-- To whom a publication reaches (R300). -/
inductive Reach where
  | scope (sc : Scope)
  | agent (a : Agent)
  deriving DecidableEq, Repr

/-- A publication: the writes of a part up to a version, made by an agent, to those it reaches (R300, R455). -/
structure Pub where
  upTo : Nat
  owner : Agent
  reach : Reach
  deriving DecidableEq, Repr

/-- The history of an 8-byte part: what it held at first, and each later version. -/
structure Part where
  base : Dword
  versions : List Version
  pubs : List Pub
  deriving DecidableEq, Repr

/-- A cached translation (R354): address space, first virtual address, bytes mapped, and the leaf entry. -/
structure Cached where
  space : Nat
  va : Nat
  size : Nat
  leaf : Dword
  /-- Where the leaf lies. -/
  key : Nat
  deriving DecidableEq, Repr

/-- The unit a group is executing, or has last executed. -/
structure UnitCtx where
  /-- The group's key. -/
  g : Nat
  /-- The ACTIVE lanes. -/
  mask : Lanes
  /-- The lpc of the unit's first member, of the word of the current member, and after the unit. -/
  first : Word
  addr : Word
  next : Word
  /-- The first word of the current member. -/
  word : Word
  /-- The group as it stood before the unit: what the members read (R31). -/
  pre : Group
  /-- The lanes' lpc has been set by a member. -/
  moved : Bool
  /-- A member waits (R17). -/
  blocked : Bool
  /-- The group has entered a trap, or its team has been stopped. -/
  trapped : Bool
  /-- Causes that the unit raises after it completes (R261). -/
  after : List Cause
  /-- A member had an effect that ends a null iteration (R18). -/
  effect : Bool
  /-- The cause the unit has trapped with. -/
  why : Option Cause
  /-- LA of the member that trapped, and the further instructions that may run before the current member's fault is reported
  (R44). -/
  late : Nat
  grace : Nat
  deriving DecidableEq, Repr

/-- A fault record's contents (R343). -/
structure FaultRec where
  code : Nat
  tval : Word
  tvalh : Word
  lane : Word
  faddr : Word
  team : Word
  group : Word
  fatal : Bool
  deriving DecidableEq, Repr

/-- A package barrier of an execution (R423). -/
structure GBar where
  phase : Word
  expect : Option Word
  /-- Groups that have arrived, by key, and teams that have arrived. -/
  came : List Nat
  teams : List Nat
  /-- The die-A cycle of the first arrival, and the cycles waited before that die's count last began anew (R424). -/
  since : Option Nat
  waited : Nat
  deriving DecidableEq, Repr

/-- An execution of a launch slot (R341, R342). -/
structure Exec where
  slot : Nat
  /-- Its number k. -/
  num : Word
  /-- The 64 words of the slot record and the descriptors of TENSORS, as read when it started (R172, R340). -/
  record : List Word
  tensors : FMap TensorSlot
  /-- The group width, resolved (R26). -/
  width : Nat
  autow : Bool
  /-- TEAMIDs still to be placed on die A and die B, lowest first. -/
  pendA : List Nat
  pendB : List Nat
  /-- Its resident or saved teams, by their keys, and all that it ever had. -/
  teams : List Nat
  ran : List Nat
  /-- Teams that have completed, been handed off or been stopped. -/
  finished : Nat
  /-- The first fault recorded for this execution. -/
  fault : Option FaultRec
  /-- Fenced: its teams are to be stopped (R269). -/
  fenced : Bool
  /-- The age of the launch (R349), and the time it began (R161). -/
  age : Nat
  began : Nat
  /-- 8-byte parts that an LDGI of the launch has read (R161). -/
  inv : FMap Bool
  /-- The team index whose batches the ticket unit may apply (R291). -/
  ticket : Nat
  /-- Staged entries of the teams: team index and entry (R289). -/
  staged : List (Nat × RedEntry)
  /-- Closed batches not yet applied, in key order: team index, epoch, entry (R290, R291). -/
  batches : List (Nat × Nat × RedEntry)
  /-- A spill has failed: the code, and the team (R292). -/
  spillFault : Option (Nat × Nat)
  /-- Bytes of the staging area in use (R292). -/
  spilled : Nat
  /-- The successor executions that its teams have opened: slot and execution key (R346). -/
  heirs : List (Nat × Nat)
  /-- A successor execution, and the execution it came from. -/
  parent : Option Nat
  /-- Context blocks in use (R350). -/
  blocks : List Nat
  /-- Sums for the AUTO rule (R26). -/
  actSum : Nat
  issues : Nat
  /-- The die whose history table receives the fraction. -/
  home : Nat
  gbars : FMap GBar
  /-- A team was lost to a fence (R420). -/
  failed : Bool
  /-- The parameter record of a raster execution (R366), and the tiles of a fragment execution still to place. -/
  raster : Option (List Word)
  tiles : List (Nat × List Fragment)
  /-- Teams of the execution in all. -/
  total : Nat
  /-- It has faulted, for FCOUNT. -/
  counted : Bool
  /-- Its completion has been written. -/
  complete : Bool
  deriving DecidableEq, Repr

/-- A core (R149). -/
structure Core where
  /-- The pool split class, or none (R151). -/
  split : Option Nat
  /-- The class a draining core will take (R349). -/
  drain : Option Nat
  /-- CORECTL (R253). -/
  exact : Bool
  noco : Bool
  /-- Words the instruction cache holds, by physical key / 4 (R136, R137). -/
  icache : FMap Word
  /-- Reduction buffers, fast mode, all partitions: oldest first (R288). -/
  reds : List RedEntry
  /-- Commands of the copy engine (R185). -/
  copies : List Cmd
  tun : Tun
  /-- By partition, the groups that were chosen for an issue slot and have not issued (R249). -/
  slot : FMap (List Nat)
  deriving DecidableEq, Repr

/-- A head of a display engine (R377). -/
structure Head where
  hctl : Word
  htim0 : Word
  htim1 : Word
  hclk : Word
  hfb : Dword
  hpitch : Word
  /-- HSTAT. -/
  up : Bool
  badcfg : Bool
  faults : Nat
  /-- Link training has begun, and the link has not been lost since (R376). -/
  training : Bool
  /-- It runs, with the timing and control in force, and the frame and the line that starts next (R377, R378). -/
  running : Bool
  ctl : Word
  tim0 : Word
  tim1 : Word
  clk : Word
  fb : Dword
  pitch : Word
  frame : Nat
  line : Nat
  /-- The pixels of the last line sent. -/
  sent : List Word
  deriving DecidableEq, Repr

/-- What a band became (R397). -/
structure BandLog where
  path : Nat
  miss : Bool
  fault : Bool
  under : Bool
  kind : Nat
  deriving DecidableEq, Repr

/-- A source that has become current: its entry and the entry before it, motion vectors in half pixels with costs by block,
and the blocks done (R383, R384, R390). -/
structure Source where
  entry : List Word
  prev : Option (List Word)
  motion : FMap (Int × Int × Nat)
  blocks : Nat
  deriving DecidableEq, Repr

/-- A latched frame of Kiln (R384, R391, R392). -/
structure KFrame where
  /-- The bound head's frame number F. -/
  frame : Nat
  /-- KCTL in force. -/
  ctl : Word
  /-- The source, by key. -/
  src : Option Nat
  j : Nat
  late : Bool
  phi : Word
  latseq : Word
  /-- The program that its network runs, and whether it waits for a validation (R386). -/
  prog : Option (List Byte)
  waits : Bool
  /-- The next band that the network takes, and whether it works on it; the bands it has finished. -/
  next : Nat
  working : Bool
  done : List Nat
  /-- The band whose deadline comes next; the fallback under way: 0 none, 1 reprojection, 2 repeat; and its band. -/
  due : Nat
  fall : Nat
  fallBand : Nat
  log : FMap BandLog
  deriving DecidableEq, Repr

/-- The display engine of a die (R375 to R397). -/
structure Display where
  head0 : Head
  head1 : Head
  head2 : Head
  mbase : Dword
  mpitch : Word
  mseqa : Dword
  kctl : Word
  /-- KCTL fields in force since the last latch. -/
  kcur : Word
  kprog : Dword
  ksrc : Dword
  khist0 : Dword
  khist1 : Dword
  klog : Dword
  kfill : Word
  run : Bool
  badcfg : Bool
  progok : Bool
  reason : Nat
  latseq : Word
  /-- KNET, KREPROJ, KREPEAT, KFILLC, KMISS, KLATE, KSKIP, KREFUSE, by index. -/
  counters : FMap Word
  /-- KPROG was written and its program is not yet read; the address of a program under validation; the program store. -/
  marked : Bool
  reading : Option Dword
  prog : Option (List Byte)
  /-- The sources by key, and the current one. -/
  sources : FMap Source
  cur : Option Nat
  j : Nat
  /-- The frames latched and not yet scanned out, oldest first. -/
  frames : List KFrame
  /-- The band buffer: words by 16384 · (16 · slot + row) + x, the lines that are complete by 16 · slot + row, and by slot the
  frame and band that it holds. -/
  buffer : FMap Word
  ready : FMap Bool
  held : FMap (Nat × Nat)
  paths : FMap Nat
  /-- FAULT and FALLBACK of head 2's frame, the parts it has written, and a frame whose sequence word is to be written (R379). -/
  lost : Bool
  fallback : Bool
  wrote : Floors
  owed : Option (Nat × Word)
  deriving DecidableEq, Repr

/-- An entry of the AUTO width history (R26). -/
structure WidthEntry where
  code : Dword
  width : Nat
  /-- Recorded fractions: active lanes, and issues times width. -/
  seen : List (Nat × Nat)
  deriving DecidableEq, Repr

/-- A compute die. -/
structure Die where
  /-- STATE of DIESTAT: 0 running, 1 core fenced, 2 fully fenced, 3 in reset; and CAUSE (R421). -/
  state : Nat
  cause : Nat
  /-- The domain in reset: 1 core, 2 uncore, 3 core of a die that is fully fenced. -/
  domain : Nat
  drops : Word
  netarb : Word
  ordwd : Word
  tlim : Nat
  tmax : Nat
  tnow : Nat
  /-- Bits of CORESTAT, by 6 · cluster + core. -/
  corestat : FMap Bool
  errseq : Word
  cecount : Word
  /-- RAS records by entry (R451). -/
  ring : FMap (List Word)
  walkErr : Word
  /-- The arithmetic clock in quarters of a MHz (R448). -/
  clock : Nat
  /-- Its cores have left reset and their self-test has not ended (R450). -/
  testing : Bool
  /-- Arithmetic cycles (R251). -/
  cycle : Nat
  history : List WidthEntry
  /-- The sorter's commands (R372). -/
  grist : List Cmd
  display : Display
  /-- Rays whose status was not OK, by cluster (R364). -/
  rayErrors : FMap Nat
  deriving DecidableEq, Repr

/-- A host port (R433). -/
structure Port where
  up : Bool
  hwctl : Word
  hwbase : Dword
  hdrop : Word
  evbase : Dword
  evctl : Word
  evseq : Word
  mbcmd : Word
  busy : Bool
  result : Nat
  len : Nat
  window : FMap Byte
  /-- An MSI-X is owed, and how many have been sent. -/
  owed : Bool
  sent : Nat
  /-- Its own writes that a write with Relaxed Ordering clear has covered (R316). -/
  covered : Floors
  deriving DecidableEq, Repr

/-- A rank's part in a collective operation (R430). -/
structure Contribution where
  rank : Nat
  kind : Nat
  fn : Nat
  fmt : Nat
  n : Nat
  root : Nat
  elems : List (Dword × Bool)
  deriving DecidableEq, Repr

/-- A communicator (R428, R430). -/
structure Comm where
  reg : Word
  /-- A write of COMMn that waits for the operation under way. -/
  next : Option Word
  /-- This module's commands, oldest first, and what the ranks have sent for the oldest operation. -/
  cmds : List Cmd
  parts : List Contribution
  /-- The numbers of operations that broke before this module's command joined: the lowest missing rank of each (R431). -/
  missed : List Nat
  deriving DecidableEq, Repr

/-- The collective die. -/
structure DieC where
  dispctl : Word
  slotbase : Dword
  asroot : FMap Dword
  /-- Executions that completed ahead of a lower number of their slot: slot, number, and the writes of each (R342). -/
  early : List (Nat × Word × Floors)
  /-- Slots that are stalled (R341). -/
  stalled : FMap Bool
  rsctl : Word
  rsdim : Word
  rsbase : Dword
  /-- The registers of the reservoir store as they were when EN was set: the store that is in force (R358). -/
  rsOn : Word
  rsDimOn : Word
  rsBaseOn : Dword
  /-- 0 off, 1 filling, 2 serving, 3 writing back, 4 writing back with EN set again (R358). -/
  rsPhase : Nat
  linka : Bool
  bootstat : Nat
  recovery : Bool
  /-- The reason of a secure-boot refusal that ports still have to hear of, by port (R442). -/
  refusal : Nat
  told : FMap Bool
  stopped : Bool
  pwrlim : Nat
  /-- What the module draws, in watts, as last sampled (R448). -/
  power : Nat
  sems : FMap Nat
  port0 : Port
  port1 : Port
  meas0 : List Byte
  meas1 : List Byte
  meas2 : List Byte
  meas3 : List Byte
  floff : Word
  fllen : Word
  /-- The flash command under way, 0 for none, and RESULT. -/
  flcmd : Nat
  /-- FLOFF and FLLEN as the command under way took them. -/
  flat : Nat × Nat
  flresult : Nat
  flwin : FMap Byte
  /-- Flash bytes changed since manufacture (R443). -/
  flash : FMap Byte
  /-- The fuses: the digest of the firmware key, the counter of security versions, and the secret of the device identity (R441, R444). -/
  fuseKey : List Byte
  fuseVersion : Nat
  fuseSecret : List Byte
  /-- Ports whose EXTEND is under way, in the order received (R445). -/
  extending : List Nat
  linkctl : FMap Word
  /-- Links that are trained, by lowest lane. -/
  trained : FMap Bool
  modid : Word
  routes : FMap Word
  comms : FMap Comm
  /-- LAUNCH commands that wait (R347). -/
  launches : List Cmd
  deriving DecidableEq, Repr

/-- What a host read, a semaphore read or an AtomicOp of a host has answered (R434, R436). -/
structure Reply where
  port : Nat
  bytes : List Byte
  /-- The poisoned bit. -/
  ep : Bool
  /-- Unsupported Request. -/
  ur : Bool
  deriving DecidableEq, Repr

/-- A link of the network: consecutive failed replays, and retraining (R327). -/
structure Link where
  failed : Nat
  training : Bool
  deriving DecidableEq, Repr

/-- The head packet of a requester at an arbiter: its age, and the cycle of its promotion where PROMO is 1 (R324). -/
structure Waiter where
  req : Nat
  age : Nat
  promo : Option Nat
  deriving DecidableEq, Repr

/-- An arbiter of the network: the pointer P, the burst count b, its cycles so far, and the head packets that wait (R324). -/
structure Arbiter where
  ptr : Nat
  burst : Nat
  cycle : Nat
  /-- Cycles for which its output still sends the flits of a packet. -/
  busy : Nat
  heads : List Waiter
  deriving DecidableEq, Repr

/-- A SPARGE command's candidates (R362, R363): pixel ordinal, kind, the candidate's pixel and record with marks. -/
structure Candidate where
  ordinal : Nat
  kind : Nat
  pixel : Nat × Nat
  source : Nat × Nat
  words : List (Word × Bool)
  deriving DecidableEq, Repr

/-- A Sparge engine, one for each cluster (R361). -/
structure Sparge where
  queue : List Cmd
  /-- The callable teams of the command that runs, one for each of its callable groups (R363). -/
  teams : List Nat
  /-- Candidates still to be pushed, those pushed and not answered by group, oldest first and by lane, and the source
  records and answered candidates of pixels not yet written. -/
  todo : List Candidate
  open_ : List (Nat × List (Nat × Candidate))
  ready : List Candidate
  /-- The code of a trap that a callable has taken (R363). -/
  fault : Option Nat
  /-- The copy of the other die's border column: records by address, each with its mark (R360). -/
  border : List (Nat × Nat × Bool)
  deriving DecidableEq, Repr

/-- What a step does: a group issues a unit, or an event happens. -/
inductive Turn where
  | issue (g : Nat)
  | event (i : Instr)
  deriving DecidableEq, Repr

/-- The module: its groups, teams, cores and executions, its memory, its dies and engines. -/
structure State where
  /-- Groups by key: 32 · team key + place in the team. -/
  groups : FMap Group
  /-- Teams by key. -/
  teams : FMap Team
  /-- Cores by COREID. -/
  cores : FMap Core
  /-- Executions by key. -/
  execs : FMap Exec
  /-- The next key for a team, an execution and a command, and the next launch age. -/
  nextKey : Nat
  /-- Memory: device memory of both dies and host memory, by physical key. -/
  mem : List Host.Cell
  /-- Marked 32-byte sectors, by key / 32 (R278). -/
  marks : FMap Bool
  /-- Histories of 8-byte parts, by key / 8 (R455). -/
  parts : FMap Part
  /-- Write sequence counters, by 256 · die + home slice (R280). -/
  wcount : FMap Word
  /-- Cached translations (R354). -/
  tlb : List Cached
  dieA : Die
  dieB : Die
  dieC : DieC
  /-- Sparge engines, by 16 · die + cluster. -/
  sparges : FMap Sparge
  /-- Sectors whose data was spoilt on the network for the next reader that is no group (R327). -/
  spoilt : FMap Bool
  /-- Network links and arbiters with something to remember. -/
  links : FMap Link
  arbiters : FMap Arbiter
  /-- The last answer to a host. -/
  reply : Reply
  /-- The model's own: steps taken, and the counter of free values. -/
  tick : Nat
  fresh : Nat
  /-- The model's own: further cycles that pass on each die at each coming step. -/
  pace : List (Nat × Nat)
  /-- The model's own: bytes of device memory whose line holds an uncorrectable error that no fetch has met yet, as the ray unit and the
  light walker will find (R232). -/
  strikes : List Nat
  /-- The model's own: the turns that come next, before any that the machine finds for itself. -/
  agenda : List Turn
  unit : UnitCtx
  deriving DecidableEq, Repr

/-- Why the machine stops with a fault. -/
inductive Fault where
  /-- An access to a physical byte that no memory of the module or of its hosts holds.  Raised by the memory operations;
  safe: the run stops where the spec gives no byte. -/
  | noMemory (key : Nat)
  deriving DecidableEq, Repr

/-- Why the model gives an instruction no meaning. -/
inductive Refusal where
  /-- An instruction that this model does not describe, by the mnemonic of the opcode table.  Raised by `exec`; safe. -/
  | notModelled (mnemonic : String)
  deriving DecidableEq, Repr

/-- The answer of an instruction's meaning. -/
abbrev Answer := Host.Outcome State Fault Refusal

/-! ### Reset -/

/-- No barrier wait. -/
def BarWait.blank : BarWait := ⟨0, false, 0, 0, 0, 0, false, 0, false⟩

/-- A lane that is ABSENT (R11). -/
def Lane.blank : Lane := ⟨0, 0, .absent, .nothing, 0, 0, 0, BarWait.blank, 0, 0, 0, 0, 0, 0⟩

/-- A lane at the start of its group: RUN at packet 0, slot 0 (R9). -/
def Lane.start : Lane := ⟨0, 0, .run, .nothing, 0, 0, 0, BarWait.blank, 0, 0, 0, 0, 0, 0⟩

/-- Segments of no address. -/
def Segs.blank : Segs := ⟨0, 0, 0, 0, 0, 0, 0, 0, 0, 0⟩

/-- The control and status registers at group start, before the launch's values (R13, R251). -/
def Csrs.start : Csrs := ⟨0, false, false, false, 0, 0, 0, 0, 0, false, 0, 0, 0, 0, 0, 0, 0, 0, false, 0⟩

/-- A spin detector that has seen nothing. -/
def Spin.blank : Spin := ⟨0, 0, 0, 0, [], false⟩

/-- A group of no lanes. -/
def Group.blank : Group :=
  ⟨0, 0, 0, [], [], [], [], [], [], [], Csrs.start, Segs.blank, 0, [], [], [], [], [], 0, 0, 0, 0, 0, .none, Option.none, Spin.blank,
    [], [], [], [], [], [], [], [], [], [], [], [], 0, [], Option.none, 0, 0, [], false, 0, 0, 0, [], [], []⟩

/-- A head that does not run (R377, R382). -/
def Head.off : Head :=
  { hctl := 0, htim0 := 0, htim1 := 0, hclk := 0, hfb := 0, hpitch := 0, up := false, badcfg := false, faults := 0, training := false,
    running := false, ctl := 0, tim0 := 0, tim1 := 0, clk := 0, fb := 0, pitch := 0, frame := 0, line := 0, sent := [] }

/-- A display engine at the reset of its uncore domain (R375, R381, R382). -/
def Display.off : Display :=
  { head0 := Head.off, head1 := Head.off, head2 := Head.off, mbase := 0, mpitch := 0, mseqa := 0, kctl := 0, kcur := 0,
    kprog := 0, ksrc := 0, khist0 := 0, khist1 := 0, klog := 0, kfill := 0, run := false, badcfg := false, progok := false,
    reason := 0, latseq := 0, counters := [], marked := false, reading := Option.none, prog := Option.none, sources := [],
    cur := Option.none, j := 0, frames := [], buffer := [], ready := [], held := [], paths := [], lost := false, fallback := false,
    wrote := [], owed := Option.none }

/-- A compute die at package reset: NETARB, ORDWD and THERM.TLIM at their reset values, the clock at 940 MHz (R326, R371,
R421, R448, R449). -/
def Die.start : Die :=
  { state := 0, cause := 0, domain := 0, drops := 0, netarb := 0x0C40037F, ordwd := 20, tlim := 95, tmax := 0, tnow := 0,
    corestat := [], errseq := 0, cecount := 0, ring := [], walkErr := 0, clock := 3760, testing := false, cycle := 0, history := [],
    grist := [], display := Display.off, rayErrors := [] }

/-- A host port at package reset, before its link is up (R433, R434, R438, R445). -/
def Port.start : Port :=
  { up := false, hwctl := 0, hwbase := 0, hdrop := 0, evbase := 0, evctl := 0, evseq := 0, mbcmd := 0, busy := false,
    result := 0, len := 0, window := [], owed := false, sent := 0, covered := [] }

/-- Die C at package reset (R338, R358, R421, R427, R428, R436, R443, R444, R446, R448). -/
def DieC.start : DieC :=
  { dispctl := 0x10, slotbase := 0, asroot := [], early := [], stalled := [], rsctl := 0, rsdim := 0, rsbase := 0, rsOn := 0,
    rsDimOn := 0, rsBaseOn := 0, rsPhase := 0,
    linka := false, bootstat := 0, recovery := false, refusal := 0, told := [], stopped := false, pwrlim := 1600,
    power := 0, sems := [], port0 := Port.start, port1 := Port.start, meas0 := List.replicate 32 0,
    meas1 := List.replicate 32 0, meas2 := List.replicate 32 0, meas3 := List.replicate 32 0, floff := 0, fllen := 0, flcmd := 0, flat := (0, 0),
    flresult := 0, flwin := [], flash := [],
    fuseKey := (List.range 32).map Config.fusedKey, fuseVersion := Config.fusedVersion,
    fuseSecret := (List.range 32).map Config.fusedSecret, extending := [], linkctl := [], trained := [], modid := 0, routes := [], comms := [], launches := [] }

/-- No unit has been executed. -/
def UnitCtx.idle : UnitCtx :=
  { g := 0, mask := 0, first := 0, addr := 0, next := 0, word := 0, pre := Group.blank, moved := false, blocked := false,
    trapped := false, after := [], effect := false, why := Option.none, late := 0, grace := 0 }

/-- The module right after package reset: every register at its reset value, no execution, no team and no group, memory
with nothing listed (R417, R446). -/
def State.reset : State :=
  { groups := [], teams := [], cores := [], execs := [], nextKey := 1, mem := [], marks := [], parts := [], wcount := [],
    tlb := [], dieA := Die.start, dieB := Die.start, dieC := DieC.start, sparges := [], spoilt := [], links := [], arbiters := [],
    reply := ⟨0, [], false, false⟩, tick := 0, fresh := 0, pace := [], strikes := [], agenda := [], unit := UnitCtx.idle }

end Sys2Proof.Machine
end

