-- ==== Sys2Proof/Machine/Ops.lean ====
section
/-!
DEFINITION.  The named operations over groups, registers and lanes; taking a trap and returning from one.
-/

namespace Sys2Proof.Machine

/-! ### Empty records -/

/-- A command of no engine. -/
def Cmd.blank : Cmd :=
  ⟨0, 0, 0, 127, 0, false, false, 0, 0, 0, [], [], [], Segs.blank, 0, false, false, 0, Option.none, [], [], [], [], [], [], Option.none, false, 0, 0⟩

/-- A barrier at phase 0 with no arrivals (R154). -/
def Barrier.start : Barrier := ⟨0, 0, Option.none, [], false⟩

/-- A team of no groups. -/
def Team.blank : Team :=
  ⟨0, 0, 0, 0, 0, 0, [], [], [], [], [], [], 0, false, false, false, Option.none, Option.none, false, Option.none, [], [], [], 0, [], 0, Option.none, [], []⟩

/-- A package barrier before its first arrival (R423). -/
def GBar.start : GBar := ⟨0, Option.none, [], [], Option.none, 0⟩

/-- An execution of no teams. -/
def Exec.blank : Exec :=
  ⟨0, 0, [], [], 8, false, [], [], [], [], 0, Option.none, false, 0, 0, [], 0, [], [], Option.none, 0, [], Option.none, [], 0, 0, 0, [], false,
    Option.none, [], 0, false, false⟩

/-! ### Groups, teams, cores, executions -/

/-- The group of a key. -/
def State.grp (s : State) (k : Nat) : Group := (ffind s.groups k).getD Group.blank
/-- Replace the group of a key. -/
def State.setGrp (s : State) (k : Nat) (g : Group) : State := { s with groups := fins s.groups k g }
/-- The team of a key. -/
def State.team (s : State) (k : Nat) : Team := (ffind s.teams k).getD Team.blank
/-- Replace the team of a key. -/
def State.setTeam (s : State) (k : Nat) (t : Team) : State := { s with teams := fins s.teams k t }
/-- The execution of a key. -/
def State.exec (s : State) (k : Nat) : Exec := (ffind s.execs k).getD Exec.blank
/-- Replace the execution of a key. -/
def State.setExec (s : State) (k : Nat) (e : Exec) : State := { s with execs := fins s.execs k e }

/-- A weight bank after a clear (R196). -/
def Bank.clear : Bank := ⟨[], false, 0, Option.none⟩
/-- A Tun array at reset (R196). -/
def Tun.clear : Tun := ⟨Bank.clear, Bank.clear, [], [], [], Option.none, Option.none, [], Option.none, false, Option.none⟩

/-- A core after a reset of its core domain (R151, R253). -/
def Core.start : Core := ⟨Option.none, Option.none, false, false, [], [], [], Tun.clear, []⟩
/-- The core of a COREID. -/
def State.core (s : State) (c : Nat) : Core := (ffind s.cores c).getD Core.start
/-- Replace the core of a COREID. -/
def State.setCore (s : State) (c : Nat) (x : Core) : State := { s with cores := fins s.cores c x }
/-- The core a group resides on. -/
def State.coreOf (s : State) (k : Nat) : Core := s.core (s.team (s.grp k).team).core

/-- DETERMINISM of an execution's slot record (R339): 0 fast, 1 det, 2 det_stores. -/
def Exec.detMode (e : Exec) : Nat := bits (nth 0 e.record 4).toNat 16 8
/-- What an execution has staged, and stages from now on, is discarded: it is fenced, has lost a team, or could not spill (R269, R292,
R420). -/
def Exec.discards (e : Exec) : Bool := e.fenced || e.failed || e.spillFault.isSome
/-- The execution whose ticket orders the contributions of an execution: a deterministic successor continues its
predecessor's (R291). -/
def State.detRootFrom (s : State) : Nat → Nat → Nat
  | 0, k => k
  | n + 1, k => match (s.exec k).parent with
    | none => k
    | some p => if (s.exec p).detMode = 0 then k else s.detRootFrom n p
/-- The same, for any chain there is. -/
def State.detRoot (s : State) (k : Nat) : Nat := s.detRootFrom s.execs.length k

/-- The group that executes the unit. -/
def State.me (s : State) : Group := s.grp s.unit.g
/-- Replace the group that executes the unit. -/
def State.setMe (s : State) (g : Group) : State := s.setGrp s.unit.g g
/-- Change the group that executes the unit. -/
def State.onMe (s : State) (f : Group → Group) : State := s.setMe (f s.me)
/-- The group as it stood before the unit (R31). -/
def State.pre (s : State) : Group := s.unit.pre
/-- The team of the group that executes the unit. -/
def State.myTeam (s : State) : Team := s.team s.me.team
/-- Change that team. -/
def State.onTeam (s : State) (f : Team → Team) : State := s.setTeam s.me.team (f s.myTeam)
/-- The execution of that team. -/
def State.myExec (s : State) : Exec := s.exec s.myTeam.exec

/-- The key of a group of a team. -/
def groupKey (team index : Nat) : Nat := 32 * team + index
/-- The keys of a team's groups. -/
def Team.groupKeys (t : Team) (key : Nat) : List Nat := (List.range t.groups).map (groupKey key)

/-- The die of a core: COREID bit 8. -/
def coreDie (c : Nat) : Nat := c / 256 % 2
/-- The die a group runs on. -/
def State.dieOf (s : State) (k : Nat) : Nat := coreDie (s.team (s.grp k).team).core
/-- A compute die: 0 A, 1 B. -/
def State.die (s : State) (d : Nat) : Die := if d = 0 then s.dieA else s.dieB
/-- Replace a compute die. -/
def State.setDie (s : State) (d : Nat) (x : Die) : State := if d = 0 then { s with dieA := x } else { s with dieB := x }
/-- Change die C. -/
def State.onC (s : State) (f : DieC → DieC) : State := { s with dieC := f s.dieC }
/-- A host port. -/
def State.port (s : State) (p : Nat) : Port := if p = 0 then s.dieC.port0 else s.dieC.port1
/-- Replace a host port. -/
def State.setPort (s : State) (p : Nat) (x : Port) : State :=
  if p = 0 then s.onC (fun c => { c with port0 := x }) else s.onC (fun c => { c with port1 := x })
/-- A 32-bit counter that saturates. -/
def bump (w : Word) : Word := if w = 0xFFFFFFFF then w else w + 1

/-- The grade in which a die is fenced, or held by its reset: 0 not at all, 1 its cores, 2 all of it (R418). -/
def State.dieFence (s : State) (die : Nat) : Nat :=
  let d := s.die die
  if d.state = 3 then min d.domain 2 else d.state

/-- An error of a die is reported by a change of its registers, but none of a die that is fully fenced (R418). -/
def State.reports (s : State) (d : Nat) (f : Die → Die) : State := if s.dieFence d = 2 then s else s.setDie d (f (s.die d))

/-- A RAS record of a die: kind, LATENT, place and address (R451). -/
def State.logRas (s : State) (d kind : Nat) (latent : Bool) (place addr : Nat) : State :=
  s.reports d fun x =>
    let n := x.errseq + 1
    { x with
    errseq := n
    ring := fins x.ring (n.toNat % 1024) [n, BitVec.ofNat 32 (kind + if latent then 256 else 0), BitVec.ofNat 32 place,
      BitVec.ofNat 32 addr, BitVec.ofNat 32 (addr / 2 ^ 32), 0, 0, 0] }

/-- The arithmetic cycle count of a die (R251). -/
def State.cycle (s : State) (die : Nat) : Nat := (s.die die).cycle
/-- The cycle count that the executing group sees. -/
def State.now (s : State) : Nat := s.cycle (s.dieOf s.unit.g)

/-- The ACTIVE lanes of the unit, lowest first. -/
def State.acts (s : State) : List Nat := lanesOf s.pre.width s.unit.mask
/-- The lowest ACTIVE lane. -/
def State.lead (s : State) : Nat := minOf 0 s.acts

/-- The logical identifier of a lane (R14). -/
def Group.logical (g : Group) (i : Nat) : Nat := g.index * g.width + i

/-- A free natural number: which of the outcomes the spec allows. -/
def State.choice (s : State) : Nat := Config.freeChoice s.fresh
/-- The counter of free values moves on. -/
def State.spent (s : State) : State := { s with fresh := s.fresh + 1 }

/-- Change a group that exists. -/
def State.onGrp (s : State) (k : Nat) (f : Group → Group) : State :=
  match ffind s.groups k with
  | none => s
  | some g => s.setGrp k (f g)

/-- The kinds of hold. -/
def Hold.kind : Hold → Nat
  | .none => 0 | .icinv _ _ => 1 | .tlbinv _ => 2 | .tidset _ _ _ => 3 | .xfence _ _ _ => 4 | .phase _ => 5 | .redflush => 6
  | .fenceAcq _ => 7 | .hostAtomic => 8 | .passed n _ _ => n

/-- The hold ends by an event alone. -/
def Hold.waits : Hold → Bool
  | .none => false | .icinv _ _ => true | .tlbinv _ => true | .tidset _ _ _ => true | .xfence _ _ _ => true | .phase _ => true
  | .redflush => true | .fenceAcq _ => true | .hostAtomic => true | .passed _ _ _ => false

/-- The wait of a group's held unit is over. -/
def Group.pass (g : Group) (fault : Option Cause) : Group :=
  { g with hold := .passed g.hold.kind ((g.blocked.map Blocked.addr).getD 0) fault }

/-- The unit's wait of a kind is over (R273): with the fault it ended in. -/
def State.passedAs (s : State) (kind : Nat) : Option (Option Cause) :=
  match s.me.hold with
  | .passed n a f => if n = kind && a = s.unit.first then some f else none
  | .none => none | .icinv _ _ => none | .tlbinv _ => none | .tidset _ _ _ => none | .xfence _ _ _ => none | .phase _ => none
  | .redflush => none | .fenceAcq _ => none | .hostAtomic => none

/-! ### Registers -/

/-- The key of a vector register of a lane. -/
def vkey (i r : Nat) : Nat := 128 * i + r

/-- v[r][i]. -/
def Group.getV (g : Group) (i r : Nat) : Word := fget 0 g.v (vkey i r)
/-- Whether v[r][i] is poisoned (R271). -/
def Group.vPoison (g : Group) (i r : Nat) : Bool := fget false g.vp (vkey i r)
/-- s[r]; s127 reads 0 (R12). -/
def Group.getS (g : Group) (r : Nat) : Word := if r = 127 then 0 else fget 0 g.s r
/-- Whether s[r] is poisoned. -/
def Group.sPoison (g : Group) (r : Nat) : Bool := if r = 127 then false else fget false g.sp r
/-- Whether s[r] is a pending token (R45). -/
def Group.pending (g : Group) (r : Nat) : Bool := if r = 127 then false else fget false g.tok r
/-- p[r][i]; p7 reads true (R9). -/
def Group.getP (g : Group) (i r : Nat) : Bool := if r = 7 then true else fget false g.p (8 * i + r)
/-- The lane of an index. -/
def Group.lane (g : Group) (i : Nat) : Lane := nth Lane.blank g.lanes i

/-- A later write to a register discards a pending result for it (R43). -/
def Look.drop (keys : List Nat) (l : Look) : Look :=
  { l with dests := l.dests.filter (fun d => !keys.contains d.key) }

/-- Write words to vector registers, a later word of the same register standing; marks follow the words. -/
def Group.write (g : Group) (ds : List Dest) : Group :=
  { g with
    v := ds.foldl (fun m d => fset 0 m d.key d.val) g.v
    vp := ds.foldl (fun m d => fset false m d.key d.poison) g.vp
    looks := g.looks.map (Look.drop (ds.map Dest.key)) }

/-- Write a scalar register; a write to s127 is discarded (R12). -/
def Group.putS (g : Group) (r : Nat) (w : Word) (poison : Bool) : Group :=
  if r = 127 then g
  else { g with s := fset 0 g.s r w, sp := fset false g.sp r poison, unread := g.unread.filter (fun d => d.tok != r) }

/-- Write a predicate of a lane; a write to p7 is discarded (R9). -/
def Group.putP (g : Group) (i r : Nat) (b : Bool) : Group :=
  if r = 7 then g else { g with p := fset false g.p (8 * i + r) b }

/-- Change one lane's control state. -/
def Group.onLane (g : Group) (i : Nat) (f : Lane → Lane) : Group := { g with lanes := modNth g.lanes i f }

/-- Change the control state of the lanes of a mask. -/
def Group.onLanes (g : Group) (m : Lanes) (f : Nat → Lane → Lane) : Group :=
  { g with lanes := mapFrom (fun i l => if m.getLsbD i then f i l else l) 0 g.lanes }

/-- OR flags into FLAGS (R79). -/
def Group.addFlags (g : Group) (f : BitVec 4) : Group := { g with csr := { g.csr with flags := g.csr.flags ||| f } }

/-- Write the pending results, oldest first, and set their flags; deferred faults stay pending (R43, R44, R79). -/
def Group.flushLooks (g : Group) : Group :=
  g.looks.foldl (fun g l => if l.fault.isSome then g else (g.write l.dests).addFlags l.flags)
    { g with looks := g.looks.filter (fun l => l.fault.isSome) }

/-- A token's value (R186). -/
def tokenValue (code index : Nat) : Word := BitVec.ofNat 32 (code % 256 + 256 * min index (2 ^ 24 - 1))

/-! ### Parking and waking -/

/-- A parked lane returns to RUN (R19). -/
def Lane.wake (now : Nat) (l : Lane) : Lane :=
  { l with st := .run, wait := .nothing, parkSum := l.parkSum + (now - l.parkedAt) }

/-- Wake the parked lanes whose wait satisfies a test; lanes of a blocked unit that wait so look again before they park
(R19). -/
def Group.wake (now : Nat) (p : WaitOn → Bool) (g : Group) : Group :=
  { g with
    lanes := g.lanes.map (fun l => if l.st = .parked && p l.wait then l.wake now else l)
    blocked := g.blocked.map (fun b => { b with waits := b.waits.filter (fun e => !p e.2) }) }

/-- Parked lanes wake when the group has no RUN lane left (R19). -/
def Group.settle (now : Nat) (g : Group) : Group :=
  if g.lanes.any (fun l => l.st == .run) then g else g.wake now (fun _ => true)

/-- A wait for one of these scratchpad words. -/
def WaitOn.onTags (ws : List Nat) : WaitOn → Bool
  | .nothing => false | .tags l => l.any ws.contains | .queue _ => false | .token _ => false | .spin _ => false | .release _ => false
/-- A wait for a queue. -/
def WaitOn.onQueue (q : Nat) : WaitOn → Bool
  | .nothing => false | .tags _ => false | .queue r => q == r | .token _ => false | .spin _ => false | .release _ => false
/-- A wait for a token (R19). -/
def WaitOn.onToken (t : Nat) : WaitOn → Bool
  | .nothing => false | .tags _ => false | .queue _ => false | .token r => t == r | .spin _ => false | .release _ => false
/-- A spin. -/
def WaitOn.isSpin : WaitOn → Bool
  | .nothing => false | .tags _ => false | .queue _ => false | .token _ => false | .spin _ => true | .release _ => false
/-- A spin that read one of these lines. -/
def WaitOn.onLines (ls : List Nat) : WaitOn → Bool
  | .nothing => false | .tags _ => false | .queue _ => false | .token _ => false | .spin l => l.any ls.contains | .release _ => false
/-- A wait for a release at a pixel (R370). -/
def WaitOn.onRelease (p : Nat) : WaitOn → Bool
  | .nothing => false | .tags _ => false | .queue _ => false | .token _ => false | .spin _ => false | .release q => p == q

/-- Apply a change to every group. -/
def State.mapGroups (s : State) (f : Nat → Group → Group) : State := { s with groups := fmapVals f s.groups }

/-- Wake the lanes of a team's groups that wait on scratchpad words (R19). -/
def State.wakeTags (s : State) (team : Nat) (words : List Nat) : State :=
  s.mapGroups (fun k g => if g.team = team then g.wake (s.cycle (s.dieOf k)) (WaitOn.onTags words) else g)

/-- The lines a spin records: scratchpad lines are told from lines of memory by their parity. -/
def scratchLine (team word : Nat) : Nat := 2 * (team * 65536 + word / 32) + 1
/-- The line of memory a physical key lies in. -/
def memLine (key : Nat) : Nat := 2 * (key / 128)

/-- Wake the spins that read one of these lines; one that has read a line and not yet parked on it does not stay parked
(R19). -/
def State.wakeLines (s : State) (lines : List Nat) : State :=
  s.mapGroups (fun k g =>
    let h := g.wake (s.cycle (s.dieOf k)) (WaitOn.onLines lines)
    { h with spin := { h.spin with woken := h.spin.woken || h.spin.lines.any lines.contains } })

/-! ### Taking a trap and returning from one -/

/-- TCAUSE for a cause (R254). -/
def Cause.word (c : Cause) (multi : Bool) : BitVec 13 :=
  BitVec.ofNat 13 (c.code % 256 + c.slot % 4 * 256 + (if c.defer then 1024 else 0) + (if c.after then 2048 else 0)
    + (if multi then 4096 else 0))

/-- Lanes of a group that are neither EXITED nor ABSENT. -/
def Group.live (g : Group) : List Nat :=
  (List.range g.width).filter (fun i => (g.lane i).st != .exited && (g.lane i).st != .absent)

/-- Every lane that is neither EXITED nor ABSENT is BARRED, and there is one. -/
def Group.allBarred (g : Group) : Bool := !g.live.isEmpty && g.live.all (fun i => (g.lane i).st == .barred)

/-- The lpc a lane returns to: past its unit where the lane waits at a barrier (R166, R267). -/
def Lane.returns (l : Lane) : Word := if l.st = .barred then l.bar.next else l.lpc

/-- A lane of HSET enters the handler: it saves its return lpc and runs at TVEC, but that a lane which has exited with the
unit stays so (R11, R263). -/
def Lane.enter (tvec : Word) (l : Lane) : Lane :=
  if l.st = .exited then { l with slpc := l.lpc }
  else { l with slpc := l.returns, lpc := tvec, st := .run, wait := .nothing, clean := tvec }

/-- Supervisor mode ends when every lane of HSET has exited (R264). -/
def Group.endSup (g : Group) : Group :=
  if g.csr.sup && (lanesOf g.width g.csr.hset).all (fun i => (g.lane i).st == .exited) then
    { g with csr := { g.csr with sup := false } } else g

/-- The entry of R263 in one group: the lanes of HSET save their lpc and stand at TVEC, the cause is recorded, the
group is in supervisor mode and its instruction buffer is empty. -/
def Group.enter (g : Group) (hs : Lanes) (c : Cause) (multi : Bool) : Group :=
  { g with
    lanes := mapFrom (fun i l => if hs.getLsbD i then l.enter g.csr.tvec else l) 0 g.lanes
    csr := { g.csr with
      sup := true
      hset := hs
      tcause := c.word multi
      tval := c.tval
      tvalh := c.tvalh
      tlane := BitVec.ofNat 11 c.lane
      tfaddr := c.faddr }
    ibuf := []
    blocked := Option.none
    sleepTo := 0
    pend := [] }

/-- A cause that no handler takes: an uncorrectable error in control state (R262, R272). -/
def Cause.control (c : Cause) : Bool := c.code == 0x0A && bits c.tval.toNat 8 2 == 3

/-- The trap is handled (R262). -/
def Group.handles (g : Group) (c : Cause) : Bool := g.csr.tvec != 0 && !g.csr.sup && !c.control

/-- The fault record of a trap (R269, R343). -/
def Cause.record (c : Cause) (team group : Word) : FaultRec :=
  ⟨c.code, c.tval, c.tvalh, BitVec.ofNat 32 c.lane, c.faddr, team, group, true⟩

/-- Record a fault of an execution: the first stands, and FATAL is set by any (R343). -/
def Exec.addFault (e : Exec) (f : FaultRec) : Exec :=
  { e with fault := some (match e.fault with
      | none => f
      | some h => { h with fatal := h.fatal || f.fatal }) }

/-- Staged reductions of an execution are discarded (R269, R420). -/
def State.dropStaged (s : State) (ek : Nat) : State :=
  let r := s.detRoot ek
  let e := s.exec r
  s.setExec r { e with
    staged := e.staged.filter (fun q => q.2.exec != ek)
    batches := e.batches.filter (fun q => q.2.2.exec != ek) }

/-- Fence an execution: its fault is recorded, its staged reductions are dropped, and its teams are to be stopped
(R269). -/
def State.fence (s : State) (ek : Nat) (f : FaultRec) : State :=
  (s.setExec ek { (s.exec ek).addFault f with fenced := true }).dropStaged ek

/-- A Sparge engine that has no command. -/
def Sparge.idle : Sparge := ⟨[], [], [], [], [], Option.none, []⟩
/-- A Sparge engine, by 16 · die + cluster. -/
def State.sparge (s : State) (n : Nat) : Sparge := (ffind s.sparges n).getD Sparge.idle
/-- Change a Sparge engine. -/
def State.onSparge (s : State) (n : Nat) (f : Sparge → Sparge) : State := { s with sparges := fins s.sparges n (f (s.sparge n)) }
/-- The number of the cluster of a core: COREID bits 8:4 (R251). -/
def clusterOf (core : Nat) : Nat := core / 16

/-- A fatal trap (R269): the team stops at once and its launch is fenced; a callable's stops its command alone (R363). -/
def State.fatal (s : State) (k : Nat) (c : Cause) : State :=
  let g := s.grp k
  let t := s.team g.team
  let s1 := s.setTeam g.team { t with dead := true }
  if t.callable then s1.onSparge (clusterOf t.core) (fun e => { e with fault := some (e.fault.getD c.code) })
  else s1.fence t.exec (c.record t.teamId (BitVec.ofNat 32 g.index))

/-- Take a trap in a group (R262, R263, R269): pending results are written first. -/
def State.enterTrap (s : State) (k : Nat) (hs : Lanes) (c : Cause) (multi : Bool) : State :=
  let g := (s.grp k).flushLooks
  if g.handles c then s.setGrp k (g.enter hs c multi) else (s.setGrp k g).fatal k c

/-- Raise a cause of the unit before it takes effect: the trap is entered for its ACTIVE lanes (R261, R263). -/
def State.raise (s : State) (c : Cause) : State :=
  let t := s.enterTrap s.unit.g s.unit.mask c false
  { t with unit := { t.unit with trapped := true, moved := true, why := some c } }

/-- A cause of the current member, before the unit (R266, R267). -/
def State.cause (s : State) (code : Nat) (tval tvalh : Word) (lane : Nat) : Cause :=
  ⟨code, tval, tvalh, s.pre.logical lane, s.unit.addr, bits s.unit.addr.toNat 0 2, false, false⟩

/-- The same, raised after the unit. -/
def State.afterCause (s : State) (code : Nat) (tval tvalh : Word) (lane : Nat) : Cause :=
  { s.cause code tval tvalh lane with after := true }

/-- Keep a cause for the end of the unit.  FP_EXCEPTIONs of several members are one: their flags together, the lowest of all lanes, as R80
says, and the lowest slot, as R266 says, which takes the lane within that slot (DESIGN CHOICE, log entry 91). -/
def addAfterTo (c : Cause) : List Cause → List Cause
  | [] => [c]
  | d :: ds =>
    if d.code = c.code then { d with tval := d.tval ||| c.tval, lane := min d.lane c.lane } :: ds
    else d :: addAfterTo c ds

/-- Keep a cause for the end of the unit. -/
def State.addAfter (s : State) (c : Cause) : State :=
  { s with unit := { s.unit with after := addAfterTo c s.unit.after } }

/-- The cause with the lowest code, and of one code with the lowest lane (R14, R266). -/
def leastCause (c : Cause) : List Cause → Cause
  | [] => c
  | d :: ds => leastCause (if d.code < c.code || (d.code == c.code && decide (d.lane < c.lane)) then d else c) ds

/-- Every ACTIVE lane that still stands at the unit moves past it (R15). -/
def State.advance (s : State) : State :=
  if s.unit.moved then s
  else
    let t := s.onMe (fun g => g.onLanes s.unit.mask (fun _ l => if l.st = .run then { l with lpc := s.unit.next } else l))
    { t with unit := { t.unit with moved := true } }

/-- Raise the causes kept for the end of the unit, once its lanes have moved (R261, R266).  HSET is the ACTIVE lanes of the
unit, those among them that the unit left at a barrier or EXITED too: the former leave the barrier for the handler, the
latter stay EXITED (R11, R263; log entry 63).  Where atomics of the unit are still at a host, the unit has not completed: its causes are
entered with theirs (R286, R295). -/
def State.raiseAfter (s : State) : State :=
  match s.unit.after with
  | [] => s
  | c :: cs =>
    let t := { s with unit := { s.unit with after := [] } }
    if !s.me.hostOps.isEmpty then t.onMe (fun g => { g with pend := g.pend ++ (c :: cs).map (fun d => (d, s.unit.mask)) })
    else
      let t := { t with unit := { t.unit with trapped := true } }
      let u := t.enterTrap s.unit.g s.unit.mask (leastCause c cs) (decide (cs ≠ []))
      u.onMe (fun g => { g.endSup with hold := if g.allBarred then g.hold else .none })

/-- The causes a group keeps for its next issue are entered together (R261, R266). -/
def State.enterPend (s : State) (k : Nat) : State :=
  let g := s.grp k
  match g.pend with
  | [] => s
  | (c, m) :: ps =>
    let hs := ps.foldl (fun h p => h ||| p.2) m
    let low := leastCause c (ps.map Prod.fst)
    s.enterTrap k hs low (ps.any (fun p => p.1.code != c.code))

/-- The return of R265: every lane of HSET that has not exited takes its saved lpc and runs. -/
def Group.leave (g : Group) : Group :=
  { g with
    lanes := mapFrom (fun i l => if g.csr.hset.getLsbD i && l.st != .exited then
      { l with lpc := l.slpc, st := .run, wait := .nothing, clean := l.slpc } else l) 0 g.lanes
    csr := { g.csr with sup := false }
    ibuf := [] }

end Sys2Proof.Machine
end

