-- ==== Sys2Proof/Machine/Memory.lean ====
section
/-!
DEFINITION.  Memory: physical bytes, home slices, versions and views (R277 to R281, R298 to R311, R353, R455).

A physical key numbers every byte: die A from 0, die B from 2^37, host bus addresses from 2^38, port 0 below port 1
(R353, R435).
-/

namespace Sys2Proof.Machine

/-- The first key of host memory. -/
def hostBase : Nat := 2 ^ 38
/-- The first key past host memory: two ports of 2^51 bytes (R435). -/
def keyEnd : Nat := 2 ^ 38 + 2 ^ 52
/-- The key of a byte of a die (R353). -/
def dieKey (die pa : Nat) : Nat := die * 2 ^ 37 + pa
/-- The first key of the window lines of the reservoir store (R359). -/
def windowBase : Nat := 2 ^ 60
/-- The key of a byte of a die's window: the tile's local index and the byte in the tile. -/
def windowKey (die l off : Nat) : Nat := windowBase + die * 2 ^ 40 + 8192 * l + off
/-- The key lies in the window. -/
def isWindow (key : Nat) : Bool := decide (windowBase ≤ key)
/-- The key lies in host memory. -/
def isHost (key : Nat) : Bool := decide (hostBase ≤ key) && !isWindow key
/-- The die whose memory holds a device key. -/
def keyDie (key : Nat) : Nat := if isWindow key then (key - windowBase) / 2 ^ 40 else key / 2 ^ 37
/-- The port of a host key. -/
def keyPort (key : Nat) : Nat := (key - hostBase) / 2 ^ 51

/-- What a byte that no write has reached reads as: 0 (R417; log entry 5). -/
def Memory.unlisted : Byte := 0

/-- The canonical form of memory: rising keys, no entry that reads as an unlisted byte. -/
def Memory.wf (m : List Host.Cell) : Bool := fwf Memory.unlisted m

/-- One byte of memory, as the home slice or the host holds it. -/
def State.byteAt (s : State) (key : Nat) : Byte := fget Memory.unlisted s.mem key

/-- `n` bytes from a key, as one number, least significant first (R5). -/
def State.natAt (s : State) (key : Nat) : Nat → Nat
  | 0 => 0
  | n + 1 => s.natAt key n + (s.byteAt (key + n)).toNat * 2 ^ (8 * n)

/-- A word of memory. -/
def State.wordAt (s : State) (key : Nat) : Word := BitVec.ofNat 32 (s.natAt key 4)

/-- The `n` low bytes of a number as cells from a key. -/
def cellsOf (key x : Nat) : Nat → List Host.Cell
  | 0 => []
  | n + 1 => (key, BitVec.ofNat 8 x) :: cellsOf (key + 1) (x / 256) n

/-- The home slice of a device line on its die (R277). -/
def homeSlice (pa : Nat) : Nat :=
  Nat.xor (Nat.xor (Nat.xor (bits pa 7 8) (bits pa 15 8)) (Nat.xor (bits pa 23 8) (bits pa 31 8)))
    (Nat.xor (bits pa 39 8) (bits pa 47 5))

/-- The home slice of a device key on its die (R277, R359). -/
def sliceOn (key : Nat) : Nat :=
  if isWindow key then bits (mix32 (BitVec.ofNat 32 ((key - windowBase) % 2 ^ 40 / 8192))).toNat 0 8 else homeSlice (key % 2 ^ 37)

/-- The number of a device key's home slice in the package: 256 · die + slice. -/
def sliceOf (key : Nat) : Nat := 256 * keyDie key + sliceOn key

/-- A byte that reads as poisoned: its sector is marked, its die is fully fenced, or its host port is down (R278, R419,
R435). -/
def State.marked (s : State) (key : Nat) : Bool :=
  if isHost key then !(s.port (keyPort key)).up
  else fget false s.marks (key / 32) || decide (s.dieFence (keyDie key) = 2)

/-- A byte as a reader that is no group finds it: poisoned, or spoilt on its way to such readers (R278, R327). -/
def State.tainted (s : State) (key : Nat) : Bool := s.marked key || fget false s.spoilt (key / 32)

/-! ### Versions and publications -/

/-- The history of a part: where none is kept, only what it holds. -/
def State.part (s : State) (p : Nat) : Part := (ffind s.parts p).getD ⟨BitVec.ofNat 64 (s.natAt (8 * p) 8), [], []⟩

/-- How many versions a part has after its first contents. -/
def Part.count (p : Part) : Nat := p.versions.length

/-- The version of a number, counted from 1. -/
def Part.ver (p : Part) (n : Nat) : Version := nth ⟨p.base, .dieC, 0, false, false⟩ p.versions (min n p.count - 1)

/-- The contents of a part at a version; version 0 is what it held at first. -/
def Part.at (p : Part) (n : Nat) : Dword := if n = 0 then p.base else (p.ver n).val

/-- Versions of a part applied before a time. -/
def Part.before (p : Part) (t : Nat) : Nat := (p.versions.filter (fun v => decide (v.time ≤ t))).length

/-- The team of an agent, and the die: 2 for die C (R299). -/
def Agent.team? : Agent → Option Nat
  | .lane t _ _ => some t | .engine t _ _ => some t | .dieEngine _ => none | .dieC => none | .port _ => none
def Agent.die? : Agent → Option Nat
  | .lane _ d _ => some d | .engine _ d _ => some d | .dieEngine d => some d | .dieC => some 2 | .port _ => none

/-- Agent `b` is within scope `sc` of agent `a` (R299). -/
def within (sc : Scope) (a b : Agent) : Bool :=
  a == b || (match sc with
    | .team => a.team?.isSome && a.team? == b.team?
    | .die => a.die?.isSome && a.die? == b.die?
    | .pkg => a.die?.isSome && b.die?.isSome
    | .sys => true)

/-- A publication reaches an agent. -/
def Pub.reaches (p : Pub) (a : Agent) : Bool :=
  match p.reach with
  | .scope sc => within sc p.owner a
  | .agent b => a == b

/-- The LANE agent of a group. -/
def State.agent (s : State) (k : Nat) : Agent := .lane (s.grp k).team (s.dieOf k) (s.grp k).index
/-- The engine commands of a group, as an agent. -/
def State.engineAgent (s : State) (k : Nat) : Agent := .engine (s.grp k).team (s.dieOf k) (s.grp k).index
/-- The agent is the LANE path of a group, on either die. -/
def Agent.isLane (team group : Nat) : Agent → Bool
  | .lane t _ g => t == team && g == group
  | .engine _ _ _ => false | .dieEngine _ => false | .dieC => false | .port _ => false

/-- The largest of a list of numbers and a floor. -/
def maxOf (lo : Nat) : List Nat → Nat
  | [] => lo
  | x :: xs => max x (maxOf lo xs)

/-- Raise a floor. -/
def Floors.raise (f : Floors) (p n : Nat) : Floors := fset 0 f p (max (fget 0 f p) n)
/-- Raise floors to others. -/
def Floors.join (f g : Floors) : Floors := g.foldl (fun f q => Floors.raise f q.1 q.2) f

/-- The paths whose loads have a view: lanes, and reservoir records (R192, R239). -/
inductive View where
  | lane | rsvs
  deriving DecidableEq, Repr

/-- The lower bound of a group's view for a part: what it has read, what its renewals have raised, its own writes on the
same path, and what XFENCEs and tokens make it see (R193, R239, R301, R365). -/
def Group.floor (g : Group) (v : View) (p : Nat) : Nat :=
  match v with
  | .lane => max (fget 0 g.low p) (max (fget 0 g.lowLane p) (fget 0 g.toldLane p))
  | .rsvs => max (fget 0 g.low p) (max (fget 0 g.lowRsvs p) (fget 0 g.toldRsvs p))

/-- A group's own writes on a path are known to it (R300, R301). -/
def Group.wrote (g : Group) (v : View) (f : Floors) : Group :=
  match v with
  | .lane => { g with lowLane := Floors.join g.lowLane f }
  | .rsvs => { g with lowRsvs := Floors.join g.lowRsvs f }

/-- What a group has read or written of a part, or has been renewed to: it is published to the group (R300). -/
def Group.had (g : Group) (p : Nat) : Nat := max (fget 0 g.low p) (max (fget 0 g.lowLane p) (fget 0 g.lowRsvs p))

/-- What the publications of a part that pass a test reach up to. -/
def Part.upTo (x : Part) (f : Pub → Bool) : Nat := maxOf 0 ((x.pubs.filter f).map Pub.upTo)

/-- The earliest version of a part that a plain load of a group may return (R301): its floor, and what its own team has
published to it (R302). -/
def State.least (s : State) (k p : Nat) (v : View) : Nat :=
  max ((s.grp k).floor v p) ((s.part p).upTo (fun q => q.reaches (s.agent k) && within .team (s.agent k) q.owner))

/-- The latest version of a part that is published to a group (R300, R455). -/
def State.published (s : State) (k p : Nat) : Nat :=
  max ((s.grp k).had p) ((s.part p).upTo (fun q => q.reaches (s.agent k)))

/-- A part at a version, with what is one part with it: a write of a whole reservoir record is one part with its three
neighbours (R239, R455). -/
def State.whole (s : State) (p n : Nat) : Floors :=
  let x := s.part p
  if (x.versions.take n).any Version.whole then
    (List.range 4).foldl (fun f j =>
      let q := p / 4 * 4 + j
      Floors.raise f q (if q = p then n else (s.part q).before (x.ver n).time)) []
  else [(p, n)]

/-- Raise a group's lower bound for a part: it has read that version (R300, R301). -/
def State.see (s : State) (k p n : Nat) : State :=
  s.setGrp k { s.grp k with low := Floors.join (s.grp k).low (s.whole p n) }

/-- Everything published to a group, part by part. -/
def State.known (s : State) (k : Nat) : Floors :=
  s.parts.foldl (fun f e => Floors.raise f e.1 (s.published k e.1)) []

/-- Add a publication, one for each maker and reach. -/
def addPub (q : Pub) : List Pub → List Pub
  | [] => [q]
  | r :: rs => if r.owner = q.owner && r.reach = q.reach then { r with upTo := max r.upTo q.upTo } :: rs else r :: addPub q rs

/-- Publish versions of parts (R300, R455). -/
def State.publish (s : State) (a : Agent) (r : Reach) (f : Floors) : State :=
  (f.foldl (fun g e => Floors.join g (s.whole e.1 e.2)) ([] : Floors)).foldl
    (fun s e => { s with parts := fins s.parts e.1 { s.part e.1 with pubs := addPub ⟨e.2, a, r⟩ (s.part e.1).pubs } }) s

/-- What a renewal at a scope raises a group's floors to (R302). -/
def State.renewed (s : State) (k : Nat) (sc : Scope) (p : Part) : Nat :=
  p.upTo (fun q => q.reaches (s.agent k) && within sc (s.agent k) q.owner)

/-- Renew a group's view at a scope (R302).  Write-back lines of host memory are renewed at system scope only (R315): below it, what
renewals raise of host memory counts for accesses through pages of other types. -/
def State.renew (s : State) (k : Nat) (sc : Scope) : State :=
  let up := fun (host : Bool) (f : Floors) => s.parts.foldl (fun f e =>
    if isHost (8 * e.1) == host then Floors.raise f e.1 (s.renewed k sc e.2) else f) f
  let g := s.grp k
  s.setGrp k (if sc = .sys then { g with low := up true (up false g.low) }
    else { g with low := up false g.low, lowThrough := up true g.lowThrough })

/-- A group resumes on another die: what was published to it stays so (R300). -/
def State.carryPubs (s : State) (a b : Agent) : State :=
  { s with parts := fmapVals (fun _ x => (x.pubs.filter (fun q => q.reaches a)).foldl (fun x q =>
      { x with pubs := addPub ⟨q.upTo, q.owner, .agent b⟩ x.pubs }) x) s.parts }

/-! ### What engines must observe -/

/-- The last version of a part up to one of them that a group's lanes have not written. -/
def State.lastOther (s : State) (k p n : Nat) : Nat :=
  maxOf 0 (mapFrom (fun j (v : Version) => if v.owner.isLane (s.grp k).team (s.grp k).index then 0 else j + 1) 0 ((s.part p).versions.take n))

/-- The version of a part that the accesses of a path class of a group must not precede: what is published to the group but its own
LANE writes, and what its XFENCEs and its own RSVS path have made certain (R193, R239, R313). -/
def State.pathFloor (s : State) (k path p : Nat) : Nat :=
  let g := s.grp k
  maxOf (s.lastOther k p (s.published k p))
    (g.fenced.map (fun e => if e.1.getLsbD path then fget 0 e.2 p else 0)
      ++ (if path = 5 then [fget 0 g.lowRsvs p, fget 0 g.toldRsvs p] else []))

/-- The same for every part: what a command takes with it at its issue. -/
def State.pathFloors (s : State) (k path : Nat) : Floors :=
  s.parts.foldl (fun f e => Floors.raise f e.1 (s.pathFloor k path e.1)) []

/-- The version of a part that a read at its home slice gives: any from a floor on, freely, and one for each part at a time (R194,
R279). -/
def State.viewAt (s : State) (floor p : Nat) : Nat :=
  let hi := (s.part p).count
  if hi ≤ floor then hi else floor + Config.readChoice s.fresh p % (hi - floor + 1)

/-- The same, but that a version which has been pinned stands: pins hold the version plus one. -/
def State.pinnedAt (s : State) (fl pins : Floors) (p : Nat) : Nat :=
  match fget 0 pins p with
  | 0 => s.viewAt (fget 0 fl p) p
  | n + 1 => n

/-- `n` bytes from a key as an engine reads them, each 8-byte part at a version not before its floor (R194, R313). -/
def State.viewNat (s : State) (fl pins : Floors) : Nat → Nat → Nat → Nat
  | 0, _, _ => 0
  | fuel + 1, key, n =>
    if n = 0 then 0
    else
      let l := min n (8 - key % 8)
      let p := key / 8
      bits ((s.part p).at (s.pinnedAt fl pins p)).toNat (8 * (key % 8)) (8 * l)
        + s.viewNat fl pins fuel (key + l) (n - l) * 2 ^ (8 * l)

/-- The parts of `n` bytes from a key, with the versions that an engine reads of them, as pins. -/
def State.seenOf (s : State) (fl pins : Floors) (key n : Nat) : Floors :=
  if n = 0 then [] else (List.range ((key + n - 1) / 8 + 1 - key / 8)).foldl (fun f j =>
    fset 0 f (key / 8 + j) (s.pinnedAt fl pins (key / 8 + j) + 1)) []

/-! ### Applying writes -/

/-- The distinct values of a function on a list, in order. -/
def distinct (l : List Nat) : List Nat := l.foldl (fun acc x => if acc.contains x then acc else acc ++ [x]) []

/-- The parts that cells touch. -/
def partsOf (cs : List Host.Cell) : List Nat := distinct (cs.map (fun c => c.1 / 8))

/-- All 32 bytes of a sector are among the cells. -/
def coversSector (cs : List Host.Cell) (sec : Nat) : Bool :=
  (List.range 32).all (fun j => cs.any (fun c => c.1 == 32 * sec + j))

/-- The key of the first of some cells that lies in a line. -/
def lineKey (cs : List Host.Cell) (l : Nat) : Option Nat := (cs.find? (fun c => c.1 / 128 == l)).map Prod.fst

/-- The cells a write changes: none in a marked sector that it does not cover (R278), none on a fenced die or behind a
port that is down (R419, R435), and none of device memory once die C has failed (R447). -/
def State.effective (s : State) (cs : List Host.Cell) : List Host.Cell :=
  cs.filter (fun c =>
    if isHost c.1 then !s.marked c.1
    else !s.dieC.stopped && decide (s.dieFence (keyDie c.1) ≠ 2) && (!fget false s.marks (c.1 / 32) || coversSector cs (c.1 / 32)))

/-- A write to a key is dropped whole: its home die is fully fenced, or its host port is down (R419, R435). -/
def State.lost (s : State) (key : Nat) : Bool :=
  if isHost key then !(s.port (keyPort key)).up else decide (s.dieFence (keyDie key) = 2)

/-- A dropped write is counted: in the die's drop counter or in the port's HDROP (R419, R435). -/
def State.countDrop (s : State) (key : Nat) : State :=
  if isHost key then s.setPort (keyPort key) { s.port (keyPort key) with hdrop := bump (s.port (keyPort key)).hdrop }
  else s.setDie (keyDie key) { s.die (keyDie key) with drops := bump (s.die (keyDie key)).drops }

/-- Take the next number of a home slice (R280); a host key has none and gives 0. -/
def State.number (s : State) (key : Nat) : State × Word :=
  if isHost key then (s, 0)
  else
    let n := fget 0 s.wcount (sliceOf key) + 1
    ({ s with wcount := fset 0 s.wcount (sliceOf key) n }, n)

/-- The number of the latest write a home slice has applied. -/
def State.lastNumber (s : State) (key : Nat) : Word := if isHost key then 0 else fget 0 s.wcount (sliceOf key)

/-- Record the present contents of a part as its next version; its sector's mark is still the one that the write met. -/
def State.version (s : State) (a : Agent) (whole : Bool) (old : Part) (p : Nat) : State :=
  { s with parts := fins s.parts p { old with versions := old.versions ++
      [⟨BitVec.ofNat 64 (s.natAt (8 * p) 8), a, s.tick, whole, fget false s.marks (p / 4)⟩] } }

/-- Change bytes of memory and nothing else. -/
def State.poke (s : State) (cs : List Host.Cell) : State :=
  { s with mem := cs.foldl (fun m c => fset Memory.unlisted m c.1 c.2) s.mem }

/-- The write of a line takes the next number of its home slice, or is dropped and counted (R280, R419, R435). -/
def State.takeNumber (s : State) (key : Nat) : State × Word :=
  if s.lost key then (s.countDrop key, 0) else s.number key

/-- Marked sectors that cells cover in part: the write changes none of their bytes (R278). -/
def State.refusedSectors (s : State) (cs : List Host.Cell) : List Nat :=
  (distinct (cs.map (fun (c : Host.Cell) => c.1 / 32))).filter (fun k =>
    !s.dieC.stopped && !isHost (32 * k) && !s.lost (32 * k) && fget false s.marks k && !coversSector cs k)

/-- The RAS records of a write's refused sectors (R278; log entry 66). -/
def State.logRefused (s : State) (cs : List Host.Cell) : State :=
  (s.refusedSectors cs).foldl (fun t k => t.logRas (keyDie (32 * k)) 2 false (sliceOn (32 * k)) (32 * k % 2 ^ 37)) s

/-- Apply one write at its home (R279, R280): marks, bytes, one version for each part, the spins that read its lines (R19), and one
number for each line it reaches; the last of them is told.  `whole` says that it is a whole reservoir record (R239). -/
def State.applyAs (s : State) (whole : Bool) (a : Agent) (cs : List Host.Cell) : State × Word :=
  let eff := s.effective cs
  let olds := (partsOf eff).map (fun p => (p, s.part p))
  let s1 := (s.logRefused cs).poke eff
  let s2 := olds.foldl (fun t e => t.version a whole e.2 e.1) s1
  let s3 := { s2 with marks := (distinct (eff.map (fun (c : Host.Cell) => c.1 / 32))).foldl (fun m k => fset false m k false) s2.marks }
  let s4 := s3.wakeLines (distinct (eff.map (fun (c : Host.Cell) => memLine c.1)))
  (distinct (cs.map (fun (c : Host.Cell) => c.1 / 128))).foldl (fun r l => r.1.takeNumber ((lineKey cs l).getD 0)) (s4, 0)

/-- Apply one write of no whole record. -/
def State.apply (s : State) (a : Agent) (cs : List Host.Cell) : State × Word := s.applyAs false a cs

/-- Apply a write whose number nobody is told. -/
def State.write (s : State) (a : Agent) (cs : List Host.Cell) : State := (s.apply a cs).1

/-! ### Histories that end -/

/-- Floors without some parts. -/
def Floors.without (f : Floors) (gone : Nat → Bool) : Floors := f.filter (fun e => !gone e.1)

/-- A set that writes carry, without some parts. -/
def FenceSet.without (f : FenceSet) (gone : Nat → Bool) : FenceSet := { f with set := Floors.without f.set gone }

/-- A command without what it knows of some parts. -/
def Cmd.forget (c : Cmd) (gone : Nat → Bool) : Cmd :=
  { c with
    writes := Floors.without c.writes gone
    floors := Floors.without c.floors gone
    pins := Floors.without c.pins gone }

/-- A group without what it knows of some parts. -/
def Group.forget (g : Group) (gone : Nat → Bool) : Group :=
  { g with
    low := Floors.without g.low gone
    lowLane := Floors.without g.lowLane gone
    lowRsvs := Floors.without g.lowRsvs gone
    toldLane := Floors.without g.toldLane gone
    toldRsvs := Floors.without g.toldRsvs gone
    lowThrough := Floors.without g.lowThrough gone
    fenced := g.fenced.map (fun c => (c.1, Floors.without c.2 gone))
    fences := g.fences.map (fun f => f.without gone)
    counted := g.counted.map (fun c => (c.1, Floors.without c.2 gone))
    unread := g.unread.map (fun d => { d with writes := Floors.without d.writes gone })
    learnt := g.learnt.map (fun d => { d with writes := Floors.without d.writes gone })
    rays := g.rays.map (fun r => { r with floors := Floors.without r.floors gone })
    hostOps := g.hostOps.map (fun h => { h with sets := h.sets.map (fun f => f.without gone) })
    stores := g.stores.map (fun r => { r with cum := r.cum.map (fun f => f.without gone) }) }

/-- A core's engines without what they know of some parts. -/
def Core.forget (c : Core) (gone : Nat → Bool) : Core :=
  { c with
    copies := c.copies.map (fun d => d.forget gone)
    tun := { c.tun with queue := c.tun.queue.map (fun d => d.forget gone) } }

/-- A team, a Sparge engine, a die and die C without what their commands know of some parts. -/
def Team.forget (t : Team) (gone : Nat → Bool) : Team :=
  { t with
    tun := t.tun.map (fun u => { u with queue := u.queue.map (fun c => c.forget gone) })
    pastLane := Floors.without t.pastLane gone
    pastRsvs := Floors.without t.pastRsvs gone }
def Sparge.forget (e : Sparge) (gone : Nat → Bool) : Sparge := { e with queue := e.queue.map (fun c => c.forget gone) }
def Die.forget (d : Die) (gone : Nat → Bool) : Die :=
  { d with
    grist := d.grist.map (fun c => c.forget gone)
    display := { d.display with wrote := Floors.without d.display.wrote gone } }
def DieC.forget (c : DieC) (gone : Nat → Bool) : DieC :=
  { c with
    early := c.early.map (fun e => (e.1, e.2.1, Floors.without e.2.2 gone))
    comms := fmapVals (fun _ (x : Comm) => { x with cmds := x.cmds.map (fun d => d.forget gone) }) c.comms
    launches := c.launches.map (fun d => d.forget gone)
    port0 := { c.port0 with covered := Floors.without c.port0.covered gone }
    port1 := { c.port1 with covered := Floors.without c.port1.covered gone } }

/-- The history of some parts starts anew with what they hold: nobody knows of an earlier version. -/
def State.forget (s : State) (gone : Nat → Bool) : State :=
  { s with
    parts := s.parts.filter (fun e => !gone e.1)
    groups := fmapVals (fun _ (g : Group) => g.forget gone) s.groups
    cores := fmapVals (fun _ (c : Core) => c.forget gone) s.cores
    teams := fmapVals (fun _ (t : Team) => t.forget gone) s.teams
    sparges := fmapVals (fun _ (e : Sparge) => e.forget gone) s.sparges
    dieA := s.dieA.forget gone
    dieB := s.dieB.forget gone
    dieC := s.dieC.forget gone }

/-! ### Store buffers -/

/-- The path of a request is that of a view. -/
def Request.on (r : Request) (v : View) : Bool := r.rsvs == (v == .rsvs)

/-- The bytes of a group's own stores of a path that are not yet applied, request by request, oldest first. -/
def State.ownRequests (s : State) (k : Nat) (v : View) : List (List Host.Cell) :=
  ((s.grp k).stores.filter (fun r => r.applied.isNone && r.on v)).map Request.cells

/-- The same in one list: a later store stands. -/
def State.ownBytes (s : State) (k : Nat) (v : View) : List Host.Cell := (s.ownRequests k v).flatten

/-- The last value listed for a key. -/
def lastOf (l : List Host.Cell) (key : Nat) : Option Byte :=
  l.foldl (fun r c => if c.1 = key then some c.2 else r) none

/-- Staged plain stores of a group in mode det_stores that are not yet applied, in program order (R293). -/
def State.stagedBytes (s : State) (k : Nat) : List Host.Cell :=
  let g := s.grp k
  let t := s.team g.team
  let e := s.exec (s.detRoot t.exec)
  (e.batches.map (fun q => (q.1, q.2.2)) ++ e.staged).foldl (fun l e =>
    if e.1 = t.teamId.toNat && e.2.group == g.index && e.2.exec == t.exec && e.2.store then l ++ cellsOf e.2.addr e.2.val.toNat e.2.size
    else l) []

/-- How a load of `n` bytes in one part meets the group's own waiting stores. -/
inductive Own where
  | none | whole | partly
  deriving DecidableEq, Repr

/-- Which of the bytes a load wants are in the group's own waiting stores: whole where one request alone waits for the part and covers
them, so that they are bytes of one point of the part's order; partly where another waits, too, since a write of another agent may fall
between the two (R301, R455). -/
def ownCover (rs : List (List Host.Cell)) (key n : Nat) : Own :=
  match rs.filter (fun l => l.any (fun c => c.1 / 8 == key / 8)) with
  | [] => .none
  | [l] => if (List.range n).all (fun j => (lastOf l (key + j)).isSome) then .whole else .partly
  | _ :: _ :: _ => .partly

/-- The version a plain load of a group takes of a part: any that R301 allows, freely (R455). -/
def State.pickVersion (s : State) (k p lo j : Nat) : Nat :=
  let hi := max lo (s.published k p)
  if lo = hi then lo else lo + Config.freeChoice (64 * s.fresh + j) % (hi - lo + 1)

/-- Bytes `o` … `o + n − 1` of a part's contents, as a number. -/
def partBytes (x : Dword) (o n : Nat) : Nat := bits x.toNat (8 * o) (8 * n)

/-- `n` bytes with listed bytes laid over them. -/
def overlay (l : List Host.Cell) (key x : Nat) : Nat → Nat
  | 0 => 0
  | n + 1 =>
    let b := match lastOf l (key + n) with
      | some v => v.toNat
      | none => bits x (8 * n) 8
    overlay l key x n + b * 2 ^ (8 * n)

/-- How a load takes its bytes: its path, whether R161 relaxes it, and whether it goes through a page of host memory that is not
write-back (R315). -/
structure How where
  view : View
  inv : Bool
  through : Bool
  deriving DecidableEq, Repr

/-- The least version a plain load may take, where R161 relaxes it: any held since the launch began. -/
def State.leastFor (s : State) (k p : Nat) (h : How) : Nat :=
  let e := s.exec (s.team (s.grp k).team).exec
  let lo := max (s.least k p h.view) (if h.through then fget 0 (s.grp k).lowThrough p else 0)
  if h.inv || fget false e.inv p then min lo ((s.part p).before e.began) else lo

/-- A plain load of `n` bytes inside one part by a group: the value, and the state with what it has read noted.  `j` numbers
the free choice.  Bytes that the group has staged are laid over all others (R293). -/
def State.loadPart (s : State) (k key n : Nat) (h : How) (j : Nat) : State × Nat :=
  let p := key / 8
  let v := s.pickVersion k p (s.leastFor k p h) j
  let x := partBytes ((s.part p).at v) (key % 8) n
  let y := overlay (s.ownBytes k h.view ++ s.stagedBytes k) key x n
  (s.see k p v, y)

/-- A version of each of some parts as they stood at one time, where a plain load of a group may take each of them (R239, R301). -/
def State.cutAt (s : State) (k : Nat) (h : How) (ps : List Nat) (time : Nat) : Option (List Nat) :=
  let vs := ps.map (fun p => (s.part p).before time)
  if (ps.zip vs).all (fun e => decide (s.leastFor k e.1 h ≤ e.2) && decide (e.2 ≤ max (s.leastFor k e.1 h) (s.published k e.1)))
  then some vs else none

/-- Versions of parts that a single-copy atomic load of them may take together, freely (R159, R239): where no time meets every bound,
those of the time of the latest floor. -/
def State.pickCut (s : State) (k : Nat) (h : How) (ps : List Nat) (j : Nat) : List Nat :=
  let times := 0 :: ps.flatMap (fun p => (s.part p).versions.map Version.time)
  let cs := times.filterMap (s.cutAt k h ps)
  let late := maxOf 0 (ps.map (fun p => let n := s.leastFor k p h; if n = 0 then 0 else ((s.part p).ver n).time))
  nth (ps.map (fun p => (s.part p).before late)) cs (Config.freeChoice (64 * s.fresh + j) % max 1 cs.length)

/-- A plain load of runs of bytes in several parts as one single-copy atomic access (R159, R239): the number of each run, and the state
with what it has read noted. -/
def State.loadCut (s : State) (k : Nat) (h : How) (rs : List (Nat × Nat)) (j : Nat) : State × List Nat :=
  let ps := rs.map (fun r => r.1 / 8)
  let pvs := ps.zip (s.pickCut k h ps j)
  let own := s.ownBytes k h.view ++ s.stagedBytes k
  (pvs.foldl (fun t e => t.see k e.1 e.2) s,
    (rs.zip pvs).map (fun e => overlay own e.1.1 (partBytes ((s.part e.2.1).at e.2.2) (e.1.1 % 8) e.1.2) e.1.2))

/-- The latest value applied, as an acquire or an atomic reads it (R306, R308); an acquire returns the group's staged bytes (R293). -/
def State.loadLatest (s : State) (k key n : Nat) : State × Nat :=
  let p := key / 8
  (s.see k p (s.part p).count, s.natAt key n)

/-- Put a store request in a group's buffer, under the fences that stand (R280, R311). -/
def Group.store (g : Group) (cs : List Host.Cell) (rel : Option Scope) (uc rsvs : Bool) (plane time : Nat) : Group :=
  { g with stores := g.stores ++ [⟨cs, rel, g.fences, time, uc, rsvs, plane, false, 0, false, none, 0, []⟩] }

/-- Two requests write a byte in common. -/
def Request.meets (q r : Request) : Bool := q.cells.any (fun c => r.cells.any (fun d => c.1 == d.1))

/-- A request carries bytes to host memory. -/
def Request.toHost (r : Request) : Bool := r.cells.any (fun c => isHost c.1)

/-- A request is complete for a wait of a scope: acknowledged, and at system scope applied (R281, R315). -/
def Request.doneAt (sc : Scope) (r : Request) : Bool := r.acked && (sc != .sys || r.applied.isSome)

/-- Entries of the reduction buffers that a group made before a time. -/
def State.redsBefore (s : State) (k time : Nat) : Bool :=
  (s.coreOf k).reds.any (fun e => e.group == k && decide (e.time < time))

/-- The writes of a group from before a time are acknowledged at a scope (R305, R311). -/
def State.doneBefore (s : State) (k time : Nat) (sc : Scope) : Bool :=
  (s.grp k).stores.all (fun q => decide (time ≤ q.time) || q.doneAt sc) && !s.redsBefore k time

/-- The writes of a group that a fence covers are all acknowledged (R311). -/
def State.fenceOpen (s : State) (k : Nat) (e : FenceSet) : Bool := s.doneBefore k e.time e.scope

/-- A request may leave the store buffer: a release goes when every earlier write is acknowledged (R305), a write after
FENCE.rel when the writes before the fence are (R311), an uncached one when the earlier host writes are applied (R315), and none before an
earlier one of its path to one of its bytes (R160). -/
def State.maySend (s : State) (k i : Nat) : Bool :=
  let g := s.grp k
  match (g.stores.drop i).head? with
  | none => false
  | some r => !r.sent &&
      (match r.release with
        | none => true
        | some sc => (g.stores.take i).all (Request.doneAt sc) && !s.redsBefore k r.time) &&
      r.cum.all (fun e => s.fenceOpen k e) &&
      (g.stores.take i).all (fun q => q.sent || q.rsvs != r.rsvs || !q.meets r) &&
      (!r.uncached || (g.stores.take i).all (fun q => !q.toHost || q.applied.isSome))

/-- The QOS of a group's launch, which gives its accesses their class (R322). -/
def State.qosOf (s : State) (k : Nat) : Nat := bits (nth 0 (s.exec (s.team (s.grp k).team).exec).record 4).toNat 24 8

/-- A group has a write to a part that is not yet applied. -/
def Group.waitingIn (g : Group) (ps : List Nat) : Bool :=
  g.stores.any (fun r => r.applied.isNone && (partsOf r.cells).any ps.contains)

/-- A group has global writes that a wait of a scope waits for (R310, R315). -/
def Group.unacked (g : Group) (sc : Scope) : Bool := g.stores.any (fun r => !r.doneAt sc) || decide (0 < g.redsOut)

/-- The scope reaches as far as another (R299). -/
def Scope.rank : Scope → Nat
  | .team => 0 | .die => 1 | .pkg => 2 | .sys => 3

/-- What a release or a PHASE of a group publishes at a scope (R305, R310, R313). -/
def State.cumulative (s : State) (k : Nat) (sc : Scope) : Floors :=
  (s.grp k).counted.foldl (fun f e => if Scope.rank sc ≤ Scope.rank e.1 then Floors.join f e.2 else f) (s.known k)

/-- Versions that an earlier write of a group has become enter the sets of the fences that came after it (R311). -/
def Group.noteOwn (g : Group) (time : Nat) (vs : Floors) : Group :=
  let up := fun (e : FenceSet) => if time < e.time then { e with set := Floors.join e.set vs } else e
  { g with fences := g.fences.map up, stores := g.stores.map (fun r => { r with cum := r.cum.map up }) }

/-- A publication of a group at a scope covers its writes from before a time that are still on their way to a host: they are published
as they are applied (R305, R310, R311, R315). -/
def Group.oweTo (g : Group) (sc : Scope) (time : Nat) : Group :=
  { g with stores := g.stores.map (fun r =>
      if r.applied.isNone && decide (r.time < time) && !r.owes.contains sc then { r with owes := r.owes ++ [sc] } else r) }

/-- A group publishes writes to the agents within a scope, and its own of before a time with them (R305, R310, R311). -/
def State.publishAll (s : State) (k : Nat) (e : FenceSet) : State :=
  (s.publish (s.agent k) (.scope e.scope) e.set).onGrp k (fun g => g.oweTo e.scope e.time)

/-- A release's publication, made as its write is applied (R305, R311). -/
def State.publishFor (s : State) (k : Nat) (sets : List FenceSet) : State := sets.foldl (fun t e => t.publishAll k e) s

/-- The scope of an order; a relaxed access has none. -/
def Order.scope : Order → Option Scope
  | .rlx => none | .team => some .team | .die => some .die | .pkg => some .pkg | .sys => some .sys

end Sys2Proof.Machine
end

