-- ==== Sys2Proof/Machine/Translate.lean ====
section
/-!
DEFINITION.  Address translation: page tables, walks and cached translations (R351 to R355).
-/

namespace Sys2Proof.Machine

/-- The fields of a page-table entry (R352). -/
def pteV (e : Dword) : Bool := e.getLsbD 0
def pteR (e : Dword) : Bool := e.getLsbD 1
def pteW (e : Dword) : Bool := e.getLsbD 2
def pteX (e : Dword) : Bool := e.getLsbD 3
def pteA (e : Dword) : Bool := e.getLsbD 4
def pteD (e : Dword) : Bool := e.getLsbD 5
def pteG (e : Dword) : Bool := e.getLsbD 6
def pteKind (e : Dword) : Nat := bits e.toNat 7 2
def pteHome (e : Dword) : Nat := bits e.toNat 9 2
def pteGran (e : Dword) : Nat := bits e.toNat 11 2
def pteSys (e : Dword) : Bool := e.getLsbD 13
def pteMtype (e : Dword) : Nat := bits e.toNat 14 2
def pteHost (e : Dword) : Bool := e.getLsbD 16
def pteZero (e : Dword) : Nat := bits e.toNat 17 7
/-- The physical address an entry holds. -/
def ptePa (e : Dword) : Nat := bits e.toNat 24 40 * 4096

/-- The key of a device physical address under a HOME and an IGRAN (R353). -/
def homeKey (home gran pa : Nat) : Nat :=
  if home = 2 then
    let g := if gran = 0 then 12 else if gran = 1 then 16 else 21
    dieKey (bits pa g 1) (bits pa (g + 1) (37 - g) * 2 ^ g + bits pa 0 g)
  else dieKey home pa

/-- The key of a byte at an offset from an entry's PA. -/
def pteKey (e : Dword) (off : Nat) : Nat :=
  if pteHost e then hostBase + (ptePa e + off) else homeKey (pteHome e) (pteGran e) (ptePa e + off)

/-- The bytes of device memory a HOME can name (R352). -/
def homeSize (home : Nat) : Nat := if home = 2 then 2 ^ 38 else 2 ^ 37

/-- Entry forms. -/
def pteNext : Nat := 0
def pteLeaf : Nat := 1
def pteTable16 : Nat := 2

/-- The KINDs allowed at a level: 0–3, and 4 for a 16-entry table (R351, R352). -/
def kindFits (level kind : Nat) : Bool :=
  if level = 0 then kind == pteNext
  else if level ≤ 2 then kind == pteNext || kind == pteLeaf
  else if level = 3 then kind == pteLeaf || kind == pteTable16
  else kind == pteLeaf

/-- log2 of the bytes an entry of a level maps (R351). -/
def levelShift (level : Nat) : Nat :=
  if level = 0 then 46 else if level = 1 then 36 else if level = 2 then 26 else if level = 3 then 16 else 12

/-- log2 of the alignment an entry's PA needs: its leaf or its table (R351, R352). -/
def pteAlign (level kind : Nat) : Nat :=
  if kind = pteLeaf then levelShift level else if kind = pteTable16 then 12 else 13

/-- A malformed entry (R352). -/
def malformed (level : Nat) (e : Dword) : Bool :=
  let k := pteKind e
  !kindFits level k || pteHome e == 3 || pteGran e == 3
    || decide (ptePa e % 2 ^ pteAlign level k ≠ 0)
    || (k == pteLeaf && (pteMtype e == 3 || pteZero e != 0 || (!pteHost e && pteMtype e != 0)))
    || (k != pteLeaf && pteHost e)
    || (!pteHost e && decide (homeSize (pteHome e) < ptePa e + 2 ^ pteAlign level k))

/-- A found leaf: the entry, its key, the first virtual address and the bytes it maps. -/
structure Leaf where
  entry : Dword
  key : Nat
  va : Nat
  size : Nat
  deriving DecidableEq, Repr

/-- How a walk ends. -/
inductive Walk where
  | leaf (l : Leaf)
  /-- V = 0 (R355). -/
  | absent
  /-- A malformed entry, read at this key. -/
  | bad (key : Nat)
  /-- An entry in a poisoned sector, at this key. -/
  | poisoned (key : Nat)
  deriving DecidableEq, Repr

/-- Walk from the table an entry points to, for the levels that remain (R351, R354). -/
def State.walkFrom (s : State) (va : Nat) : Nat → Nat → Dword → Walk
  | 0, _, _ => .absent
  | fuel + 1, level, up =>
    let n := if level = 4 then 4 else 10
    let key := pteKey up (8 * bits va (levelShift level) n)
    let e := BitVec.ofNat 64 (s.natAt key 8)
    if s.marked key then .poisoned key
    else if !pteV e then .absent
    else if malformed level e then .bad key
    else if pteKind e = pteLeaf then .leaf ⟨e, key, va / 2 ^ levelShift level * 2 ^ levelShift level, 2 ^ levelShift level⟩
    else s.walkFrom va fuel (level + 1) e

/-- A walk from the root of an address space (R351). -/
def State.walk (s : State) (space va : Nat) : Walk :=
  let root := fget 0 s.dieC.asroot space
  if 2 ^ 56 ≤ va then .absent
  else if !pteV root then .absent
  else if pteHost root || pteHome root == 3 || pteGran root == 3 || decide (ptePa root % 8192 ≠ 0)
      || decide (homeSize (pteHome root) < ptePa root + 8192) then .bad (pteKey root 0)
  else s.walkFrom va 5 0 root

/-- The kinds of access that translation tells apart. -/
inductive Access where
  | read | write | fetch | both
  deriving DecidableEq, Repr

/-- The leaf grants an access (R355). -/
def granted (e : Dword) : Access → Bool
  | .read => pteR e
  | .write => pteW e
  | .fetch => pteX e
  | .both => pteR e && pteW e

/-- The cached translations of an address (R354): an entry that has changed stays in some cache until a TLBINV. -/
def State.cached (s : State) (space va : Nat) : List Cached :=
  s.tlb.filter (fun c => (c.space == space || pteG c.leaf) && decide (c.va ≤ va) && decide (va < c.va + c.size))

/-- The entry as it now stands lets a write set D (R354). -/
def State.stillWritable (s : State) (key : Nat) : Bool :=
  let e := BitVec.ofNat 64 (s.natAt key 8)
  pteV e && pteW e

/-- The leaf that a cached translation stands for. -/
def Cached.toLeaf (c : Cached) : Leaf := ⟨c.leaf, c.key, c.va, c.size⟩

/-- A cached translation differs from what a walk now finds, be it by A or D alone. -/
def Cached.stale (fresh : Walk) (c : Cached) : Bool :=
  match fresh with
  | .leaf l => l.entry != c.leaf
  | .absent => true
  | .bad _ => true
  | .poisoned _ => true

/-- The old translations that an access may use: none that a first write would find no longer valid with W (R354). -/
def State.olds (s : State) (space va : Nat) (acc : Access) : List Cached :=
  (s.cached space va).filter (fun c => c.stale (s.walk space va)
    && !((acc == .write || acc == .both) && !pteD c.leaf && !s.stillWritable c.key))

/-- The translation an access uses: a fresh walk, or freely one of the old translations that no TLBINV has ended (R354, R355). -/
def State.translate (s : State) (space va : Nat) (acc : Access) (j : Nat) : Walk :=
  match s.olds space va acc with
  | [] => s.walk space va
  | c :: cs => ((.leaf c.toLeaf) :: cs.map (fun d => .leaf d.toLeaf)).getD
      (Config.freeChoice (64 * s.fresh + j) % (cs.length + 2)) (s.walk space va)

/-- The physical key of an address under its leaf. -/
def Leaf.phys (l : Leaf) (va : Nat) : Nat := pteKey l.entry (va - l.va)

/-- The fault code of a translation for an access, or its leaf: PAGE_NOT_PRESENT 6, PAGE_PERMISSION 7 (R355). -/
def State.access (s : State) (space va : Nat) (acc : Access) (j : Nat) : Except Nat Leaf :=
  match s.translate space va acc j with
  | .leaf l => if granted l.entry acc then .ok l else .error 7
  | .absent => .error 6
  | .bad _ => .error 6
  | .poisoned _ => .error 6

/-- Die C with the registers of the reservoir store in force as they are written: what the checks at issue see, and what a write that
sets EN takes up (R358). -/
def DieC.rsNext (c : DieC) : DieC := { c with rsOn := c.rsctl, rsDimOn := c.rsdim, rsBaseOn := c.rsbase }

/-- Layers, width, height, address space, window and base of the reservoir store that is in force (R358). -/
def DieC.rsLayers (c : DieC) : Nat := bits c.rsOn.toNat 16 4 + 1
def DieC.rsW (c : DieC) : Nat := bits c.rsDimOn.toNat 0 16
def DieC.rsH (c : DieC) : Nat := bits c.rsDimOn.toNat 16 16
def DieC.rsAs (c : DieC) : Nat := bits c.rsOn.toNat 8 8
def DieC.rsWin (c : DieC) : Nat := bits c.rsOn.toNat 24 6
def DieC.rsBase (c : DieC) : Nat := c.rsBaseOn.toNat
/-- Tiles across, down, and across on die A (R359). -/
def DieC.rsTW (c : DieC) : Nat := (c.rsW + 15) / 16
def DieC.rsTH (c : DieC) : Nat := (c.rsH + 15) / 16
def DieC.rsTA (c : DieC) : Nat := (c.rsTW + 1) / 2

/-- Bytes of the backing area (R359). -/
def DieC.rsBytes (c : DieC) : Nat := 8192 * (c.rsLayers * c.rsTH * c.rsTW)

/-- The place of a byte of the backing area: the owning die, the tile's local index there, the byte in the tile (R359). -/
def DieC.rsPlace (c : DieC) (off : Nat) : Nat × Nat × Nat :=
  let tile := off / 8192
  let tx := tile % c.rsTW
  let row := tile / c.rsTW
  if tx < c.rsTA then (0, row * c.rsTA + tx, off % 8192) else (1, row * (c.rsTW - c.rsTA) + (tx - c.rsTA), off % 8192)

/-- A tile of a local index lies in the window (R359). -/
def DieC.rsInWindow (c : DieC) (l : Nat) : Bool := decide (l < 128 * c.rsWin)

/-- The offset of an address in the backing area while the store is on (R359). -/
def State.rsOffset (s : State) (space va : Nat) : Option Nat :=
  let c := s.dieC
  if c.rsPhase ≠ 0 && space == c.rsAs && decide (c.rsBase ≤ va) && decide (va < c.rsBase + c.rsBytes)
  then some (va - c.rsBase) else none

/-- The key that holds a byte of the backing area in the memory of its tile's owning die, HOME and IGRAN ignored (R359). -/
def DieC.backingKey (c : DieC) (l : Leaf) (va off : Nat) : Nat := dieKey (c.rsPlace off).1 ((ptePa l.entry + (va - l.va)) % 2 ^ 37)

/-- The physical key of an address under its leaf: the backing area of the reservoir store has homes of its own (R353,
R359). -/
def State.keyOf (s : State) (space : Nat) (l : Leaf) (va : Nat) : Nat :=
  match s.rsOffset space va with
  | none => l.phys va
  | some off =>
    let p := s.dieC.rsPlace off
    if pteHost l.entry then l.phys va
    else if s.dieC.rsInWindow p.2.1 then windowKey p.1 p.2.1 p.2.2 else s.dieC.backingKey l va off

/-- Note what a failed walk reports: the walk-error counter, or a RAS record (R355). -/
def State.noteWalk (s : State) (space va : Nat) : State :=
  match s.walk space va with
  | .leaf _ => s
  | .absent => s
  | .bad k => s.reports (keyDie k) (fun x => { x with walkErr := bump x.walkErr })
  | .poisoned k => s.logRas (keyDie k) 8 false (sliceOn k) (k % 2 ^ 37)

/-- A cached translation becomes another by the walker's setting of A or D alone. -/
def Cached.grows (c d : Cached) : Bool :=
  c.space == d.space && c.va == d.va && c.size == d.size && c.key == d.key && c.leaf ||| d.leaf == d.leaf && c.leaf ||| 0x30 == d.leaf ||| 0x30

/-- Cache a leaf (R354); translations of the same addresses that other caches hold stay. -/
def State.cache (s : State) (space : Nat) (l : Leaf) : State :=
  let d : Cached := ⟨space, l.va, l.size, l.entry, l.key⟩
  { s with tlb := d :: s.tlb.filter (fun c => !c.grows d) }

/-- The walker sets bits of an entry by one atomic at its home slice, which takes one number (R280, R354). -/
def State.walkerSets (s : State) (l : Leaf) (m : Byte) : State := s.write .dieC [(l.key, s.byteAt l.key ||| m)]

/-- An access goes through a leaf, which is cached: the walker sets A, by an atomic OR, where the leaf as it was read has A = 0; and D
before the first write through a translation with D = 0, by a second atomic that writes only where the entry is still valid with W
(R354). -/
def State.touch (s : State) (space : Nat) (l : Leaf) (writes : Bool) : State :=
  let s1 := if pteA l.entry then s else s.walkerSets l 0x10
  let s2 := if writes && !pteD l.entry && s1.stillWritable l.key then s1.walkerSets l 0x20 else s1
  s2.cache space { l with entry := l.entry ||| 0x10 ||| (if writes then 0x20 else 0) }

/-- Invalidate cached translations of a space: all, or those that meet a range (R259). -/
def State.invalidate (s : State) (space : Nat) (range : Option (Nat × Nat)) : State :=
  { s with tlb := s.tlb.filter (fun c => !((c.space == space || pteG c.leaf) && (match range with
      | none => true
      | some (lo, hi) => decide (c.va < hi) && decide (lo < c.va + c.size)))) }

end Sys2Proof.Machine
end

