-- ==== Sys2Proof/Machine/Network.lean ====
section
/-!
DEFINITION.  The network of the compute dies: its mesh, planes and routes, the classes and virtual channels of its packets, and its
arbiters (R317 to R326, R329).

A router stands at a column 0 to 7 and a row 0 to 3 of the mesh that both dies form: die B's columns follow die A's (R317).
-/

namespace Sys2Proof.Machine

/-! ### Topology -/

/-- A port of a router (R317). -/
inductive Dir where
  | n | e | s | w | l
  deriving DecidableEq, Repr

/-- The ports in the fixed order of R324. -/
def Dir.code : Dir → Nat
  | .n => 0 | .e => 1 | .s => 2 | .w => 3 | .l => 4
def Dir.ofCode (c : Nat) : Option Dir :=
  if c = 0 then some .n else if c = 1 then some .e else if c = 2 then some .s else if c = 3 then some .w else if c = 4 then some .l else none

/-- The column and row of a cluster's router (R317). -/
def meshX (die cluster : Nat) : Nat := 4 * die + cluster % 4
def meshY (cluster : Nat) : Nat := cluster / 4
/-- The die of a column. -/
def colDie (x : Nat) : Nat := x / 4

/-- The router that a port leads to; L leads to the cluster, and S of row 3 to die C (R317). -/
def neighbour (x y : Nat) : Dir → Option (Nat × Nat)
  | .n => if 0 < y then some (x, y - 1) else none
  | .e => if x < 7 then some (x + 1, y) else none
  | .s => if y < 3 then some (x, y + 1) else none
  | .w => if 0 < x then some (x - 1, y) else none
  | .l => none

/-- A port that leads nowhere is absent (R317). -/
def portThere (x y : Nat) (d : Dir) : Bool :=
  decide (x < 8) && decide (y < 4) && ((neighbour x y d).isSome || d == .l || (d == .s && y == 3))

/-- A port of the links between the dies: E of die A's column 3, W of die B's column 0, row for row (R317). -/
def isDieLink (x : Nat) (d : Dir) : Bool := (x == 3 && d == .e) || (x == 4 && d == .w)

/-- Planes of the mesh (R317). -/
def planes : Nat := 8

/-- The router and port that number a plane link, which carries flits both ways: the E port of the link to the west, the S port of the
link to the north (R317; log entry 41). -/
def linkEnd (x y : Nat) : Dir → Nat × Nat × Dir
  | .n => (x, y - 1, .s)
  | .e => (x, y, .e)
  | .s => (x, y, .s)
  | .w => (x - 1, y, .e)
  | .l => (x, y, .l)

/-- The number of the link at a port of a router on a plane. -/
def linkNum (x y : Nat) (d : Dir) (plane : Nat) : Nat :=
  let e := linkEnd x y d
  plane + 8 * (e.2.2.code + 8 * (e.2.1 + 4 * e.1))
/-- The column, row and port of a link number. -/
def linkX (n : Nat) : Nat := n / 256
def linkY (n : Nat) : Nat := n / 64 % 4
def linkPort (n : Nat) : Option Dir := Dir.ofCode (n / 8 % 8)
/-- A plane link of the mesh, or one to die C, has this number. -/
def linkThere (n : Nat) : Bool := match linkPort n with
  | none => false
  | some d => (d == .e || d == .s) && portThere (linkX n) (linkY n) d

/-! ### Planes and routes -/

/-- The plane of a packet that concerns a line (R319). -/
def planeOf (pa : Nat) : Nat := Nat.xor (Nat.xor (bits pa 7 3) (bits pa 10 3)) (bits pa 13 3)
/-- The plane of control messages that concern no line (R319). -/
def controlPlane : Nat := 0
/-- The physical address of a key as a HOME and an IGRAN read it: the inverse of `homeKey` (R353). -/
def homePa (home gran key : Nat) : Nat :=
  if isWindow key then key - windowBase
  else if isHost key then key - hostBase
  else
    let pa := key % 2 ^ 37
    if home = 2 then
      let g := if gran = 0 then 12 else if gran = 1 then 16 else 21
      bits pa g (37 - g) * 2 ^ (g + 1) + keyDie key * 2 ^ g + bits pa 0 g
    else pa

/-- The plane of a packet about the line of a key that is reached through an entry: by the physical address (R319, R352). -/
def entryPlane (e : Dword) (key : Nat) : Nat := planeOf (homePa (pteHome e) (pteGran e) key)

/-- Endpoints of a cluster's crossbar: cores 0–5, slices 6–21, the Sparge engine 22 (R317). -/
def endpoints : Nat := 23

/-- The ends of a packet's way: an endpoint of a cluster, or die C. -/
inductive End where
  | point (die cluster n : Nat)
  | dieC
  deriving DecidableEq, Repr

/-- Along a row to a column, and along a column to a row (R320). -/
def rowHops (x tx y : Nat) : List (Nat × Nat × Dir) :=
  if x < tx then (List.range (tx - x)).map (fun j => (x + j, y, .e)) else (List.range (x - tx)).map (fun j => (x - j, y, .w))
def colHops (x y ty : Nat) : List (Nat × Nat × Dir) :=
  if y < ty then (List.range (ty - y)).map (fun j => (x, y + j, .s)) else (List.range (y - ty)).map (fun j => (x, y - j, .n))

/-- The links that a packet takes, router by router (R320): dimension order, and L at the end; to die C along its column and out by S of
row 3; from die C in by that port in the destination's column.  Traffic between the dies stays in the mesh. -/
def route : End → End → List (Nat × Nat × Dir)
  | .point d c _, .point e f _ =>
    rowHops (meshX d c) (meshX e f) (meshY c) ++ colHops (meshX e f) (meshY c) (meshY f) ++ [(meshX e f, meshY f, .l)]
  | .point d c _, .dieC => colHops (meshX d c) (meshY c) 3 ++ [(meshX d c, 3, .s)]
  | .dieC, .point e f _ => (meshX e f, 3, .s) :: (colHops (meshX e f) 3 (meshY f) ++ [(meshX e f, meshY f, .l)])
  | .dieC, .dieC => []

/-- The links of a route on a plane. -/
def routeLinks (a b : End) (plane : Nat) : List Nat := (route a b).map (fun h => linkNum h.1 h.2.1 h.2.2 plane)

/-- The end at a core, at a cluster's Sparge engine, and at the home of a key: its slice, or die C for host memory (R276, R277). -/
def coreEnd (core : Nat) : End := .point (coreDie core) (core / 16 % 16) (core % 16)
def spargeEnd (n : Nat) : End := .point (n / 16) (n % 16) 22
def homeEnd (key : Nat) : End := if isHost key then .dieC else .point (keyDie key) (sliceOn key / 16) (6 + sliceOn key % 16)

/-! ### Classes and virtual channels -/

/-- The traffic classes (R321). -/
inductive NetClass where
  | sys | lat | std | bulk
  deriving DecidableEq, Repr

/-- The codes of the classes (R321). -/
def NetClass.code : NetClass → Nat
  | .sys => 0 | .lat => 1 | .std => 2 | .bulk => 3
def NetClass.ofCode (c : Nat) : NetClass := if c = 0 then .sys else if c = 1 then .lat else if c = 2 then .std else .bulk

/-- The virtual channel of a class: for requests and control messages, and for responses and acknowledgements (R321). -/
def NetClass.vc (c : NetClass) (response : Bool) : Nat := 2 * c.code + if response then 1 else 0
/-- The class of a virtual channel. -/
def vcClass (vc : Nat) : NetClass := .ofCode (vc / 2 % 4)

/-- The class that QOS selects (R322). -/
def qosClass (q : Nat) : NetClass := if q = 0 then .std else if q = 1 then .lat else .bulk

/-- The kinds of traffic that R322 tells apart.  `ticket` is a batch that the ticket unit applies; `control` is a halt, an
invalidation, a barrier or dispatch message, a token written from outside the core, or a RAS record. -/
inductive Traffic where
  | lane | copy | tun | ray | smp | rsvs | rast | grist | coll | ticket | host | disp | control
  deriving DecidableEq, Repr

/-- The class of a kind of traffic of a launch (R322); responses and acknowledgements take that of their request. -/
def Traffic.netClass (q : Nat) : Traffic → NetClass
  | .lane => qosClass q
  | .copy => if q = 1 then .std else .bulk
  | .tun => qosClass q
  | .ray => qosClass q
  | .smp => qosClass q
  | .rsvs => qosClass q
  | .rast => qosClass q
  | .grist => qosClass q
  | .coll => qosClass q
  | .ticket => qosClass q
  | .host => .std
  | .disp => .sys
  | .control => .sys

/-- The packets of the network (R318). -/
inductive Packet where
  | readRequest | readResponse | smallAtomic | control | ack
  /-- A write or an atomic with more than 16 bytes of data. -/
  | bigWrite
  deriving DecidableEq, Repr

/-- A response or an acknowledgement (R321). -/
def Packet.response : Packet → Bool
  | .readRequest => false | .readResponse => true | .smallAtomic => false | .control => false | .ack => true | .bigWrite => false
/-- The packets by number, in the order of R318's table (log entry 41). -/
def Packet.ofCode (c : Nat) : Option Packet :=
  match c with
  | 0 => some .readRequest | 1 => some .smallAtomic | 2 => some .control | 3 => some .readResponse | 4 => some .bigWrite | 5 => some .ack
  | _ => none

/-- The flits of a packet (R318). -/
def Packet.flits : Packet → Nat
  | .readRequest => 1 | .readResponse => 1 | .smallAtomic => 1 | .control => 1 | .ack => 1 | .bigWrite => 2

/-! ### Links that train -/

/-- A link with nothing to remember. -/
def Link.idle : Link := ⟨0, false⟩
/-- What a link remembers. -/
def State.linkAt (s : State) (n : Nat) : Link := fget Link.idle s.links n
/-- Replace it. -/
def State.setLink (s : State) (n : Nat) (x : Link) : State := { s with links := fset Link.idle s.links n x }

/-- No link of a route trains: while one does, its flits wait (R327, R329). -/
def State.wayOpen (s : State) (a b : End) (plane : Nat) : Bool := (routeLinks a b plane).all (fun n => !(s.linkAt n).training)

/-- A packet and its answer find their way open, both on one plane (R319). -/
def State.waysOpen (s : State) (a b : End) (plane : Nat) : Bool := s.wayOpen a b plane && s.wayOpen b a plane

/-- The end at a group's core. -/
def State.groupEnd (s : State) (k : Nat) : End := coreEnd (s.team (s.grp k).team).core

/-- The way between a group's core and the home of a key on a plane, and the way of the response or acknowledgement. -/
def State.wayTo (s : State) (k key plane : Nat) : Bool := s.wayOpen (s.groupEnd k) (homeEnd key) plane
def State.wayBack (s : State) (k key plane : Nat) : Bool := s.wayOpen (homeEnd key) (s.groupEnd k) plane

/-- A control message between die C and a group's core, or a core, finds its way open (R319, R322). -/
def State.controlOpen (s : State) (core : Nat) : Bool := s.waysOpen .dieC (coreEnd core) controlPlane

/-! ### Packets that keep their order -/

/-- The virtual channel of a group's requests of a kind (R321, R322). -/
def State.vcOf (s : State) (k : Nat) (t : Traffic) : Nat := (t.netClass (s.qosOf k)).vc false

/-- Where packets about a key go that keep their order: its home slice; about host memory, its line (R323). -/
def routeOf (key : Nat) : Nat := if isHost key then 2 ^ 60 + key / 128 else sliceOf key

/-- Where the packets of a request go. -/
def Request.routes (r : Request) : List Nat := distinct (r.cells.map (fun c => routeOf c.1))

/-- The request has left, and its acknowledgement has not come back or it is not applied. -/
def Request.away (r : Request) : Bool := r.sent && !(r.applied.isSome && r.acked)

/-- Requests of a core in a virtual channel on a plane to one of some places, that satisfy a test (R323). -/
def State.anyRequest (s : State) (core vc plane : Nat) (to_ : List Nat) (f : Request → Bool) : Bool :=
  s.groups.any (fun e => (s.team e.2.team).core == core && s.vcOf e.1 .lane == vc &&
    e.2.stores.any (fun q => q.plane == plane && q.routes.any to_.contains && f q))

/-- Requests to one place have left a group's core before, on the plane and in the virtual channel of its packet of a kind, and they or
their acknowledgements are still on their way (R323). -/
def State.behind (s : State) (k : Nat) (t : Traffic) (key plane : Nat) : Bool :=
  s.anyRequest (s.team (s.grp k).team).core (s.vcOf k t) plane [routeOf key] Request.away

/-- A packet of a group about a key may go and be answered now: its ways are open (R327), and it overtakes nothing (R323). -/
def State.mayGo (s : State) (k : Nat) (t : Traffic) (key plane : Nat) : Bool :=
  s.wayTo k key plane && s.wayBack k key plane && !s.behind k t key plane

/-- A request that left before on the same way is not yet applied (R323). -/
def State.overtakes (s : State) (k : Nat) (r : Request) : Bool :=
  s.anyRequest (s.team (s.grp k).team).core (s.vcOf k .lane) r.plane r.routes
    (fun q => q.sent && q.applied.isNone && decide (q.sentAt < r.sentAt))

/-- An acknowledgement of the same way that was sent before has not come back (R281, R323). -/
def State.ackOvertakes (s : State) (k : Nat) (r : Request) : Bool :=
  s.anyRequest (s.team (s.grp k).team).core (s.vcOf k .lane) r.plane r.routes
    (fun q => q.applied.isSome && !q.acked && decide (q.appliedAt < r.appliedAt))

/-- A sent request may be applied: no earlier request of its path to one of its bytes waits (R160, R239, R285), and none that was sent
before it on its way (R323). -/
def State.mayApply (s : State) (k i : Nat) : Bool :=
  let g := s.grp k
  match (g.stores.drop i).head? with
  | none => false
  | some r => r.sent && r.applied.isNone && !s.overtakes k r &&
      (g.stores.take i).all (fun q => q.applied.isSome || q.rsvs != r.rsvs || !q.meets r)

/-! ### Arbiters -/

/-- An arbiter at its start: the pointer at the first requester (R324). -/
def Arbiter.start : Arbiter := ⟨0, 0, 0, 0, []⟩
/-- The arbiter of a number: an even one 2 n of a router's output n = plane + 8 · (port + 8 · (row + 4 · column)); an odd one of an
endpoint, 4 · point + 1 of what it sends and 4 · point + 3 of what it accepts (log entry 41). -/
def State.arbiter (s : State) (a : Nat) : Arbiter := fget Arbiter.start s.arbiters a
/-- Replace it. -/
def State.setArbiter (s : State) (a : Nat) (x : Arbiter) : State := { s with arbiters := fset Arbiter.start s.arbiters a x }

/-- An arbiter of a router. -/
def atRouter (a : Nat) : Bool := a % 2 == 0
/-- The endpoint of an arbiter, counted by die, cluster and endpoint; each has one for sending and one for delivery (R317, R324). -/
def arbiterPoint (a : Nat) : Nat := a / 4
/-- The router output or the endpoint of an arbiter is there (R317). -/
def arbiterThere (a : Nat) : Bool :=
  if atRouter a then (linkPort (a / 2)).any (portThere (linkX (a / 2)) (linkY (a / 2))) else decide (arbiterPoint a < 2 * 16 * endpoints)
/-- The die of an arbiter: of its router, or of its endpoint. -/
def arbiterDie (a : Nat) : Nat := if atRouter a then colDie (linkX (a / 2)) else arbiterPoint a / (16 * endpoints)
/-- Its requesters, in the fixed order: ports and VCs of a router, planes and VCs of an endpoint (R324). -/
def requesters (a : Nat) : Nat := if atRouter a then 40 else 64

/-- AGEP of an arbiter, from its die's NETARB (R324, R326): AGEPR × 4 network cycles, or AGEPE arithmetic cycles. -/
def ageLimit (netarb : Word) (a : Nat) : Nat := if atRouter a then 4 * bits netarb.toNat 24 6 else bits netarb.toNat 18 6
/-- The weight of a requester's class (R321, R326). -/
def netWeight (netarb : Word) (req : Nat) : Nat := bits netarb.toNat (4 * (vcClass (req % 8)).code) 4 + 1

/-- The first of some requesters in the fixed order of `n` from one on, cyclically. -/
def firstFrom (n from_ : Nat) (rs : List Nat) : Option Nat := ((List.range n).map (fun j => (from_ + j) % n)).find? rs.contains

/-- The promoted head packets among the eligible ones that were promoted in the earliest cycle (R324). -/
def Arbiter.promoted (x : Arbiter) (rs : List Nat) : List Nat :=
  let ps := x.heads.filterMap (fun h => if rs.contains h.req then h.promo.map (fun c => (h.req, c)) else none)
  match ps with
  | [] => []
  | p :: _ => (ps.filter (fun q => q.2 == minOf p.2 (ps.map Prod.snd))).map Prod.fst

/-- What an arbiter may see as a head packet: a requester of its own, and a packet of R318's table in a virtual channel of its kind
(R321). -/
def headFlits (n : Nat) (h : Nat × Nat) : Option (Nat × Nat) :=
  match Packet.ofCode h.2 with
  | none => none
  | some p => if decide (h.1 < n) && h.1 % 8 == (vcClass (h.1 % 8)).vc p.response then some (h.1, p.flits) else none

/-- The grant of R324 among eligible head packets, each a requester and the flits of its packet: who is granted, and the arbiter with its
pointer and burst. -/
def Arbiter.grant (x : Arbiter) (n : Nat) (weight : Nat → Nat) (elig : List (Nat × Nat)) : Option Nat × Arbiter :=
  let rs := elig.map Prod.fst
  let flits := fun r => ((elig.find? (fun e => e.1 == r)).map Prod.snd).getD 1
  match firstFrom n x.ptr (x.promoted rs) with
  | some g => (some g, { x with busy := flits g - 1 })
  | none =>
    if rs.contains x.ptr && decide (x.burst < weight x.ptr) then
      (some x.ptr, { x with burst := x.burst + flits x.ptr, busy := flits x.ptr - 1 })
    else match firstFrom n (x.ptr + 1) rs with
      | none => (none, x)
      | some p => (some p, { x with ptr := p, burst := flits p, busy := flits p - 1 })

/-- An eligible head packet that is not being sent grows older, and is promoted when its age reaches AGEP (R324). -/
def Arbiter.grow (x : Arbiter) (agep r : Nat) : Arbiter :=
  let h := (x.heads.find? (fun h => h.req == r)).getD ⟨r, 0, none⟩
  let a := h.age + 1
  { x with heads := x.heads.filter (fun h => h.req != r) ++ [⟨r, a, if a = agep then some x.cycle else h.promo⟩] }

/-- One cycle of an arbiter (R324): a grant where the output is free, whose packet leaves, and the ages of the rest. -/
def Arbiter.turn (x : Arbiter) (n agep : Nat) (weight : Nat → Nat) (elig : List (Nat × Nat)) : Option Nat × Arbiter :=
  let (g, y) := if x.busy = 0 then x.grant n weight elig else (none, { x with busy := x.busy - 1 })
  let rest := (elig.map Prod.fst).filter (fun r => some r != g)
  let z := rest.foldl (fun y r => y.grow agep r) { y with heads := y.heads.filter (fun h => some h.req != g) }
  (g, { z with cycle := z.cycle + 1 })

end Sys2Proof.Machine
end

