-- ==== Sys2Proof/Machine/Flags.lean ====
section
/-!
DEFINITION.  The exception flags of a unit, and the trap they may raise (R77 to R80).
-/

namespace Sys2Proof.Machine

/-- The flags of all ACTIVE lanes together (R79). -/
def orFlags (f : Nat → Flags) (ls : List Nat) : Flags := ls.foldl (fun a i => a ||| f i) 0

/-- The flags that TRAPCTL enables, in FLAGS order (R252). -/
def Group.enabled (g : Group) : Flags := g.csr.trapctl.setWidth 4

/-- FP_EXCEPTION after the unit, when a lane raised an enabled flag (R80): TLANE the lowest such lane, TVAL the enabled
flags raised by any lane. -/
def State.fpTrap (s : State) (f : Nat → Flags) : State :=
  let on := s.pre.enabled
  let got := orFlags f s.acts &&& on
  if got = 0 then s
  else
    let l := minOf 0 (s.acts.filter (fun i => f i &&& on != 0))
    s.addAfter (s.afterCause 0x13 (got.setWidth 32) 0 l)

/-- Set FLAGS at once and keep the trap for the end of the unit (R79, R80). -/
def State.raiseFlags (s : State) (f : Nat → Flags) : State :=
  (s.onMe (fun g => g.addFlags (orFlags f s.acts))).fpTrap f

end Sys2Proof.Machine
end

