-- ==== Sys2Proof/Machine/Operands.lean ====
section
/-!
DEFINITION.  Operand forms: what an instruction names, the checks of its operands before it takes effect, and the
delivery of its results (R31, R33, R35, R43, R45, R85, R156, R271).
-/

namespace Sys2Proof.Machine

/-- The meaning of an instruction. -/
abbrev Meaning := State → Answer

/-- The registers an instruction names, each as a first register and a count. -/
structure Need where
  /-- Vector sources and vector destinations. -/
  vs : List (Nat × Nat)
  vd : List (Nat × Nat)
  /-- Scalar sources and scalar destinations, tokens among them. -/
  ss : List (Nat × Nat)
  sd : List (Nat × Nat)
  deriving DecidableEq, Repr

/-- The registers of runs. -/
def expand (l : List (Nat × Nat)) : List Nat := l.flatMap (fun r => (List.range r.2).map (fun k => r.1 + k))

/-- A vector register at or above the group's budget is named (R156). -/
def Need.over (n : Need) (budget : Nat) : Bool := (n.vs ++ n.vd).any (fun r => decide (budget < r.1 + r.2))

/-- The value of a vector source in a lane, as before the unit (R31). -/
def State.rv (s : State) (i r : Nat) : Word := s.pre.getV i r
/-- The value of a scalar source, as before the unit. -/
def State.rs (s : State) (r : Nat) : Word := s.pre.getS r
/-- The value of a predicate, as before the unit. -/
def State.rp (s : State) (i r : Nat) : Bool := s.pre.getP i r
/-- A vector pair. -/
def State.rv2 (s : State) (i r : Nat) : Dword := pairVal (s.rv i r) (s.rv i (r + 1))
/-- A scalar pair. -/
def State.rs2 (s : State) (r : Nat) : Dword := pairVal (s.rs r) (s.rs (r + 1))

/-- The TVAL of POISON_CONSUMED in a lane, where a source is poisoned: the lowest register; kind 0 vector, 1 scalar
(R266, R272). -/
def State.poisonAt (s : State) (n : Need) (i : Nat) : Option Word :=
  let v := (expand n.vs).filter (fun r => s.pre.vPoison i r)
  let t := (expand n.ss).filter (fun r => s.pre.sPoison r)
  match v, t with
  | [], [] => none
  | r :: rs, [] => some (BitVec.ofNat 32 (minOf r (r :: rs)))
  | [], r :: rs => some (BitVec.ofNat 32 (minOf r (r :: rs) + 256))
  | r :: rs, q :: qs =>
    let a := minOf r (r :: rs)
    let b := minOf q (q :: qs)
    some (BitVec.ofNat 32 (if a ≤ b then a else b + 256))

/-- The cause of a poisoned source in a lane. -/
def State.poisonCause (s : State) (n : Need) (i : Nat) : Option Cause :=
  (s.poisonAt n i).map (fun t => s.cause 0x0A t 0 i)

/-- The first lane with a cause, lowest lane first (R14). -/
def firstCause (f : Nat → Option Cause) : List Nat → Option Cause
  | [] => none
  | i :: is => match f i with
    | some c => some c
    | none => firstCause f is

/-- A scalar source that is a pending token (R45). -/
def State.tokenAt (s : State) (rs : List Nat) : Option Nat := rs.find? (fun r => s.pre.pending r)

/-- ILLEGAL_INSTR of the current member (R47, R267). -/
def State.illegal (s : State) : Cause := s.cause 0x01 s.unit.word 0 s.lead

/-- PRIV of the current member. -/
def State.priv (s : State) : Cause := s.cause 0x02 s.unit.word 0 s.lead

/-- The cause that stops a member before the unit takes effect (R33): a pending token written, by the instructions of R86 too, which names
no such fault, as by any other (R45; DESIGN CHOICE, log entry 87); or in the lowest lane that fails a poisoned source or a failed check of
the instruction's own.  A lane with both reports the poisoned source: the spec gives no
order (R33, R125, R271; DESIGN CHOICE, log entry 64). -/
def State.stopCause (s : State) (n : Need) (chk : Nat → Option Cause) : Option Cause :=
  match s.tokenAt (expand n.sd) with
  | some r => some (s.cause 0x0E (BitVec.ofNat 32 r) 0 s.lead)
  | none => firstCause (fun i => match s.poisonCause n i with
      | some c => some c
      | none => chk i) s.acts

/-- The unit waits (R17): nothing takes effect, and the lanes stay at its first member. -/
def State.block (s : State) (waits : List (Nat × WaitOn)) : State :=
  let m := maskOf (fun i => (waits.map Prod.fst).contains i) s.pre.width
  let since := match s.me.blocked with
    | some b => if b.addr = s.unit.first then b.since else s.now
    | none => s.now
  let t := s.onMe (fun g => { g with blocked := some ⟨s.unit.first, m, since, waits⟩ })
  { t with unit := { t.unit with blocked := true } }

/-- A check that fails: the trap is taken, or, where the unit has granted the member further instructions, the fault is kept
for them (R44). -/
def State.fail (s : State) (la : Nat) (c : Cause) : State :=
  if la = 0 then s.raise c
  else if s.unit.grace = 0 then
    let t := s.raise c
    { t with unit := { t.unit with late := la } }
  else s.onMe (fun g => { g with looks := g.looks ++ [⟨[], s.acts.map (fun i => (i, s.unit.grace)), 0, some c⟩] })

/-- The group reads token registers: it knows that their commands are complete (R193), and it sees the records of a
SPARGE command (R365). -/
def State.learn (s : State) (rs : List Nat) : State :=
  if s.me.unread.any (fun d => rs.contains d.tok) then
    s.onMe (fun g =>
      let ds := g.unread.filter (fun d => rs.contains d.tok)
      { g with
        unread := g.unread.filter (fun d => !rs.contains d.tok)
        learnt := g.learnt ++ ds
        toldRsvs := (ds.filter (fun d => d.path == 5)).foldl (fun f d => Floors.join f d.writes) g.toldRsvs })
  else s

/-- Issue one member: the checks of R33, the wait for a pending token (R45), then the effect.  A member that reads a pending token
and writes one waits first, and raises TOKEN_FAULT once no token that it reads is pending: R45 gives both and no order (DESIGN
CHOICE, log entry 65). -/
def issue (n : Need) (chk : State → Nat → Option Cause) (la : Nat) (eff : State → State) (s : State) : Answer :=
  if n.over s.pre.budget then .next (s.raise s.illegal)
  else match s.tokenAt (expand n.ss) with
    | some r => .next (s.block (s.acts.map (fun i => (i, .token r))))
    | none => match s.stopCause n (chk s) with
      | some c => .next (s.fail la c)
      | none => .next (eff (s.learn (expand n.ss)))

/-- No check beyond the operands'. -/
def noCheck (_ : State) (_ : Nat) : Option Cause := none

/-- The member can take effect: no register beyond the budget, no pending token, no poisoned source, no failed check. -/
def State.clear (s : State) (n : Need) (chk : State → Nat → Option Cause) : Bool :=
  !n.over s.pre.budget && (s.tokenAt (expand n.ss)).isNone && (s.stopCause n (chk s)).isNone

/-! ### Results -/

/-- The destinations of a lane's result words, from a register on. -/
def destsAt (key : Nat) : List Word → List Dest
  | [] => []
  | w :: ws => ⟨key, w, false⟩ :: destsAt (key + 1) ws

/-- The destinations of the ACTIVE lanes' result words. -/
def State.dests (s : State) (d : Nat) (res : Nat → List Word) : List Dest :=
  s.acts.flatMap (fun i => destsAt (vkey i d) (res i))

/-- Deliver result words and flags: at once with LA = 0; with LA = n they are written while up to n further
instructions of the lanes run (R43). -/
def State.deliver (s : State) (la : Nat) (ds : List Dest) (fl : Flags) : State :=
  s.onMe (fun g =>
    if la = 0 then (g.write ds).addFlags fl
    else { g with looks := g.looks.map (Look.drop (ds.map Dest.key)) ++ [⟨ds, s.acts.map (fun i => (i, la)), fl, none⟩] })

/-- The effect of a vector instruction: each ACTIVE lane's result words from register `d` on, and its flags (R85). -/
def State.vecResult (s : State) (la d : Nat) (res : Nat → List Word) (fl : Nat → Flags) : State :=
  (s.deliver la (s.dests d res) (orFlags fl s.acts)).fpTrap fl

/-- The effect of an instruction that writes a predicate in each ACTIVE lane (R85). -/
def State.predResult (s : State) (p : Nat) (f : Nat → Bool) : State :=
  s.onMe (fun g => s.acts.foldl (fun g i => g.putP i p (f i)) g)

/-- Write a scalar once for the issue (R16). -/
def State.putS (s : State) (r : Nat) (w : Word) : State := s.onMe (fun g => g.putS r w false)

/-- Write a scalar pair once for the issue. -/
def State.putS2 (s : State) (r : Nat) (x : Dword) : State :=
  s.onMe (fun g => (g.putS r (pairLo x) false).putS (r + 1) (pairHi x) false)

/-- The second operand of a vector instruction or of its "-s" form: read once for the unit when it is a scalar. -/
def State.rb (s : State) (sc : Bool) (i b : Nat) : Word := if sc then s.rs b else s.rv i b

/-- What a three-register vector instruction names: `c` when it reads the old D, `sc` when B is a scalar. -/
def need3 (c sc : Bool) (d a b : Nat) : Need :=
  ⟨(a, 1) :: (if sc then [] else [(b, 1)]) ++ (if c then [(d, 1)] else []), [(d, 1)], if sc then [(b, 1)] else [], []⟩

/-- A three-register vector instruction on words (R85). -/
def lane3 (c sc : Bool) (d a b : Reg) (f : Word → Word → Word → Word × Flags) : Meaning :=
  issue (need3 c sc d.toNat a.toNat b.toNat) noCheck 0 (fun s =>
    let r := fun i => f (s.rv i a.toNat) (s.rb sc i b.toNat) (s.rv i d.toNat)
    s.vecResult 0 d.toNat (fun i => [(r i).1]) (fun i => (r i).2))

/-- The same for a function of a and b that raises no flag. -/
def lane2 (sc : Bool) (d a b : Reg) (f : Word → Word → Word) : Meaning :=
  lane3 false sc d a b (fun x y _ => (f x y, 0))

/-- What a unary vector instruction names. -/
def need2 (d a : Nat) : Need := ⟨[(a, 1)], [(d, 1)], [], []⟩

/-- A unary vector instruction, with lookahead where its major has LA (R85, R87). -/
def lane1 (la : La) (d a : Reg) (f : State → Word → Word × Flags) : Meaning :=
  issue (need2 d.toNat a.toNat) noCheck la.toNat (fun s =>
    s.vecResult la.toNat d.toNat (fun i => [(f s (s.rv i a.toNat)).1]) (fun i => (f s (s.rv i a.toNat)).2))

/-- What an instruction on register pairs names: B is a pair where `b2` holds (R89). -/
def needPair (sc b2 : Bool) (d a b : Nat) : Need :=
  let n := if b2 then 2 else 1
  ⟨(a, 2) :: (if sc then [] else [(b, n)]), [(d, 2)], if sc then [(b, n)] else [], []⟩

/-- The words of a 64-bit result. -/
def pairWords (x : Dword) : List Word := [pairLo x, pairHi x]

/-- A vector instruction on pairs (R89, R111). -/
def lanePair (sc : Bool) (d a b : Reg) (f : Dword → Dword → Dword) : Meaning :=
  issue (needPair sc true d.toNat a.toNat b.toNat) noCheck 0 (fun s =>
    s.vecResult 0 d.toNat
      (fun i => pairWords (f (s.rv2 i a.toNat) (if sc then s.rs2 b.toNat else s.rv2 i b.toNat))) (fun _ => 0))

/-- LEAk: a pair base and a 32-bit index (R89). -/
def laneLea (sc : Bool) (k : Nat) (d a b : Reg) : Meaning :=
  issue (needPair sc false d.toNat a.toNat b.toNat) noCheck 0 (fun s =>
    s.vecResult 0 d.toNat (fun i => pairWords (aluLea k (s.rv2 i a.toNat) (s.rb sc i b.toNat))) (fun _ => 0))

/-- What a compare names. -/
def needCmp (sc : Bool) (a b : Nat) : Need :=
  ⟨(a, 1) :: (if sc then [] else [(b, 1)]), [], if sc then [(b, 1)] else [], []⟩

/-- A compare into a predicate (R92, R103). -/
def laneCmp (sc : Bool) (d : Pred) (a b : Reg) (f : Word → Word → Bool × Flags) : Meaning :=
  issue (needCmp sc a.toNat b.toNat) noCheck 0 (fun s =>
    let r := fun i => f (s.rv i a.toNat) (s.rb sc i b.toNat)
    (s.predResult d.toNat (fun i => (r i).1)).raiseFlags (fun i => (r i).2))

/-- An immediate instruction (R93, R94). -/
def laneImm (d a : Reg) (f : Word → Word) : Meaning := lane1 0 d a (fun _ x => (f x, 0))

/-- A three-scalar instruction, once for the issue (R96). -/
def scalar3 (d a b : Reg) (f : Word → Word → Word) : Meaning :=
  issue ⟨[], [], [(a.toNat, 1), (b.toNat, 1)], [(d.toNat, 1)]⟩ noCheck 0 (fun s =>
    s.putS d.toNat (f (s.rs a.toNat) (s.rs b.toNat)))

end Sys2Proof.Machine
end

