-- ==== Sys2Proof/Machine/LoadStore.lean ====
section
/-!
DEFINITION.  Loads and stores of lanes: global, invariant, private, constant and scratchpad (R157 to R164, R454).
-/

namespace Sys2Proof.Machine

/-- The executing group's address space: AS of its slot record (R339). -/
def State.space (s : State) : Nat := bits (nth 0 s.myExec.record 9).toNat 8 8

/-- DETERMINISM of the executing group's launch (R339): 0 fast, 1 det, 2 det_stores. -/
def State.detMode (s : State) : Nat := s.myExec.detMode

/-- An instruction of the unit had an effect that ends a null iteration (R18). -/
def State.effect (s : State) : State := { s with unit := { s.unit with effect := true } }

/-- Note the lines that each ACTIVE lane of the tracked path reads, for the spin detector (R18); nine tell that they are more
than eight. -/
def State.noteReads (s : State) (ls : Nat → List Nat) : State :=
  s.onMe (fun g =>
    let new := (s.acts.filter (fun i => g.spin.lanes.getLsbD i)).flatMap ls
    { g with spin := { g.spin with lines := (distinct (g.spin.lines ++ new)).take 9 } })

/-- The unit is held without parking, and tried again (R249). -/
def State.stall (s : State) : State := s.block []

/-- The group is held no more. -/
def State.unhold (s : State) : State := s.onMe (fun g => { g with hold := .none })

/-- A member that waits for an event (R249): done when the event has come; at once when nothing is outstanding; otherwise the issue is
held.  What an earlier member of its unit holds the group for, an AtomicOp at its host, stands beside it (log entry 10). -/
def State.gate (s : State) (h : Hold) (free : Bool) (eff : State → State) : State :=
  let done := if s.me.hold = s.pre.hold then s.unhold else s
  match s.passedAs h.kind with
  | some none => done
  | some (some c) => done.raise (s.cause c.code c.tval c.tvalh s.lead)
  | none =>
    if s.pre.hold.waits then s.stall
    else if free then eff s
    else if s.me.hold = .none then (s.onMe (fun g => { g with hold := h })).stall
    else s.stall

/-- The runs of an access inside 8-byte parts: first address and length of each (R159, R455). -/
def runs : Nat → Nat → Nat → List (Nat × Nat)
  | 0, _, _ => []
  | fuel + 1, a, n =>
    if n = 0 then []
    else
      let l := min n (8 - a % 8)
      (a, l) :: runs fuel (a + l) (n - l)

/-- The runs of an access of at most 32 bytes. -/
def runsOf (a n : Nat) : List (Nat × Nat) := runs 5 a n

/-- A cause at an address (R267). -/
def State.addrCause (s : State) (code a i : Nat) : Cause :=
  s.cause code (BitVec.ofNat 32 a) (BitVec.ofNat 32 (a / 2 ^ 32)) i

/-- The fault code of an access whose pages refuse it: PAGE_NOT_PRESENT of any of them before PAGE_PERMISSION (R159). -/
def State.pageFault (s : State) (space : Nat) (acc : Access) : List (Nat × Nat) → Option Nat
  | [] => none
  | r :: rs =>
    let here := match s.access space r.1 acc 0 with
      | .error c => some c
      | .ok _ => none
    let rest := s.pageFault space acc rs
    if here = some 6 || rest = some 6 then some 6 else if here.isSome then here else rest

/-- The checks of an access of `n` bytes at a virtual address: the segment, alignment of the address operand, then the
pages (R159). -/
def State.vaCheck (s : State) (inSeg : Bool) (operand va n : Nat) (acc : Access) (i : Nat) : Option Cause :=
  if !inSeg then some (s.addrCause 0x04 operand i)
  else if operand % n ≠ 0 then some (s.addrCause 0x05 operand i)
  else (s.pageFault s.space acc (runsOf va n)).map (fun c => s.addrCause c operand i)

/-- The spaces whose addresses are translated. -/
inductive VSpace where
  | global | constant | priv
  deriving DecidableEq, Repr

/-- The address operand of a lane (R158). -/
def State.operandOf (s : State) (sp : VSpace) (x : Bool) (a i : Nat) : Nat :=
  match sp with
  | .global => (if x then s.rs2 a else s.rv2 i a).toNat
  | .constant => (if x then s.rs2 a else s.rv2 i a).toNat
  | .priv => (if x then s.rs a else s.rv i a).toNat

/-- The virtual address of an access (R158).  A private one is formed mod 2^64, and beyond 2^56 it translates to nothing: the spec
states neither (DESIGN CHOICE, log entry 68). -/
def State.vaOf (s : State) (sp : VSpace) (x : Bool) (a i : Nat) : Nat :=
  let o := s.operandOf sp x a i
  match sp with
  | .global => o
  | .constant => o
  | .priv =>
    let g := s.pre.seg
    (g.pb.toNat + (s.myTeam.teamId.toNat * 1024 + s.pre.logical i) * g.pl.toNat + o) % 2 ^ 64

/-- The segment check of R158. -/
def State.inSegment (s : State) (sp : VSpace) (o n : Nat) : Bool :=
  let g := s.pre.seg
  match sp with
  | .global => decide (g.gb.toNat ≤ o) && decide (o + n ≤ g.gl.toNat)
  | .constant => decide (g.kb.toNat ≤ o) && decide (o + n ≤ g.kl.toNat)
  | .priv => decide (o + n ≤ g.pl.toNat)

/-- All checks of a lane's access in a translated space (R159). -/
def memCheck (sp : VSpace) (x : Bool) (a : Reg) (n : Nat) (acc : Access) (s : State) (i : Nat) : Option Cause :=
  let o := s.operandOf sp x a.toNat i
  s.vaCheck (s.inSegment sp o n) o (s.vaOf sp x a.toNat i) n acc i

/-- What an access's address field names. -/
def addrNeed (sp : VSpace) (x : Bool) (a : Nat) : List (Nat × Nat) × List (Nat × Nat) :=
  let n := match sp with
    | .global => 2
    | .constant => 2
    | .priv => 1
  if x then ([], [(a, n)]) else ([(a, n)], [])

/-- The physical run of a virtual run. -/
def State.physRun (s : State) (acc : Access) (r : Nat × Nat) : Option (Leaf × Nat × Nat) :=
  match s.access s.space r.1 acc 0 with
  | .ok l => some (l, s.keyOf s.space l r.1, r.2)
  | .error _ => none

/-- The physical runs of an access. -/
def State.phys (s : State) (acc : Access) (va n : Nat) : List (Leaf × Nat × Nat) :=
  (runsOf va n).filterMap (s.physRun acc)

/-- A page whose accesses go to the host alone (R315). -/
def uncached (l : Leaf) : Bool := pteHost l.entry && pteMtype l.entry == 2

/-- A page of host memory that is not write-back (R315, R352). -/
def through (l : Leaf) : Bool := pteHost l.entry && pteMtype l.entry != 0

/-- The load reads at the home slice (R306). -/
def Order.atHome : Order → Bool
  | .rlx => false | .team => false | .die => true | .pkg => true | .sys => true

/-- The plane of a packet about a key that is reached through a leaf (R319). -/
def Leaf.plane (l : Leaf) (key : Nat) : Nat := entryPlane l.entry key

/-- A load must wait: it covers the group's own waiting stores to its parts in part (R301, R455), or it is an acquire over any of
them, or it is uncached and the group has writes to the host on their way (R315), or it reads at a home slice that its packets may not
reach now (R306, R323, R327). -/
def State.loadWaits (s : State) (view : View) (o : Order) (rs : List (Leaf × Nat × Nat)) : Bool :=
  let own := s.ownRequests s.unit.g view
  rs.any (fun r => (uncached r.1 && s.me.stores.any (fun q => q.toHost && q.applied.isNone)) ||
    (Order.atHome o && !s.mayGo s.unit.g .lane r.2.1 (r.1.plane r.2.1)) ||
    (match ownCover own r.2.1 r.2.2 with
    | .none => false
    | .whole => o != .rlx
    | .partly => true))

/-- How a load orders itself (R301, R306, R161). -/
structure LoadMode where
  order : Order
  /-- LDGI and LDK: any value held since the launch began. -/
  inv : Bool
  deriving DecidableEq, Repr

/-- The bytes of a key read as poisoned by the executing group: its sector is marked, or was spoilt on its way (R278, R327). -/
def State.reads (s : State) (key : Nat) : Bool := s.marked key || fget false s.me.spoilt (key / 32)

/-- Load one run: its value and whether each of its bytes reads as poisoned.  A load at the home slice, too, returns the bytes that
the group has staged (R293). -/
def State.loadRun (s : State) (m : LoadMode) (va : Nat) (r : Leaf × Nat × Nat) (j : Nat) : State × Nat × Bool :=
  let seg := s.pre.seg
  let k := s.unit.g
  let inv := m.inv || (decide (seg.kb.toNat ≤ va) && decide (va < seg.kl.toNat))
  let (t, x) := if Order.atHome m.order || uncached r.1 then
      let (t, y) := s.loadLatest k r.2.1 r.2.2
      (t, overlay (s.stagedBytes k) r.2.1 y r.2.2)
    else s.loadPart k r.2.1 r.2.2 ⟨.lane, inv, through r.1⟩ j
  (t, x, s.reads r.2.1)

/-- The words of a run's value, with their marks. -/
def runWords (x n : Nat) (bad : Bool) : List (Word × Bool) :=
  if n ≤ 4 then [(BitVec.ofNat 32 x, bad)] else [(BitVec.ofNat 32 x, bad), (BitVec.ofNat 32 (x / 2 ^ 32), bad)]

/-- The value of an access whose runs are `rs`: one number, least significant first, and whether any byte is poisoned. -/
def State.loadRuns (s : State) (m : LoadMode) (va j : Nat) : List (Leaf × Nat × Nat) → State × List (Nat × Nat × Bool)
  | [] => (s, [])
  | r :: rs =>
    let (t, x, bad) := s.loadRun m va r j
    let u := t.touch s.space r.1 false
    let (v, l) := u.loadRuns m va (j + 1) rs
    (v, (x, r.2.2, bad) :: l)

/-- Bytes joined from runs. -/
def joinRuns : List (Nat × Nat × Bool) → Nat × Bool
  | [] => (0, false)
  | (x, n, bad) :: l =>
    let (y, b) := joinRuns l
    (x + y * 2 ^ (8 * n), bad || b)

/-- The destination words of an access of `n` bytes: one word to 4 bytes, then one for each 4 (R159). -/
def accessWords (n : Nat) (l : List (Nat × Nat × Bool)) : List (Word × Bool) :=
  if 8 ≤ n && l.all (fun r => r.2.1 == 8) then l.flatMap (fun r => runWords r.1 8 r.2.2)
  else
    let (x, bad) := joinRuns l
    (List.range (max 1 (n / 4))).map (fun k => (BitVec.ofNat 32 (x / 2 ^ (32 * k)), bad))

/-- The lines an access reads. -/
def linesOf (rs : List (Leaf × Nat × Nat)) : List Nat := distinct (rs.map (fun r => memLine r.2.1))

/-- The acquire's renewal (R306). -/
def State.acquire (s : State) (o : Order) : State :=
  match Order.scope o with
  | none => s
  | some sc => s.renew s.unit.g sc

/-- The values of an access of at most 8 bytes that lies in two parts: it is single-copy atomic (R159). -/
def State.loadSplit (s : State) (m : LoadMode) (j : Nat) (rs : List (Leaf × Nat × Nat)) : State × List (Nat × Nat × Bool) :=
  let t := rs.foldl (fun t r => t.touch s.space r.1 false) s
  let (u, xs) := t.loadCut s.unit.g ⟨.lane, m.inv, rs.any (fun r => through r.1)⟩ (rs.map Prod.snd) j
  (u, (rs.zip xs).map (fun e => (e.2, e.1.2.2, s.reads e.1.2.1)))

/-- One access of a load: the words it gives (R159, R301, R306). -/
def State.loadAt (s : State) (m : LoadMode) (va n j : Nat) : State × List (Word × Bool) :=
  let rs := s.phys .read va n
  let (t, l) := if n ≤ 8 && decide (2 ≤ rs.length) && !Order.atHome m.order && !rs.any (fun r => uncached r.1)
    then s.loadSplit m (5 * j) rs else s.loadRuns m va (5 * j) rs
  (t.acquire m.order, accessWords n l)

/-- The parts an invariant load has read are noted for the launch (R161). -/
def State.noteInv (s : State) (m : LoadMode) (va n : Nat) : State :=
  if m.inv then
    let ek := s.myTeam.exec
    let e := s.exec ek
    s.setExec ek { e with inv := (s.phys .read va n).foldl (fun f r => fset false f (r.2.1 / 8) true) e.inv }
  else s

/-- The sectors that were spoilt on their way to the group have been taken by its loads (R327). -/
def State.unspoil (s : State) (keys : List Nat) : State :=
  s.onMe (fun g => { g with spoilt := keys.foldl (fun m k => fset false m (k / 32) false) g.spoilt })

/-- Destinations of words with marks, from a key on. -/
def markedDests (key : Nat) : List (Word × Bool) → List Dest
  | [] => []
  | (w, b) :: l => ⟨key, w, b⟩ :: markedDests (key + 1) l

/-- The loads of the ACTIVE lanes, in ascending order. -/
def State.loadLanes (s : State) (m : LoadMode) (n d : Nat) (va : Nat → Nat) : List Nat → State × List Dest
  | [] => (s, [])
  | i :: is =>
    let (t, ws) := (s.noteInv m (va i) n).loadAt m (va i) n i
    let (u, ds) := t.loadLanes m n d va is
    (u, markedDests (vkey i d) ws ++ ds)

/-- A load from a translated space (R159, R160).  With a scalar address, a global or constant load makes one access for
all lanes; a private one makes one for each. -/
def loadVia (sp : VSpace) (m : LoadMode) (la : La) (d a : Reg) (sz : Size) (x : Bool) : Meaning :=
  let n := sz.bytes
  let an := addrNeed sp x a.toNat
  issue ⟨an.1, [(d.toNat, sz.regs)], an.2, []⟩ (memCheck sp x a n .read) la.toNat (fun s =>
    let va := fun i => s.vaOf sp x a.toNat i
    let s0 := s.noteReads (fun i => linesOf (s.phys .read (va i) n))
    let keys := s.acts.flatMap (fun i => (s.phys .read (va i) n).map (fun r => r.2.1))
    if s.acts.any (fun i => s.loadWaits .lane m.order (s.phys .read (va i) n)) then s.stall
    else if x && sp != .priv then
      let (t, ws) := (s0.noteInv m (va s.lead) n).loadAt m (va s.lead) n 0
      (t.unspoil keys).spent.deliver la.toNat (s.acts.flatMap (fun i => markedDests (vkey i d.toNat) ws)) 0
    else
      let (t, ds) := s0.loadLanes m n d.toNat va s.acts
      (t.unspoil keys).spent.deliver la.toNat ds 0)

/-- LDG (R160). -/
def execLdg (la : La) (d a : Reg) (sz : Size) (os : Order) (x : Bool) : Meaning := loadVia .global ⟨os, false⟩ la d a sz x
/-- LDGI (R160, R161). -/
def execLdgi (la : La) (d a : Reg) (sz : Size) (x : Bool) : Meaning := loadVia .global ⟨.rlx, true⟩ la d a sz x
/-- LDP (R160). -/
def execLdp (la : La) (d a : Reg) (sz : Size) (x : Bool) : Meaning := loadVia .priv ⟨.rlx, false⟩ la d a sz x
/-- LDK (R160, R161). -/
def execLdk (la : La) (d a : Reg) (sz : Size) (x : Bool) : Meaning := loadVia .constant ⟨.rlx, true⟩ la d a sz x

/-! ### Stores -/

/-- The data of a lane's store, as one number (R159). -/
def State.storeData (s : State) (i d regs : Nat) : Nat :=
  (List.range regs).foldl (fun x k => x + (s.rv i (d + k)).toNat * 2 ^ (32 * k)) 0

/-- The bytes a lane stores through pages that pass a test, at physical keys. -/
def State.storeCells (s : State) (f : Leaf → Bool) (va n x : Nat) : List Host.Cell :=
  ((runsOf va n).foldl (fun (acc : Nat × List Host.Cell) r =>
    match s.physRun .write r with
    | some (l, key, len) => (acc.1 / 2 ^ (8 * len), if f l then acc.2 ++ cellsOf key acc.1 len else acc.2)
    | none => acc) (x, [])).2

/-- The leaves a store goes through. -/
def State.storeLeaves (s : State) (va n : Nat) : List Leaf := (s.phys .write va n).map Prod.fst

/-- Touch leaves for writing (R354). -/
def State.touchAll (s : State) (ls : List Leaf) : State := ls.foldl (fun t l => t.touch s.space l true) s

/-- One request for each line that cells lie in (R280), of the LANE or the RSVS path; `plane` gives the plane of a line. -/
def State.request (s : State) (cs : List Host.Cell) (rel : Option Scope) (uc rsvs : Bool) (plane : Nat → Nat) : State :=
  (distinct (cs.map (fun c => c.1 / 128))).foldl (fun t l =>
    t.onMe (fun g => g.store (cs.filter (fun (c : Host.Cell) => c.1 / 128 = l)) rel uc rsvs (plane l) s.tick)) s

/-- Cells lie in more than one line. -/
def crosses (cs : List Host.Cell) : Bool := decide (1 < (distinct (cs.map (fun (c : Host.Cell) => c.1 / 128))).length)

/-- The requests for the bytes of accesses of `n` bytes: by line, but all at once where an access of at most 8 bytes, which is
single-copy atomic, lies in two lines (R159, R280). -/
def State.requestFor (s : State) (n : Nat) (css : List (List Host.Cell)) (rel : Option Scope) (uc rsvs : Bool) (plane : Nat → Nat) : State :=
  if n ≤ 8 && css.any crosses then
    s.onMe (fun g => g.store css.flatten rel uc rsvs (plane ((css.flatten.head?.map Prod.fst).getD 0 / 128)) s.tick)
  else s.request css.flatten rel uc rsvs plane

/-- The plane of a line, by the page through which the lowest of some accesses reaches it (R319). -/
def planeIn (rs : List (Leaf × Nat × Nat)) (line : Nat) : Nat :=
  ((rs.find? (fun r => r.2.1 / 128 == line)).map (fun r => r.1.plane r.2.1)).getD 0

/-- The store requests of a unit: one for each line, and one for each uncached access, which goes to the host alone (R280, R315).
`va` and `data` give a lane's address and number. -/
def State.requests (s : State) (rel : Option Scope) (rsvs : Bool) (n : Nat) (va data : Nat → Nat) : State :=
  let plane := planeIn (s.acts.flatMap (fun i => s.phys .write (va i) n))
  let t := s.requestFor n (s.acts.map (fun i => s.storeCells (fun l => !uncached l) (va i) n (data i))) rel false rsvs plane
  s.acts.foldl (fun t i => t.requestFor n [s.storeCells uncached (va i) n (data i)] rel true rsvs plane) t

/-! ### Staging -/

/-- Entries of a partition's reduction buffer (R149). -/
def redCapacity : Nat := 512

/-- A staged entry of an execution that no staging area holds lies in the buffer of a partition of a core (R149, R289). -/
def State.staysIn (s : State) (root core part team : Nat) (e : RedEntry) : Bool :=
  e.spill.isNone && s.teams.any (fun t => t.2.core == core && !t.2.saved && s.detRoot t.2.exec == root && t.2.teamId.toNat == team
    && (s.grp (groupKey t.1 e.group)).part == part)

/-- Entries in the reduction buffer of a partition: those of fast mode, and what the teams of the core have staged (R149, R288,
R289). -/
def State.bufferLoad (s : State) (core part : Nat) : Nat :=
  s.execs.foldl (fun n x => n + (x.2.staged.filter (fun q => s.staysIn x.1 core part q.1 q.2)).length
      + (x.2.batches.filter (fun q => s.staysIn x.1 core part q.1 q.2.2)).length)
    ((s.core core).reds.filter (fun e => (s.grp e.group).part == part)).length

/-- Free entries in the reduction buffer of the group's partition (R288, R289). -/
def State.redFree (s : State) : Nat := redCapacity - s.bufferLoad s.myTeam.core s.me.part

/-- The buffer has no room for what a unit stages, so that entries must spill first (R289). -/
def State.stageFull (s : State) (n : Nat) : Bool := !s.myExec.discards && decide (s.redFree < n)

/-- What a unit stages enters, but that of a launch whose contributions are discarded; the group's sequence advances (R289, R292). -/
def State.stage (s : State) (es : List RedEntry) : State :=
  let ek := s.detRoot s.myTeam.exec
  let e := s.exec ek
  let ns := es.map (fun x => (s.myTeam.teamId.toNat, x))
  (s.setExec ek { e with staged := if s.myExec.discards then e.staged else e.staged ++ ns }).onMe (fun g => { g with seq := (g.seq + 1) % 2 ^ 32 })

/-- A staged entry of the executing group and a lane: a function, or a plain store of `size` bytes (R289, R293). -/
def State.stagedEntry (s : State) (fn : AtomFn) (store : Bool) (i key size x plane : Nat) : RedEntry :=
  ⟨s.me.index, fn, key, size, BitVec.ofNat 64 x, store, s.me.epoch, s.me.seq, i, isHost key, none, s.tick, s.myTeam.exec, plane, none⟩

/-- The staged entries of a lane's plain store, one for each part (R293). -/
def State.storeEntries (s : State) (i va n x : Nat) : List RedEntry :=
  ((runsOf va n).foldl (fun (acc : Nat × List RedEntry) r =>
    match s.physRun .write r with
    | some (l, key, len) =>
      (acc.1 / 2 ^ (8 * len), acc.2 ++ [s.stagedEntry .exch true i key len (bits acc.1 0 (8 * len)) (l.plane key)])
    | none => acc) (x, [])).2

/-- A store to a translated space: every lane's bytes in ascending lane order, so that the highest lane's byte stands
(R159); a relaxed STG of mode det_stores is staged (R293). -/
def storeVia (sp : VSpace) (os : Order) (d a : Reg) (sz : Size) (x : Bool) : Meaning :=
  let n := sz.bytes
  let an := addrNeed sp x a.toNat
  issue ⟨(d.toNat, sz.regs) :: an.1, [], an.2, []⟩ (memCheck sp x a n .write) 0 (fun s =>
    let va := fun i => s.vaOf sp x a.toNat i
    let data := fun i => s.storeData i d.toNat sz.regs % 2 ^ (8 * n)
    let touched := fun (t : State) => (t.touchAll (s.acts.flatMap (fun i => s.storeLeaves (va i) n))).spent
    if s.detMode = 2 && os == .rlx && sp == .global then
      let es := s.acts.flatMap (fun i => s.storeEntries i (va i) n (data i))
      if s.stageFull es.length then s.stall else touched (s.effect.stage es)
    else touched (s.effect.requests (Order.scope os) false n va data))

/-- STG (R160). -/
def execStg (d a : Reg) (sz : Size) (os : Order) (x : Bool) : Meaning := storeVia .global os d a sz x
/-- STP (R160). -/
def execStp (d a : Reg) (sz : Size) (x : Bool) : Meaning := storeVia .priv .rlx d a sz x

/-! ### The scratchpad -/

/-- A word of a team's scratchpad. -/
def Team.word (t : Team) (w : Nat) : Word := fget 0 t.scratch w
/-- Its tag: full or empty (R162). -/
def Team.full (t : Team) (w : Nat) : Bool := fget false t.tags w
/-- Its poison mark (R454). -/
def Team.bad (t : Team) (w : Nat) : Bool := fget false t.spoison w

/-- The words an access of `n` bytes at an offset covers. -/
def wordsAt (o n : Nat) : List Nat := (List.range (max 1 (n / 4))).map (fun k => o / 4 + k)

/-- Set the tags of words. -/
def Team.setTags (t : Team) (ws : List Nat) (b : Bool) : Team :=
  { t with tags := ws.foldl (fun m w => fset false m w b) t.tags }

/-- What a lane reads of the scratchpad: words with marks (R159, R454). -/
def Team.read (t : Team) (o n : Nat) : List (Word × Bool) :=
  if n < 4 then [(BitVec.ofNat 32 (bits (t.word (o / 4)).toNat (8 * (o % 4)) (8 * n)), t.bad (o / 4))]
  else (wordsAt o n).map (fun w => (t.word w, t.bad w))

/-- A lane's write to the scratchpad: a whole word clears its mark, a part of a word leaves it (R454). -/
def Team.store (t : Team) (o n : Nat) (data : List Word) : Team :=
  if n < 4 then
    let old := (t.word (o / 4)).toNat
    let sh := 8 * (o % 4)
    let x := bits old 0 sh + bits (nth 0 data 0).toNat 0 (8 * n) * 2 ^ sh + old / 2 ^ (sh + 8 * n) * 2 ^ (sh + 8 * n)
    { t with scratch := fset 0 t.scratch (o / 4) (BitVec.ofNat 32 x) }
  else
    { t with
      scratch := (mapFrom (fun k w => (o / 4 + k, w)) 0 data).foldl (fun m e => fset 0 m e.1 e.2) t.scratch
      spoison := (wordsAt o n).foldl (fun m w => fset false m w false) t.spoison }

/-- The scratch offset of a lane (R158). -/
def State.scratchOff (s : State) (x : Bool) (a i : Nat) : Nat := (if x then s.rs a else s.rv i a).toNat

/-- The checks of a scratch access (R158, R159). -/
def scratchCheck (x : Bool) (a : Reg) (n : Nat) (s : State) (i : Nat) : Option Cause :=
  let o := s.scratchOff x a.toNat i
  if s.pre.seg.sl.toNat < o + n then some (s.cause 0x04 (BitVec.ofNat 32 o) 0 i)
  else if o % n ≠ 0 then some (s.cause 0x05 (BitVec.ofNat 32 o) 0 i)
  else none

/-- What a scratch access names. -/
def scratchNeed (x : Bool) (a : Nat) (src dst : List (Nat × Nat)) : Need :=
  if x then ⟨src, dst, [(a, 1)], []⟩ else ⟨(a, 1) :: src, dst, [], []⟩

/-- The scratchpad lines of words. -/
def State.scratchLines (s : State) (ws : List Nat) : List Nat := distinct (ws.map (scratchLine s.me.team))

/-- A command of a core's engines has not completed. -/
def Core.works (c : Core) (id : Nat) : Bool := c.copies.any (fun d => d.id == id) || c.tun.queue.any (fun d => d.id == id)

/-- The path class of a Tun command's read of a list in the scratchpad: it reads as a lane does (R179, R211). -/
def listPath : Nat := 16

/-- An engine's word is seen by an access of a path class: for certain where an XFENCE says so (to lanes of every group, as the fencing
group's own stores are; whenever a command that meets it was issued: DESIGN CHOICE, log entry 89), where it came with its tag and the access
waits for the tag, where a Tun command meets what the Tun has drained, which is in issue order (R203), and where the command has completed
and the access is of its own path; else freely (R164, R183, R192 to R194, R204). -/
def State.fogLands (s : State) (k path : Nat) (waits : Bool) (j : Nat) (f : Fog) : Bool :=
  let p := if path = listPath then 0 else path
  (f.must.getLsbD p && (f.group == k || p == 0)) || (waits && f.tagged) || (f.path == 2 && (path == 2 || path == listPath))
    || (f.path == path && !(s.coreOf k).works f.id) || Config.freeChoice (64 * s.fresh + j) % 2 == 1

/-- Two words of one command lie in one 8-byte part, which is seen as one (R194). -/
def Fog.mate (f g : Fog) : Bool := f.id == g.id && f.word / 2 == g.word / 2

/-- Write a word of the scratchpad with its mark (R454). -/
def Team.putWord (t : Team) (w : Nat) (x : Word) (poison : Bool) : Team :=
  { t with scratch := fset 0 t.scratch w x, spoison := fset false t.spoison w poison }

/-- The bytes of a mask from one word, the others from another. -/
def mixBytes (m : BitVec 4) (x old : Word) : Word :=
  BitVec.ofNat 32 ((List.range 4).foldl (fun n j =>
    n + bits (if m.getLsbD j then x else old).toNat (8 * j) 8 * 2 ^ (8 * j)) 0)

/-- Write some bytes of a word: its mark goes only where all are written (R454). -/
def Team.putBytes (t : Team) (w : Nat) (m : BitVec 4) (x : Word) (poison : Bool) : Team :=
  if m = 15 then t.putWord w x poison else t.putWord w (mixBytes m x (t.word w)) (poison || t.bad w)

/-- What a written word leaves of an earlier one of its path for the same place. -/
def Fog.after (f e : Fog) : Option Fog :=
  if e.word == f.word && e.path == f.path then
    (if e.mask &&& ~~~f.mask = 0 then none else some { e with mask := e.mask &&& ~~~f.mask })
  else some e

/-- An access to some words sees an engine's word: it meets the word's 8-byte part and sees that. -/
def State.fogSeen (s : State) (k path : Nat) (waits : Bool) (ws : List Nat) (fs : List Fog) (f : Fog) : Bool :=
  fs.any (fun g => g.mate f && ws.contains g.word && s.fogLands k path waits (fs.findIdx g.mate) g)

/-- The engine words that an access to `ws` sees are written; the others wait on.  A word that is written ends the earlier ones of its path
for the same bytes. -/
def State.landFogs (s : State) (k path : Nat) (waits : Bool) (ws : List Nat) (t : Team) : Team :=
  t.fogs.foldl (fun u f =>
    if s.fogSeen k path waits ws t.fogs f then { u with fogs := u.fogs.filterMap f.after }.putBytes f.word f.mask f.val f.poison
    else { u with fogs := u.fogs ++ [f] }) { t with fogs := [] }

/-- An access of a group's path class to words of its team's scratchpad meets the engines' words (R183, R194). -/
def State.landWords (s : State) (k path : Nat) (waits : Bool) (ws : List Nat) : State :=
  let tk := (s.grp k).team
  let t := s.team tk
  if t.fogs.any (fun f => ws.contains f.word) then
    ((s.setTeam tk (s.landFogs k path waits ws t)).wakeLines
      (distinct ((t.fogs.filter (s.fogSeen k path waits ws t.fogs)).map (fun f => scratchLine tk f.word)))).spent
  else s

/-- The effect of a lane access to the scratchpad, once the engines' words it meets are settled. -/
def onScratch (waits x : Bool) (a : Reg) (n : Nat) (eff : State → State) (s : State) : State :=
  eff (s.landWords s.unit.g 0 waits (s.acts.flatMap (fun i => wordsAt (s.scratchOff x a.toNat i) n)))

/-- Plain LDS (R162). -/
def execLds (la : La) (d a : Reg) (sz : Size) (x : Bool) : Meaning :=
  issue (scratchNeed x a.toNat [] [(d.toNat, sz.regs)]) (scratchCheck x a sz.bytes) la.toNat (onScratch false x a sz.bytes fun s =>
    let o := fun i => s.scratchOff x a.toNat i
    (s.noteReads (fun i => s.scratchLines (wordsAt (o i) sz.bytes))).deliver la.toNat
      (s.acts.flatMap (fun i => markedDests (vkey i d.toNat) (s.myTeam.read (o i) sz.bytes))) 0)

/-- LDS.tag (R162). -/
def execLdsTag (la : La) (d a : Reg) (x : Bool) : Meaning :=
  issue (scratchNeed x a.toNat [] [(d.toNat, 1)]) (scratchCheck x a 4) la.toNat (fun s =>
    let o := fun i => s.scratchOff x a.toNat i
    (s.noteReads (fun i => s.scratchLines (wordsAt (o i) 4))).deliver la.toNat
      (s.dests d.toNat (fun i => [boolWord (s.myTeam.full (o i / 4))])) 0)

/-! ### Handoffs of global data -/

/-- What the group's releases and FENCE.rels before a handoff by tag or barrier must have done: each release is applied, and the
writes that each fence covers are acknowledged (R314). -/
def State.handsOff (s : State) (k : Nat) : Bool :=
  (s.grp k).stores.all (fun r => r.release.isNone || r.applied.isSome) && !(s.coreOf k).reds.any (fun e => e.group == k && e.release.isSome)
    && (s.grp k).fences.all (s.fenceOpen k)

/-- A handoff by tag or barrier publishes to the team what the group's FENCE.rels cover (R314; log entry 69). -/
def State.handOver (s : State) (k : Nat) : State :=
  (s.grp k).fences.foldl (fun t e => t.publishAll k { e with scope := .team }) s

/-- A member that hands global data over by a tag or a barrier: it is held until its group's releases have gone (R314). -/
def handing (eff : State → State) (s : State) : State :=
  if s.handsOff s.unit.g then eff (s.handOver s.unit.g) else s.stall

/-- A tag or data write of the scratchpad: the team changes and its sleepers wake (R19). -/
def State.scratchWrite (s : State) (ws : List Nat) (tags : Bool) (t : Team) : State :=
  let u := (s.setTeam s.me.team t).effect.wakeLines (s.scratchLines ws)
  if tags then u.wakeTags s.me.team ws else u

/-- The data words of a lane's scratch store. -/
def State.dataWords (s : State) (i d regs : Nat) : List Word := (List.range regs).map (fun k => s.rv i (d + k))

/-- A scratch store that does not wait: lanes in ascending order; tags set full where `full` says (R162). -/
def storeScratch (full : Option Bool) (write : Bool) (d a : Reg) (sz : Size) (x : Bool) : Meaning :=
  issue (scratchNeed x a.toNat (if write then [(d.toNat, sz.regs)] else []) []) (scratchCheck x a sz.bytes) 0 ((if full.isSome then handing else id) (onScratch false x a sz.bytes fun s =>
    let o := fun i => s.scratchOff x a.toNat i
    let t := s.acts.foldl (fun t i =>
      let t1 := if write then t.store (o i) sz.bytes (s.dataWords i d.toNat sz.regs) else t
      match full with
      | none => t1
      | some b => t1.setTags (wordsAt (o i) sz.bytes) b) s.myTeam
    s.scratchWrite (distinct (s.acts.flatMap (fun i => wordsAt (o i) sz.bytes))) full.isSome t))

/-- Plain STS (R162). -/
def execSts (d a : Reg) (sz : Size) (x : Bool) : Meaning := storeScratch none true d a sz x
/-- STS.sfull (R162). -/
def execStsSfull (d a : Reg) (sz : Size) (x : Bool) : Meaning := storeScratch (some true) true d a sz x
/-- STS.sempty (R162): no data is written. -/
def execStsSempty (a : Reg) (sz : Size) (x : Bool) : Meaning := storeScratch (some false) false 0 a sz x

/-- The steps of the lanes of a waiting form, in ascending order (R163): the team after them, the lanes that completed,
and the lanes that wait with the words they wait on.  `want` is the tag they wait for. -/
def tagSteps (want : Bool) (ws : Nat → List Nat) (upd : Team → Nat → Team) :
    List Nat → Team → Team × List (Nat × Team) × List (Nat × WaitOn)
  | [], t => (t, [], [])
  | i :: is, t =>
    if (ws i).all (fun w => t.full w == want) then
      let (u, done, waits) := tagSteps want ws upd is (upd t i)
      (u, (i, t) :: done, waits)
    else
      let (u, done, waits) := tagSteps want ws upd is t
      (u, done, (i, .tags (ws i)) :: waits)

/-- The lanes that completed go on as the unit's ACTIVE lanes; the rest wait at the unit's first member (R17, R163). -/
def State.narrow (s : State) (done : List Nat) (waits : List (Nat × WaitOn)) : State :=
  if waits.isEmpty then s.onMe (fun g => { g with blocked := none })
  else
    let t := s.block waits
    { t with unit := { t.unit with mask := maskOf done.contains s.pre.width, blocked := done.isEmpty } }

/-- A waiting load of the scratchpad (R162, R163). -/
def loadTagged (emptyAfter : Bool) (la : La) (d a : Reg) (sz : Size) (x : Bool) : Meaning :=
  issue (scratchNeed x a.toNat [] [(d.toNat, sz.regs)]) (scratchCheck x a sz.bytes) la.toNat ((if emptyAfter then handing else id) (onScratch true x a sz.bytes fun s =>
    let ws := fun i => wordsAt (s.scratchOff x a.toNat i) sz.bytes
    let (t, done, waits) := tagSteps true ws (fun t i => if emptyAfter then t.setTags (ws i) false else t) s.acts s.myTeam
    let ds := done.flatMap (fun e => markedDests (vkey e.1 d.toNat) (e.2.read (s.scratchOff x a.toNat e.1) sz.bytes))
    let s1 := (s.noteReads (fun i => s.scratchLines (ws i))).narrow (done.map Prod.fst) waits
    if done.isEmpty then s1
    else
      let s2 := if emptyAfter then s1.scratchWrite (distinct (done.flatMap (fun e => ws e.1))) true t else s1
      s2.deliver la.toNat ds 0))

/-- LDS.wfull (R162). -/
def execLdsWfull (la : La) (d a : Reg) (sz : Size) (x : Bool) : Meaning := loadTagged false la d a sz x
/-- LDS.wfull_empty (R162). -/
def execLdsWfullEmpty (la : La) (d a : Reg) (sz : Size) (x : Bool) : Meaning := loadTagged true la d a sz x

/-- STS.wefull (R162, R163). -/
def execStsWefull (d a : Reg) (sz : Size) (x : Bool) : Meaning :=
  issue (scratchNeed x a.toNat [(d.toNat, sz.regs)] []) (scratchCheck x a sz.bytes) 0 (handing (onScratch false x a sz.bytes fun s =>
    let ws := fun i => wordsAt (s.scratchOff x a.toNat i) sz.bytes
    let (t, done, waits) := tagSteps false ws (fun t i =>
      (t.store (s.scratchOff x a.toNat i) sz.bytes (s.dataWords i d.toNat sz.regs)).setTags (ws i) true) s.acts s.myTeam
    let s1 := s.narrow (done.map Prod.fst) waits
    if done.isEmpty then s1 else s1.scratchWrite (distinct (done.flatMap (fun e => ws e.1))) true t))

end Sys2Proof.Machine
end

