-- ==== Sys2Proof/Machine/Atomics.lean ====
section
/-!
DEFINITION.  Atomics and reductions (R282 to R296), in fast and deterministic mode.
-/

namespace Sys2Proof.Machine

/-- MAXA of R284: the larger magnitude, sign cleared. -/
def maxaWord (a b : Word) : Word :=
  if (val32 a).isNan || (val32 b).isNan then 0x7FC00000
  else BitVec.ofNat 32 (max (a.toNat % 2147483648) (b.toNat % 2147483648))

/-- BFADD2 of R284: each half summed in BF16. -/
def bfadd2 (a b : Word) : Word := (hop bf16 .add a b 0).1

/-- The signed value of an n-byte number. -/
def signedOf (n x : Nat) : Int := sext x (8 * n)

/-- OPX of R284 on n-byte values: the new value, and whether it is written. -/
def opx (fn : AtomFn) (n old b c : Nat) : Nat × Bool :=
  let w := fun (f : Word → Word → Word) => ((f (BitVec.ofNat 32 old) (BitVec.ofNat 32 b)).toNat, true)
  match fn with
  | .add => ((old + b) % 2 ^ (8 * n), true)
  | .and => (Nat.land old b, true)
  | .or => (Nat.lor old b, true)
  | .xor => (Nat.xor old b, true)
  | .mins => (if signedOf n old ≤ signedOf n b then old else b, true)
  | .maxs => (if signedOf n old ≤ signedOf n b then b else old, true)
  | .minn => (min old b, true)
  | .maxn => (max old b, true)
  | .exch => (b, true)
  | .fadd => w (fun x y => (fadd x y).1)
  | .bfadd2 => w bfadd2
  | .maxa => w maxaWord
  | .cas => (b, decide (old = c))

/-- A reduction's new value at its home slice: on a marked sector it is dropped and counted in a RAS record (R278). -/
def State.reduceAt (s : State) (a : Agent) (key size new : Nat) : State × Word :=
  if s.lost key then (s.countDrop key, 0)
  else if s.marked key then (s.logRas (keyDie key) 6 false (sliceOn key) (key % 2 ^ 37)).number key
  else s.apply a (cellsOf key new size)

/-- The checks of an atomic that the page table decides (R283, R295): rights, then host memory. -/
def State.atomPage (s : State) (fn : AtomFn) (needW : Bool) (a i : Nat) : Option Cause :=
  match s.access s.space a .read 0 with
  | .error c => some (s.addrCause c a i)
  | .ok l =>
    if needW && !pteW l.entry then some (s.addrCause 0x07 a i)
    else if pteHost l.entry then
      if !pteSys l.entry then some (s.addrCause 0x08 a i)
      else if fn = .add || fn = .exch || fn = .cas then none else some (s.addrCause 0x09 a i)
    else none

/-- The checks of an atomic of a lane (R283). -/
def atomCheck (fn : AtomFn) (needW : Bool) (a n : Nat) (s : State) (i : Nat) : Option Cause :=
  let o := (s.rv2 i a).toNat
  if !s.inSegment .global o n then some (s.addrCause 0x04 o i)
  else if o % n ≠ 0 then some (s.addrCause 0x05 o i)
  else s.atomPage fn needW o i

/-- The leaf and the physical key of an atomic's location. -/
def State.atomPhys (s : State) (a : Nat) : Option (Leaf × Nat) :=
  match s.access s.space a .read 0 with
  | .ok l => some (l, s.keyOf s.space l a)
  | .error _ => none

/-- The outcome of one lane's atomic at the home slice. -/
structure AtomOut where
  old : Nat
  seq : Word
  poison : Bool
  /-- A CAS that compared equal on a page without W (R286). -/
  refused : Bool
  deriving DecidableEq, Repr

/-- One atomic of a group on device memory, as one step of its home slice (R279, R284, R286). -/
def State.atomAt (s : State) (k space : Nat) (l : Leaf) (key n : Nat) (fn : AtomFn) (b c : Nat)
    (rel : List FenceSet) : State × AtomOut :=
  let (s1, old) := s.loadLatest k key n
  let (new, w) := opx fn n old b c
  if s.marked key then (s1, ⟨old, if s.lost key then 0 else s.lastNumber key, true, false⟩)
  else if !w then (s1.touch space l false, ⟨old, s.lastNumber key, false, false⟩)
  else if !pteW l.entry then (s1.touch space l false, ⟨old, s.lastNumber key, false, true⟩)
  else
    let (s2, q) := (s1.touch space l true).apply (s.agent k) (cellsOf key new n)
    let s3 := (s2.onGrp k (fun g => g.wrote .lane (s2.whole (key / 8) (s2.part (key / 8)).count))).publishFor k rel
    (s3.setGrp k { s3.grp k with csr := { (s3.grp k).csr with wseq := q } }, ⟨old, q, false, false⟩)

/-- The words of an n-byte number. -/
def natWords (n x : Nat) : List Word := (List.range (n / 4)).map (fun k => BitVec.ofNat 32 (x / 2 ^ (32 * k)))

/-- The fields of an ATOM (R50). -/
structure AtomOp where
  fn : AtomFn
  /-- Bytes, 4 or 8. -/
  n : Nat
  /-- D, A, B and CMP. -/
  d : Nat
  a : Nat
  b : Nat
  cmp : Nat
  /-- The order of a write, and of a failing CAS. -/
  oss : Order
  osf : Order
  /-- T: the sequence word is wanted. -/
  t : Bool
  deriving DecidableEq, Repr

/-- A register operand of n bytes. -/
def State.atomOperand (s : State) (i r n : Nat) : Nat := if n = 8 then (s.rv2 i r).toNat else (s.rv i r).toNat

/-- The destination words of a lane: the old value, then the sequence word (R284). -/
def AtomOp.dests (o : AtomOp) (i : Nat) (r : AtomOut) : List Dest :=
  if r.refused then []
  else
    markedDests (vkey i o.d) ((natWords o.n r.old).map (fun w => (w, r.poison)))
      ++ (if o.t then [⟨vkey i (o.d + o.n / 4), r.seq, r.poison⟩] else [])

/-- The atomics of the ACTIVE lanes, in ascending order: those to host memory are sent and come back later (R284,
R295). -/
def State.atomLanes (s : State) (o : AtomOp) (rel : List FenceSet) : List Nat → State × List Dest × List Nat
  | [] => (s, [], [])
  | i :: is =>
    let va := (s.rv2 i o.a).toNat
    let b := s.atomOperand i o.b o.n
    let c := if o.fn = .cas then s.atomOperand i o.cmp o.n else 0
    match s.atomPhys va with
    | none => s.atomLanes o rel is
    | some (l, key) =>
      if isHost key then
        let t := s.onMe (fun g => { g with
          hostOps := g.hostOps ++ [⟨i, o.fn, key, o.n, BitVec.ofNat 64 b, BitVec.ofNat 64 c, vkey i o.d,
            if o.t then some (vkey i (o.d + o.n / 4)) else none, s.tick, o.oss, o.osf, rel,
            if pteW l.entry then none else some ({ s.addrCause 0x07 va i with after := true }, s.unit.mask)⟩]
          hold := .hostAtomic })
        (t.touch t.space l (pteW l.entry)).atomLanes o rel is
      else
        let (t, r) := s.atomAt s.unit.g s.space l key o.n o.fn b c rel
        let t1 := if r.refused then t.acquire o.oss
          else if o.fn = .cas && decide (r.old ≠ c) then t.acquire o.osf else t.acquire o.oss
        let (u, ds, refused) := t1.atomLanes o rel is
        (u, o.dests i r ++ ds, if r.refused then i :: refused else refused)

/-- The publications that go out with a write of a group now: a release's cumulative set and the fence sets that stand
(R305, R311). -/
def State.releaseSets (s : State) (k : Nat) (sc : Option Scope) : List FenceSet :=
  (match sc with
    | none => []
    | some c => [⟨c, s.tick, s.cumulative k c⟩]) ++ (s.grp k).fences

/-- An atomic must wait: for the group's own stores to its locations, for every earlier write when it is a release, for the writes before
a FENCE.rel (R285, R305, R311), or until its packets may go (R323, R327). -/
def State.atomWaits (s : State) (oss : Order) (ps : List (Leaf × Nat)) : Bool :=
  let g := s.me
  g.waitingIn (ps.map (fun p => p.2 / 8)) || ps.any (fun p => !s.mayGo s.unit.g .lane p.2 (p.1.plane p.2)) || (match Order.scope oss with
      | none => false
      | some sc => g.unacked sc)
    || g.fences.any (fun e => !s.fenceOpen s.unit.g e)

/-- The registers an ATOM names. -/
def AtomOp.need (o : AtomOp) : Need :=
  let m := o.n / 4
  ⟨(o.a, 2) :: (o.b, m) :: (if o.fn = .cas then [(o.cmp, m)] else []), [(o.d, m + (if o.t then 1 else 0))], [], []⟩

/-- The deterministic modes stage FADD and BFADD2 (R293). -/
def AtomFn.floats : AtomFn → Bool
  | .add => false | .and => false | .or => false | .xor => false | .mins => false | .maxs => false | .minn => false
  | .maxn => false | .exch => false | .fadd => true | .bfadd2 => true | .maxa => false | .cas => false

/-- The staged contributions of the ACTIVE lanes (R289). -/
def State.redEntries (s : State) (fn : AtomFn) (a b n : Nat) : List RedEntry :=
  s.acts.filterMap (fun i => (s.atomPhys (s.rv2 i a).toNat).map (fun p =>
    s.stagedEntry fn false i p.2 n (s.atomOperand i b n) (p.1.plane p.2)))

/-- The leaves and keys that the ACTIVE lanes' atomics go to. -/
def State.atomPlaces (s : State) (a : Nat) : List (Leaf × Nat) := s.acts.filterMap (fun i => s.atomPhys (s.rv2 i a).toNat)

/-- A lane's atomics stage their contributions, and its pages are touched; it waits while the buffer has no room (R289, R293, R354). -/
def State.stageAt (s : State) (fn : AtomFn) (a b n : Nat) (after : State → State) : State :=
  let es := s.redEntries fn a b n
  if s.stageFull es.length then s.stall else after ((s.effect.stage es).touchAll ((s.atomPlaces a).map Prod.fst))

/-- An ATOM (R282 to R286, R293, R295). -/
def atomic (la : La) (o : AtomOp) : Meaning :=
  issue o.need (atomCheck o.fn (o.fn != .cas) o.a o.n) la.toNat (fun s =>
    if s.detMode != 0 && AtomFn.floats o.fn then
      s.stageAt o.fn o.a o.b o.n (fun t => t.deliver la.toNat (s.dests o.d (fun _ => 0 :: (if o.t then [0] else []))) 0)
    else if s.me.hold.waits then s.stall
    else if s.atomWaits o.oss (s.atomPlaces o.a) then s.stall
    else
      let (t, ds, refused) := s.effect.atomLanes o (s.releaseSets s.unit.g (Order.scope o.oss)) s.acts
      let u := t.spent.deliver la.toNat ds 0
      match refused with
      | [] => u
      | i :: _ => u.addAfter (u.afterCause 0x07 (s.rv2 i o.a |> pairLo) (s.rv2 i o.a |> pairHi) i))

/-- An ATOM that is no CAS. -/
def atom (fn : AtomFn) (la : La) (d a b : Reg) (oss : Order) (s8 t : Bool) : Meaning :=
  atomic la ⟨fn, if s8 then 8 else 4, d.toNat, a.toNat, b.toNat, 0, oss, .rlx, t⟩

/-- ATOM.add (R284). -/
def execAtomAdd (la : La) (d a b : Reg) (oss : Order) (s8 t : Bool) : Meaning := atom .add la d a b oss s8 t
/-- ATOM.and (R284). -/
def execAtomAnd (la : La) (d a b : Reg) (oss : Order) (s8 t : Bool) : Meaning := atom .and la d a b oss s8 t
/-- ATOM.or (R284). -/
def execAtomOr (la : La) (d a b : Reg) (oss : Order) (s8 t : Bool) : Meaning := atom .or la d a b oss s8 t
/-- ATOM.xor (R284). -/
def execAtomXor (la : La) (d a b : Reg) (oss : Order) (s8 t : Bool) : Meaning := atom .xor la d a b oss s8 t
/-- ATOM.mins (R284). -/
def execAtomMins (la : La) (d a b : Reg) (oss : Order) (s8 t : Bool) : Meaning := atom .mins la d a b oss s8 t
/-- ATOM.maxs (R284). -/
def execAtomMaxs (la : La) (d a b : Reg) (oss : Order) (s8 t : Bool) : Meaning := atom .maxs la d a b oss s8 t
/-- ATOM.minn (R284). -/
def execAtomMinn (la : La) (d a b : Reg) (oss : Order) (s8 t : Bool) : Meaning := atom .minn la d a b oss s8 t
/-- ATOM.maxn (R284). -/
def execAtomMaxn (la : La) (d a b : Reg) (oss : Order) (s8 t : Bool) : Meaning := atom .maxn la d a b oss s8 t
/-- ATOM.exch (R284). -/
def execAtomExch (la : La) (d a b : Reg) (oss : Order) (s8 t : Bool) : Meaning := atom .exch la d a b oss s8 t
/-- ATOM.fadd (R284, R293). -/
def execAtomFadd (la : La) (d a b : Reg) (oss : Order) (t : Bool) : Meaning := atom .fadd la d a b oss false t
/-- ATOM.bfadd2 (R284, R293). -/
def execAtomBfadd2 (la : La) (d a b : Reg) (oss : Order) (t : Bool) : Meaning := atom .bfadd2 la d a b oss false t
/-- ATOM.maxa (R284). -/
def execAtomMaxa (la : La) (d a b : Reg) (oss : Order) (t : Bool) : Meaning := atom .maxa la d a b oss false t
/-- ATOM.cas (R284 to R286). -/
def execAtomCas (la : La) (d a b : Reg) (oss osf : Order) (s8 t : Bool) (cmp : Reg) : Meaning :=
  atomic la ⟨.cas, if s8 then 8 else 4, d.toNat, a.toNat, b.toNat, cmp.toNat, oss, osf, t⟩

/-! ### Reductions -/

/-- Enter the contributions of the ACTIVE lanes in the reduction buffer (R288). -/
def State.bufferReds (s : State) (fn : AtomFn) (a b n : Nat) (rel : Option Scope) : State :=
  let c := s.myTeam.core
  let es := s.acts.filterMap (fun i => (s.atomPhys (s.rv2 i a).toNat).map (fun p =>
    (⟨s.unit.g, fn, p.2, n, BitVec.ofNat 64 (s.atomOperand i b n), false, 0, 0, i, isHost p.2, rel, s.tick, s.myTeam.exec, p.1.plane p.2, none⟩
      : RedEntry)))
  (s.setCore c { s.core c with reds := (s.core c).reds ++ es }).onMe (fun g => { g with redsOut := g.redsOut + es.length })

/-- A RED (R287 to R289, R293, R295): staged in a deterministic mode, else buffered; a full buffer holds the issue. -/
def reduction (fn : AtomFn) (os : Order) (s8 : Bool) (a b : Reg) : Meaning :=
  let n := if s8 then 8 else 4
  issue ⟨[(a.toNat, 2), (b.toNat, n / 4)], [], [], []⟩
    (fun s i => match atomCheck fn true a.toNat n s i with
      | some c => some c
      | none => match s.atomPhys (s.rv2 i a.toNat).toNat with
        | none => none
        | some (_, key) => if isHost key && fn != .add then some (s.addrCause 0x09 (s.rv2 i a.toNat).toNat i) else none) 0
    (fun s =>
      if s.detMode != 0 then s.stageAt fn a.toNat b.toNat n id
      else if s.redFree < s.acts.length then s.stall
      else (s.effect.bufferReds fn a.toNat b.toNat n (Order.scope os)).touchAll ((s.atomPlaces a.toNat).map Prod.fst))

/-- RED.add (R287). -/
def execRedAdd (os : Order) (s8 : Bool) (a b : Reg) : Meaning := reduction .add os s8 a b
/-- RED.and (R287). -/
def execRedAnd (os : Order) (s8 : Bool) (a b : Reg) : Meaning := reduction .and os s8 a b
/-- RED.or (R287). -/
def execRedOr (os : Order) (s8 : Bool) (a b : Reg) : Meaning := reduction .or os s8 a b
/-- RED.xor (R287). -/
def execRedXor (os : Order) (s8 : Bool) (a b : Reg) : Meaning := reduction .xor os s8 a b
/-- RED.mins (R287). -/
def execRedMins (os : Order) (s8 : Bool) (a b : Reg) : Meaning := reduction .mins os s8 a b
/-- RED.maxs (R287). -/
def execRedMaxs (os : Order) (s8 : Bool) (a b : Reg) : Meaning := reduction .maxs os s8 a b
/-- RED.minn (R287). -/
def execRedMinn (os : Order) (s8 : Bool) (a b : Reg) : Meaning := reduction .minn os s8 a b
/-- RED.maxn (R287). -/
def execRedMaxn (os : Order) (s8 : Bool) (a b : Reg) : Meaning := reduction .maxn os s8 a b
/-- RED.fadd (R287). -/
def execRedFadd (os : Order) (a b : Reg) : Meaning := reduction .fadd os false a b
/-- RED.bfadd2 (R287). -/
def execRedBfadd2 (os : Order) (a b : Reg) : Meaning := reduction .bfadd2 os false a b
/-- RED.maxa (R287). -/
def execRedMaxa (os : Order) (a b : Reg) : Meaning := reduction .maxa os false a b

/-! ### Epochs -/

/-- Every group of a team has ended an epoch or has retired (R290). -/
def State.epochEnded (s : State) (team e : Nat) : Bool :=
  ((s.team team).groupKeys team).all (fun k => (s.grp k).retired || decide (e < (s.grp k).epoch))

/-- Whether entry `a` comes before entry `b` by key: epoch, group, sequence, lane (R289). -/
def RedEntry.before (a b : RedEntry) : Bool :=
  decide (a.epoch < b.epoch) || (a.epoch == b.epoch && (decide (a.group < b.group) || (a.group == b.group &&
    (decide (a.seq < b.seq) || (a.seq == b.seq && decide (a.lane ≤ b.lane))))))

/-- Insert an entry by its key. -/
def insertEntry (x : RedEntry) : List RedEntry → List RedEntry
  | [] => [x]
  | y :: ys => if y.before x then y :: insertEntry x ys else x :: y :: ys

/-- Entries sorted by key, equal keys in their order. -/
def sortEntries (l : List RedEntry) : List RedEntry := l.foldl (fun acc x => insertEntry x acc) []

/-- Close every epoch of a team that all its groups have ended: its entries go, sorted, to the ticket unit (R290). -/
def State.closeEpochs (s : State) (team : Nat) : State :=
  let t := s.team team
  let root := s.detRoot t.exec
  let e := s.exec root
  let mine := fun (p : Nat × RedEntry) => p.1 == t.teamId.toNat && s.epochEnded team p.2.epoch
  let out := sortEntries ((e.staged.filter mine).map Prod.snd)
  s.setExec root { e with
    staged := e.staged.filter (fun p => !mine p)
    batches := e.batches ++ out.map (fun x => (t.teamId.toNat, x.epoch, x)) }

/-- A group ends its current epoch (R290). -/
def State.endEpoch (s : State) (k : Nat) : State :=
  (s.setGrp k { s.grp k with epoch := (s.grp k).epoch + 1 }).closeEpochs (s.grp k).team

/-- REDFLUSH (R290). -/
def execRedflush : Meaning :=
  issue ⟨[], [], [], []⟩ noCheck 0 (fun s =>
    if s.detMode != 0 then s.effect.endEpoch s.unit.g
    else s.gate .redflush (decide (s.pre.redsOut = 0)) id)

end Sys2Proof.Machine
end

