-- ==== Sys2Proof/Decode.lean ====
section
/-!
DEFINITION.  From bytes to instructions and back (R27 to R56).

The decoder is total: every pair of words gives an instruction or a named refusal, which the machine answers with
ILLEGAL_INSTR (R47).  The encoder stands below it and is written from the same layouts.

The section is marked noncomputable for one reason only: Lean's runtime cannot hold a value of an inductive type past its
245th constructor, and `Instr` has 478.  Every definition here is plain structural recursion, and the kernel evaluates it.
-/

namespace Sys2Proof

noncomputable section

/-- The field of `n` bits of a word from bit `lo` upward. -/
def fieldOf (w : Word) (lo n : Nat) : BitVec n := BitVec.ofNat n (w.toNat / 2 ^ lo)

/-- MAJ, bits 30:25 (R34). -/
def majorOf (w : Word) : BitVec 6 := fieldOf w 25 6
/-- Bit 31: C of a one-word instruction, or of a pair's second word (R28, R34). -/
def tieBit (w : Word) : BitVec 1 := fieldOf w 31 1

/-! ### Formats F-R and F-Z (R34) -/
/-- FN, bits 24:21. -/
def rFn (w : Word) : BitVec 4 := fieldOf w 21 4
/-- D, bits 20:14. -/
def rD (w : Word) : Reg := fieldOf w 14 7
/-- A, bits 13:7. -/
def rA (w : Word) : Reg := fieldOf w 7 7
/-- B or E, bits 6:0. -/
def rB (w : Word) : Reg := fieldOf w 0 7
/-- A word of format F-R or F-Z. -/
def packR (c : Bool) (mj : BitVec 6) (fn : BitVec 4) (d a b : Reg) : Word :=
  BitVec.ofNat 32 (c.toNat * 2147483648 + mj.toNat * 33554432 + fn.toNat * 2097152 + d.toNat * 16384 + a.toNat * 128 + b.toNat)

/-! ### Format F-I (R34, R36) -/
/-- D, bits 24:18. -/
def iD (w : Word) : Reg := fieldOf w 18 7
/-- A, bits 17:11. -/
def iA (w : Word) : Reg := fieldOf w 11 7
/-- IMM11, bits 10:0. -/
def iImm (w : Word) : Imm11 := fieldOf w 0 11
/-- A word of format F-I. -/
def packI (c : Bool) (mj : BitVec 6) (d a : Reg) (imm : Imm11) : Word :=
  BitVec.ofNat 32 (c.toNat * 2147483648 + mj.toNat * 33554432 + d.toNat * 262144 + a.toNat * 2048 + imm.toNat)

/-! ### Format F-U (R34, R38) -/
/-- LA, bits 24:21. -/
def uLa (w : Word) : La := fieldOf w 21 4
/-- D, bits 20:14. -/
def uD (w : Word) : Reg := fieldOf w 14 7
/-- A, bits 13:7. -/
def uA (w : Word) : Reg := fieldOf w 7 7
/-- FN, bits 6:3. -/
def uFn (w : Word) : BitVec 4 := fieldOf w 3 4
/-- MOD, bits 2:0. -/
def uMod (w : Word) : BitVec 3 := fieldOf w 0 3
/-- A word of format F-U. -/
def packU (c : Bool) (mj : BitVec 6) (la : La) (d a : Reg) (fn : BitVec 4) (md : BitVec 3) : Word :=
  BitVec.ofNat 32 (c.toNat * 2147483648 + mj.toNat * 33554432 + la.toNat * 2097152 + d.toNat * 16384 + a.toNat * 128 + fn.toNat * 8 + md.toNat)

/-! ### Format F-M (R34, R39) -/
/-- LA, bits 24:21. -/
def mLa (w : Word) : La := fieldOf w 21 4
/-- D, bits 20:14. -/
def mD (w : Word) : Reg := fieldOf w 14 7
/-- A, bits 13:7. -/
def mA (w : Word) : Reg := fieldOf w 7 7
/-- SZ, bits 6:4. -/
def mSz (w : Word) : BitVec 3 := fieldOf w 4 3
/-- OS, bits 3:1. -/
def mOs (w : Word) : BitVec 3 := fieldOf w 1 3
/-- X, bit 0. -/
def mX (w : Word) : BitVec 1 := fieldOf w 0 1
/-- A word of format F-M. -/
def packM (c : Bool) (mj : BitVec 6) (la : La) (d a : Reg) (sz os : BitVec 3) (x : BitVec 1) : Word :=
  BitVec.ofNat 32 (c.toNat * 2147483648 + mj.toNat * 33554432 + la.toNat * 2097152 + d.toNat * 16384 + a.toNat * 128 + sz.toNat * 16 + os.toNat * 2 + x.toNat)

/-! ### Format F-B (R34, R37) -/
/-- NEG, bit 24. -/
def bNeg (w : Word) : BitVec 1 := fieldOf w 24 1
/-- P, bits 23:21. -/
def bP (w : Word) : Pred := fieldOf w 21 3
/-- OFF21, bits 20:0. -/
def bOff (w : Word) : Off21 := fieldOf w 0 21
/-- A word of format F-B. -/
def packB (c : Bool) (mj : BitVec 6) (neg : BitVec 1) (p : Pred) (off : Off21) : Word :=
  BitVec.ofNat 32 (c.toNat * 2147483648 + mj.toNat * 33554432 + neg.toNat * 16777216 + p.toNat * 2097152 + off.toNat)

/-! ### First words of the two-word layouts that are not F-R or F-I (R51 to R56) -/
/-- TID of TCOPY and LTWALK, bits 24:19. -/
def tTid (w : Word) : Tid := fieldOf w 19 6
/-- CS of TCOPY, A of LTWALK, bits 18:12. -/
def tCs (w : Word) : Reg := fieldOf w 12 7
/-- OFF of TCOPY, bits 11:5. -/
def tOff (w : Word) : Reg := fieldOf w 5 7
/-- Bits 4:0, which must be 0. -/
def tZ (w : Word) : BitVec 5 := fieldOf w 0 5
/-- First word of TCOPY or LTWALK. -/
def packT (c : Bool) (mj : BitVec 6) (tid : Tid) (cs off : Reg) : Word :=
  BitVec.ofNat 32 (c.toNat * 2147483648 + mj.toNat * 33554432 + tid.toNat * 524288 + cs.toNat * 4096 + off.toNat * 32)
/-- OPC of TUN, FN of ENG, bits 24:22. -/
def eOp (w : Word) : BitVec 3 := fieldOf w 22 3
/-- TID of TUN and ENG, bits 21:16. -/
def eTid (w : Word) : Tid := fieldOf w 16 6
/-- CS of TUN, AS of ENG, bits 15:9. -/
def eArg (w : Word) : Reg := fieldOf w 9 7
/-- TOK of TUN and ENG, bits 8:2. -/
def eTok (w : Word) : Reg := fieldOf w 2 7
/-- BANK of TUN; 0 in ENG; bits 1:0. -/
def eLow (w : Word) : BitVec 2 := fieldOf w 0 2
/-- First word of TUN or ENG. -/
def packE (c : Bool) (mj : BitVec 6) (op : BitVec 3) (tid : Tid) (ar tok : Reg) (low : BitVec 2) : Word :=
  BitVec.ofNat 32 (c.toNat * 2147483648 + mj.toNat * 33554432 + op.toNat * 4194304 + tid.toNat * 65536 + ar.toNat * 512 + tok.toNat * 4 + low.toNat)
/-- FN of TRACE, bits 24:23. -/
def vFn (w : Word) : BitVec 2 := fieldOf w 23 2
/-- TID of TRACE, bits 22:17. -/
def vTid (w : Word) : Tid := fieldOf w 17 6
/-- A of TRACE, bits 16:10. -/
def vA (w : Word) : Reg := fieldOf w 10 7
/-- Bits 9:0 of TRACE, which must be 0. -/
def vZ (w : Word) : BitVec 10 := fieldOf w 0 10
/-- First word of TRACE. -/
def packV (c : Bool) (mj : BitVec 6) (fn : BitVec 2) (tid : Tid) (a : Reg) : Word :=
  BitVec.ofNat 32 (c.toNat * 2147483648 + mj.toNat * 33554432 + fn.toNat * 8388608 + tid.toNat * 131072 + a.toNat * 1024)
/-- LA of SMP, bits 24:21. -/
def sLa (w : Word) : La := fieldOf w 21 4
/-- D of SMP, bits 20:14. -/
def sD (w : Word) : Reg := fieldOf w 14 7
/-- A of SMP, bits 13:7. -/
def sA (w : Word) : Reg := fieldOf w 7 7
/-- TID of SMP, bits 6:1. -/
def sTid (w : Word) : Tid := fieldOf w 1 6
/-- Bit 0 of SMP, which must be 0. -/
def sZ (w : Word) : BitVec 1 := fieldOf w 0 1
/-- First word of SMP. -/
def packS (c : Bool) (mj : BitVec 6) (la : La) (d a : Reg) (tid : Tid) : Word :=
  BitVec.ofNat 32 (c.toNat * 2147483648 + mj.toNat * 33554432 + la.toNat * 2097152 + d.toNat * 16384 + a.toNat * 128 + tid.toNat * 2)

/-! ### Second words (R48 to R56); bit 31 is the tie bit -/
/-- Second word of LIT: literal bits 30:0. -/
def packL2 (c : Bool) (v : Word) : Word := BitVec.ofNat 32 (c.toNat * 2147483648 + v.toNat % 2147483648)
/-- FN of QCVT, bits 30:27. -/
def q2Fn (w : Word) : BitVec 4 := fieldOf w 27 4
/-- RND of QCVT, bits 26:24. -/
def q2Rnd (w : Word) : BitVec 3 := fieldOf w 24 3
/-- SAT of QCVT, bit 23. -/
def q2Sat (w : Word) : BitVec 1 := fieldOf w 23 1
/-- FMT of QCVT, bits 22:19. -/
def q2Fmt (w : Word) : BitVec 4 := fieldOf w 19 4
/-- POS of QCVT, bits 18:17. -/
def q2Pos (w : Word) : BitVec 2 := fieldOf w 17 2
/-- S of QCVT, bits 16:10. -/
def q2S (w : Word) : Reg := fieldOf w 10 7
/-- Bits 9:0 of QCVT, which must be 0. -/
def q2Z (w : Word) : BitVec 10 := fieldOf w 0 10
/-- Second word of the QCVT major. -/
def packQ2 (c : Bool) (fn : BitVec 4) (rnd : BitVec 3) (sat : BitVec 1) (fmt : BitVec 4) (pos : BitVec 2) (s : Reg) : Word :=
  BitVec.ofNat 32 (c.toNat * 2147483648 + fn.toNat * 134217728 + rnd.toNat * 16777216 + sat.toNat * 8388608 + fmt.toNat * 524288 + pos.toNat * 131072 + s.toNat * 1024)
/-- OP of ATOM, bits 30:27. -/
def a2Op (w : Word) : BitVec 4 := fieldOf w 27 4
/-- OSS of ATOM, bits 26:24. -/
def a2Oss (w : Word) : BitVec 3 := fieldOf w 24 3
/-- OSF of ATOM, bits 23:21. -/
def a2Osf (w : Word) : BitVec 3 := fieldOf w 21 3
/-- SIZE of ATOM, bits 20:19. -/
def a2Size (w : Word) : BitVec 2 := fieldOf w 19 2
/-- T of ATOM, bit 18. -/
def a2T (w : Word) : BitVec 1 := fieldOf w 18 1
/-- CMP of ATOM, bits 17:11. -/
def a2Cmp (w : Word) : Reg := fieldOf w 11 7
/-- Bits 10:0 of ATOM, which must be 0. -/
def a2Z (w : Word) : BitVec 11 := fieldOf w 0 11
/-- Second word of ATOM. -/
def packA2 (c : Bool) (op : BitVec 4) (oss osf : BitVec 3) (size : BitVec 2) (t : BitVec 1) (cmp : Reg) : Word :=
  BitVec.ofNat 32 (c.toNat * 2147483648 + op.toNat * 134217728 + oss.toNat * 16777216 + osf.toNat * 2097152 + size.toNat * 524288 + t.toNat * 262144 + cmp.toNat * 2048)
/-- MODE of TCOPY, bits 30:28. -/
def t2Mode (w : Word) : BitVec 3 := fieldOf w 28 3
/-- XPOSE of TCOPY, bits 27:26. -/
def t2Xp (w : Word) : BitVec 2 := fieldOf w 26 2
/-- EXP24 of TCOPY, bit 25. -/
def t2Exp (w : Word) : BitVec 1 := fieldOf w 25 1
/-- TOK of TCOPY, bits 24:18. -/
def t2Tok (w : Word) : Reg := fieldOf w 18 7
/-- GTID of TCOPY, bits 17:12. -/
def t2Gtid (w : Word) : Tid := fieldOf w 12 6
/-- Bits 11:0 of TCOPY, which must be 0. -/
def t2Z (w : Word) : BitVec 12 := fieldOf w 0 12
/-- Second word of TCOPY. -/
def packT2 (c : Bool) (mode : BitVec 3) (xp : BitVec 2) (e : BitVec 1) (tok : Reg) (gtid : Tid) : Word :=
  BitVec.ofNat 32 (c.toNat * 2147483648 + mode.toNat * 268435456 + xp.toNat * 67108864 + e.toNat * 33554432 + tok.toNat * 262144 + gtid.toNat * 4096)
/-- M − 1 of TUN, bits 30:23. -/
def u2M (w : Word) : BitVec 8 := fieldOf w 23 8
/-- ROW of TUN, bits 22:16. -/
def u2Row (w : Word) : BitVec 7 := fieldOf w 16 7
/-- T5 of TUN, bit 15. -/
def u2T5 (w : Word) : BitVec 1 := fieldOf w 15 1
/-- ACCUM of TUN, bit 14. -/
def u2Acc (w : Word) : BitVec 1 := fieldOf w 14 1
/-- TID2 of TUN, bits 13:8. -/
def u2Tid2 (w : Word) : Tid := fieldOf w 8 6
/-- TID3 of TUN, bits 7:2. -/
def u2Tid3 (w : Word) : Tid := fieldOf w 2 6
/-- Bits 1:0 of TUN, which must be 0. -/
def u2Z (w : Word) : BitVec 2 := fieldOf w 0 2
/-- Second word of TUN. -/
def packU2 (c : Bool) (m : BitVec 8) (row : BitVec 7) (t5 acc : BitVec 1) (tid2 tid3 : Tid) : Word :=
  BitVec.ofNat 32 (c.toNat * 2147483648 + m.toNat * 8388608 + row.toNat * 65536 + t5.toNat * 32768 + acc.toNat * 16384 + tid2.toNat * 256 + tid3.toNat * 4)
/-- MASK of TRACE, bits 30:23. -/
def v2Mask (w : Word) : BitVec 8 := fieldOf w 23 8
/-- RFL of TRACE, bits 22:19. -/
def v2Rfl (w : Word) : BitVec 4 := fieldOf w 19 4
/-- TAG of TRACE, bits 18:11. -/
def v2Tag (w : Word) : BitVec 8 := fieldOf w 11 8
/-- Bits 10:0 of TRACE, which must be 0. -/
def v2Z (w : Word) : BitVec 11 := fieldOf w 0 11
/-- Second word of TRACE. -/
def packV2 (c : Bool) (mask : BitVec 8) (fl : BitVec 4) (tag : BitVec 8) : Word :=
  BitVec.ofNat 32 (c.toNat * 2147483648 + mask.toNat * 8388608 + fl.toNat * 524288 + tag.toNat * 2048)
/-- TAG of LTWALK, bits 30:23. -/
def w2Tag (w : Word) : BitVec 8 := fieldOf w 23 8
/-- Bits 22:0 of LTWALK, which must be 0. -/
def w2Z (w : Word) : BitVec 23 := fieldOf w 0 23
/-- Second word of LTWALK. -/
def packW2 (c : Bool) (tag : BitVec 8) : Word := BitVec.ofNat 32 (c.toNat * 2147483648 + tag.toNat * 8388608)
/-- FILT of SMP, bits 30:28. -/
def s2Filt (w : Word) : BitVec 3 := fieldOf w 28 3
/-- ANISO of SMP, bits 27:25. -/
def s2Aniso (w : Word) : BitVec 3 := fieldOf w 25 3
/-- LODM of SMP, bits 24:23. -/
def s2Lod (w : Word) : BitVec 2 := fieldOf w 23 2
/-- WRAP of SMP, bits 22:21. -/
def s2Wrap (w : Word) : BitVec 2 := fieldOf w 21 2
/-- Bits 20:0 of SMP, which must be 0. -/
def s2Z (w : Word) : BitVec 21 := fieldOf w 0 21
/-- Second word of SMP. -/
def packS2 (c : Bool) (filt aniso : BitVec 3) (lod wrap : BitVec 2) : Word :=
  BitVec.ofNat 32 (c.toNat * 2147483648 + filt.toNat * 268435456 + aniso.toNat * 33554432 + lod.toNat * 8388608 + wrap.toNat * 2097152)
/-- IMM12 of ENG, bits 30:19. -/
def g2Imm (w : Word) : BitVec 12 := fieldOf w 19 12
/-- Bits 18:0 of ENG, which must be 0. -/
def g2Z (w : Word) : BitVec 19 := fieldOf w 0 19
/-- Second word of ENG. -/
def packG2 (c : Bool) (imm : BitVec 12) : Word := BitVec.ofNat 32 (c.toNat * 2147483648 + imm.toNat * 524288)

/-! ### Codes of the named fields -/
/-- SZ codes (R39). -/
def Size.code : Size → BitVec 3
  | .b1 => 0 | .b2 => 1 | .b4 => 2 | .b8 => 3 | .b16 => 4 | .b32 => 5
/-- SZ codes 6 and 7 are reserved (R39, R47). -/
def Size.ofCode (x : BitVec 3) : Except Reject Size :=
  match x.toNat with
  | 0 => .ok .b1 | 1 => .ok .b2 | 2 => .ok .b4 | 3 => .ok .b8 | 4 => .ok .b16 | 5 => .ok .b32
  | _ => .error .sizeCode
/-- OS codes (R39). -/
def Order.code : Order → BitVec 3
  | .rlx => 0 | .team => 1 | .die => 2 | .pkg => 3 | .sys => 4
/-- OS codes 101–111 are reserved (R39, R47). -/
def Order.ofCode (x : BitVec 3) : Except Reject Order :=
  match x.toNat with
  | 0 => .ok .rlx | 1 => .ok .team | 2 => .ok .die | 3 => .ok .pkg | 4 => .ok .sys
  | _ => .error .orderCode
/-- The OS code of a scope, in an E field (R309). -/
def Scope.code7 : Scope → BitVec 7
  | .team => 1 | .die => 2 | .pkg => 3 | .sys => 4
/-- An E field that holds a scope alone (R193, R309): 000 and 101–111 are refused, and bits 6:3 must be 0. -/
def Scope.ofCode7 (x : BitVec 7) : Except Reject Scope :=
  match x.toNat with
  | 1 => .ok .team | 2 => .ok .die | 3 => .ok .pkg | 4 => .ok .sys
  | _ => .error .orderCode
/-- The E field of FENCE: the order in bits 4:3, the scope in bits 2:0 (R309). -/
def fenceE (o : BitVec 2) (sc : Scope) : BitVec 7 := BitVec.ofNat 7 (o.toNat * 8 + sc.code7.toNat)
/-- Bits 4:3 of the E field of FENCE. -/
def fenceOrder (x : BitVec 7) : BitVec 2 := BitVec.ofNat 2 (x.toNat / 8)
/-- The scope of FENCE; bits 6:5 must be 0. -/
def fenceScope (x : BitVec 7) : Except Reject Scope :=
  if x.toNat / 32 ≠ 0 then .error .fieldNotZero else Scope.ofCode7 (BitVec.ofNat 7 (x.toNat % 8))
/-- Rounding codes in a field of three bits whose high bit must be 0 (R38, R49). -/
def Rnd.code3 : Rnd → BitVec 3
  | .rne => 0 | .rtz => 1 | .rdn => 2 | .rup => 3
/-- The rounding of CVT and QWIDEN: codes above 3 are refused (R38, R113). -/
def Rnd.ofCode3 (x : BitVec 3) : Except Reject Rnd :=
  match x.toNat with
  | 0 => .ok .rne | 1 => .ok .rtz | 2 => .ok .rdn | 3 => .ok .rup
  | _ => .error .reservedValue
/-- RND codes of QCVT (R49). -/
def QRnd.code : QRnd → BitVec 3
  | .rne => 0 | .rtz => 1 | .rdn => 2 | .rup => 3 | .sr => 4
/-- RND codes 5–7 are reserved (R49). -/
def QRnd.ofCode (x : BitVec 3) : Except Reject QRnd :=
  match x.toNat with
  | 0 => .ok .rne | 1 => .ok .rtz | 2 => .ok .rdn | 3 => .ok .rup | 4 => .ok .sr
  | _ => .error .reservedValue
/-- FMT codes of QCVT (R49). -/
def QFmt.code : QFmt → BitVec 4
  | .f16 => 0 | .bf16 => 1 | .e4m3 => 2 | .e5m2 => 3 | .s8 => 4 | .n8 => 5 | .s4 => 6 | .e8m0 => 7 | .t5 => 8
/-- FMT codes 9–15 are reserved (R49). -/
def QFmt.ofCode (x : BitVec 4) : Except Reject QFmt :=
  match x.toNat with
  | 0 => .ok .f16 | 1 => .ok .bf16 | 2 => .ok .e4m3 | 3 => .ok .e5m2 | 4 => .ok .s8 | 5 => .ok .n8
  | 6 => .ok .s4 | 7 => .ok .e8m0 | 8 => .ok .t5
  | _ => .error .reservedValue
/-- XPOSE codes (R51). -/
def Xpose.code : Xpose → BitVec 2
  | .none => 0 | .x8 => 1 | .x16 => 2
/-- XPOSE code 3 is reserved (R51). -/
def Xpose.ofCode (x : BitVec 2) : Except Reject Xpose :=
  match x.toNat with
  | 0 => .ok .none | 1 => .ok .x8 | 2 => .ok .x16
  | _ => .error .reservedValue
/-- FILT codes (R55). -/
def Filt.code : Filt → BitVec 3
  | .near => 0 | .bilin => 1 | .trilin => 2 | .aniso => 3
/-- FILT codes 4–7 are reserved (R55). -/
def Filt.ofCode (x : BitVec 3) : Except Reject Filt :=
  match x.toNat with
  | 0 => .ok .near | 1 => .ok .bilin | 2 => .ok .trilin | 3 => .ok .aniso
  | _ => .error .reservedValue
/-- ANISO codes (R55). -/
def Aniso.code : Aniso → BitVec 3
  | .r1 => 0 | .r2 => 1 | .r4 => 2 | .r8 => 3 | .r16 => 4
/-- ANISO codes 5–7 are reserved (R55). -/
def Aniso.ofCode (x : BitVec 3) : Except Reject Aniso :=
  match x.toNat with
  | 0 => .ok .r1 | 1 => .ok .r2 | 2 => .ok .r4 | 3 => .ok .r8 | 4 => .ok .r16
  | _ => .error .reservedValue
/-- WRAP codes (R55). -/
def Wrap.code : Wrap → BitVec 2
  | .clamp => 0 | .rpt => 1 | .mirror => 2 | .border => 3
/-- Every WRAP code is assigned (R55). -/
def Wrap.ofCode (x : BitVec 2) : Wrap :=
  match x.toNat with
  | 0 => .clamp | 1 => .rpt | 2 => .mirror
  | _ => .border
/-- LODM: 0 explicit level, 1 gradients (R55). -/
def lodCode (grad : Bool) : BitVec 2 := if grad then 1 else 0
/-- LODM codes 2 and 3 are reserved (R55). -/
def lodOf (x : BitVec 2) : Except Reject Bool :=
  match x.toNat with
  | 0 => .ok false | 1 => .ok true
  | _ => .error .reservedValue
/-- IMM12 of COLL: KIND in bits 6:4, FN in bits 3:0 (R429). -/
def collImm (k : CollKind) (f : CollFn) : BitVec 12 :=
  BitVec.ofNat 12 ((match k with | .allred => 0 | .rscat => 1 | .bcast => 2) * 16
    + (match f with | .add => 0 | .fadd => 1 | .bfadd => 2 | .minn => 3 | .maxn => 4 | .maxa => 5))
/-- KIND of COLL; codes 3–7 are reserved and bits 11:7 must be 0 (R429). -/
def collKind (x : BitVec 12) : Except Reject CollKind :=
  match x.toNat / 16 with
  | 0 => .ok .allred | 1 => .ok .rscat | 2 => .ok .bcast
  | _ => .error .reservedValue
/-- FN of COLL; codes 6–15 are reserved (R429). -/
def collFn (x : BitVec 12) : Except Reject CollFn :=
  match x.toNat % 16 with
  | 0 => .ok .add | 1 => .ok .fadd | 2 => .ok .bfadd | 3 => .ok .minn | 4 => .ok .maxn | 5 => .ok .maxa
  | _ => .error .reservedValue
/-- SIZE of ATOM: 0 for 4 bytes, 1 for 8 (R50). -/
def sizeCode (s8 : Bool) : BitVec 2 := if s8 then 1 else 0
/-- SIZE codes 2 and 3 are reserved (R50). -/
def sizeBit (x : BitVec 2) : Except Reject Bool :=
  match x.toNat with
  | 0 => .ok false | 1 => .ok true
  | _ => .error .sizeCode
/-- BANK of TUN (R52). -/
def bankCode (b : Bool) : BitVec 2 := if b then 1 else 0
/-- BANK codes 2 and 3 are reserved (R52). -/
def bankOf (x : BitVec 2) : Except Reject Bool :=
  match x.toNat with
  | 0 => .ok false | 1 => .ok true
  | _ => .error .reservedValue

/-! ### Checks -/
/-- Refuse with `r` unless `b` holds. -/
def require (b : Bool) (r : Reject) : Except Reject Unit := if b then .ok () else .error r
/-- A field that must be 0 (R42). -/
def zero {n : Nat} (x : BitVec n) : Except Reject Unit := require (x == 0) .fieldNotZero
/-- A narrow value in a field of seven bits: its high bits must be 0 (R35, R42). -/
def lowOf (n : Nat) (x : BitVec 7) : Except Reject (BitVec n) :=
  if x.toNat / 2 ^ n ≠ 0 then .error .fieldNotZero else .ok (x.setWidth n)
/-- A one-bit field in bit 0. -/
def low1 (x : BitVec 7) : Except Reject Bool := (lowOf 1 x).map (· == 1)
/-- A two-bit field in bits 1:0. -/
def low2 (x : BitVec 7) : Except Reject (BitVec 2) := lowOf 2 x
/-- A predicate in bits 2:0 (R35). -/
def low3 (x : BitVec 7) : Except Reject (BitVec 3) := lowOf 3 x
/-- A queue, barrier or mask in bits 3:0 (R35). -/
def low4 (x : BitVec 7) : Except Reject (BitVec 4) := lowOf 4 x
/-- A word index in bits 4:0 (R173). -/
def low5 (x : BitVec 7) : Except Reject (BitVec 5) := lowOf 5 x
/-- A slot in bits 5:0 (R173). -/
def low6 (x : BitVec 7) : Except Reject (BitVec 6) := lowOf 6 x
/-- A Boolean in bit 0 of a field of seven bits. -/
def bit7 (b : Bool) : BitVec 7 := if b then 1 else 0
/-- EXIT's index: FN's high bit must be 0 (R40). -/
def low3of4 (x : BitVec 4) : Except Reject (BitVec 3) :=
  if x.toNat / 8 ≠ 0 then .error .fieldNotZero else .ok (x.setWidth 3)
/-- RFL: bits 3:2 are reserved (R228). -/
def low2of4 (x : BitVec 4) : Except Reject (BitVec 2) :=
  if x.toNat / 4 ≠ 0 then .error .reservedValue else .ok (x.setWidth 2)
/-- M − 1: 128–255 are reserved (R52). -/
def low7of8 (x : BitVec 8) : Except Reject (BitVec 7) :=
  if x.toNat / 128 ≠ 0 then .error .reservedValue else .ok (x.setWidth 7)
/-- E of BAR: FLUSH in bit 4, the barrier in bits 3:0 (R165). -/
def barE (f : Bool) (b : BitVec 4) : BitVec 7 := BitVec.ofNat 7 (f.toNat * 16 + b.toNat)
/-- FLUSH of BAR. -/
def barF (x : BitVec 7) : Bool := x.toNat / 16 % 2 == 1
/-- The function of SHI, IMM bits 10:9 (R36). -/
def shiOp (x : Imm11) : BitVec 2 := BitVec.ofNat 2 (x.toNat / 512)
/-- The count of SHI; IMM bits 8:5 must be 0 (R36). -/
def shiN (x : Imm11) : Except Reject (BitVec 5) :=
  if x.toNat / 32 % 16 ≠ 0 then .error .fieldNotZero else .ok (BitVec.ofNat 5 x.toNat)
/-- IMM of SHI. -/
def shiImm (op : BitVec 2) (n : BitVec 5) : Imm11 := BitVec.ofNat 11 (op.toNat * 512 + n.toNat)
/-- FN of SEL: bit 3 makes B scalar, bits 2:0 name the predicate (R41). -/
def selFn (s : BitVec 1) (p : Pred) : BitVec 4 := BitVec.ofNat 4 (s.toNat * 8 + p.toNat)
/-- FN bit 3 of SEL. -/
def selS (x : BitVec 4) : BitVec 1 := BitVec.ofNat 1 (x.toNat / 8)
/-- FN bits 2:0 of SEL. -/
def selP (x : BitVec 4) : Pred := BitVec.ofNat 3 x.toNat
/-- D of RED: OS in field bits 6:4, the size in bit 3, 0 in bits 2:0 (R41). -/
def redD (os : Order) (s8 : Bool) : BitVec 7 := BitVec.ofNat 7 (os.code.toNat * 16 + s8.toNat * 8)
/-- OS of RED. -/
def redOs (x : BitVec 7) : Except Reject Order :=
  if x.toNat % 8 ≠ 0 then .error .fieldNotZero else Order.ofCode (BitVec.ofNat 3 (x.toNat / 16))
/-- The size bit of RED. -/
def redS8 (x : BitVec 7) : Bool := x.toNat / 8 % 2 == 1
/-- IMM of LIT's first word: SD in bit 1, literal bit 31 in bit 0 (R48). -/
def litImm (sd : Bool) (v : Word) : Imm11 := BitVec.ofNat 11 (sd.toNat * 2 + v.toNat / 2147483648)
/-- Bits 10:2 of LIT's first word are 0. -/
def litHigh (x : Imm11) : Bool := x.toNat / 4 == 0
/-- SD of LIT. -/
def litSd (x : Imm11) : Bool := x.toNat / 2 % 2 == 1
/-- The literal: L31 from the first word, L from the second (R95). -/
def litValue (x : Imm11) (w2 : Word) : Word := BitVec.ofNat 32 (x.toNat % 2 * 2147483648 + w2.toNat % 2147483648)

/-- Decode of major 0x00: NOP, TRAP, ERET, HALT, CSRR, CSRW, SEGLD, TLBINV, ICINV, ISYNC, SLEEP, YIELD, FLAGRD, FLAGCLR, CLOCK (R46). -/
def decSys (c : Bool) (w : Word) : Except Reject Instr :=
  match (rFn w).toNat with
  | 0 => do
    require (!c) .fieldNotZero
    zero (rD w)
    zero (rA w)
    zero (rB w)
    .ok .nop
  | 1 => do
    zero (rD w)
    zero (rA w)
    .ok (.trap (rB w))
  | 2 => do
    zero (rD w)
    zero (rA w)
    zero (rB w)
    .ok .eret
  | 3 => do
    zero (rD w)
    zero (rB w)
    .ok (.halt (rA w))
  | 4 => do
    zero (rA w)
    .ok (.csrr (rD w) (rB w))
  | 5 => do
    zero (rD w)
    .ok (.csrw (rA w) (rB w))
  | 6 => do
    zero (rD w)
    let k ← low2 (rB w)
    require (k != 3) .reservedValue
    .ok (.segld (rA w) k)
  | 7 =>
    if rD w = 1 then do
      zero (rA w)
      zero (rB w)
      .ok .tlbinvAll
    else do
      zero (rD w)
      .ok (.tlbinv (rA w) (rB w))
  | 8 => do
    zero (rD w)
    .ok (.icinv (rA w) (rB w))
  | 9 => do
    zero (rD w)
    zero (rA w)
    zero (rB w)
    .ok .isync
  | 10 => do
    zero (rD w)
    zero (rB w)
    .ok (.sleep (rA w))
  | 11 => do
    zero (rD w)
    zero (rA w)
    zero (rB w)
    .ok .yield
  | 12 => do
    zero (rA w)
    zero (rB w)
    .ok (.flagrd (rD w))
  | 13 => do
    zero (rD w)
    zero (rA w)
    let m ← low4 (rB w)
    .ok (.flagclr m)
  | 14 => do
    zero (rA w)
    zero (rB w)
    .ok (.clock (rD w))
  | _ => .error .reservedFunction

/-- Decode of major 0x01: ADD, SUB, MUL, MULHS, MULHN, MINS, MAXS, MINN, MAXN, AND, OR, XOR, ANDN, SHL, SHRN, SHRS (R46). -/
def decInt (w : Word) : Except Reject Instr :=
  match (rFn w).toNat with
  | 0 => .ok (.add (rD w) (rA w) (rB w))
  | 1 => .ok (.sub (rD w) (rA w) (rB w))
  | 2 => .ok (.mul (rD w) (rA w) (rB w))
  | 3 => .ok (.mulhs (rD w) (rA w) (rB w))
  | 4 => .ok (.mulhn (rD w) (rA w) (rB w))
  | 5 => .ok (.mins (rD w) (rA w) (rB w))
  | 6 => .ok (.maxs (rD w) (rA w) (rB w))
  | 7 => .ok (.minn (rD w) (rA w) (rB w))
  | 8 => .ok (.maxn (rD w) (rA w) (rB w))
  | 9 => .ok (.and (rD w) (rA w) (rB w))
  | 10 => .ok (.or (rD w) (rA w) (rB w))
  | 11 => .ok (.xor (rD w) (rA w) (rB w))
  | 12 => .ok (.andn (rD w) (rA w) (rB w))
  | 13 => .ok (.shl (rD w) (rA w) (rB w))
  | 14 => .ok (.shrn (rD w) (rA w) (rB w))
  | 15 => .ok (.shrs (rD w) (rA w) (rB w))
  | _ => .error .reservedFunction

/-- Decode of major 0x02: ADD, SUB, MUL, MULHS, MULHN, MINS, MAXS, MINN, MAXN, AND, OR, XOR, ANDN, SHL, SHRN, SHRS (R46). -/
def decIntS (w : Word) : Except Reject Instr :=
  match (rFn w).toNat with
  | 0 => .ok (.addS (rD w) (rA w) (rB w))
  | 1 => .ok (.subS (rD w) (rA w) (rB w))
  | 2 => .ok (.mulS (rD w) (rA w) (rB w))
  | 3 => .ok (.mulhsS (rD w) (rA w) (rB w))
  | 4 => .ok (.mulhnS (rD w) (rA w) (rB w))
  | 5 => .ok (.minsS (rD w) (rA w) (rB w))
  | 6 => .ok (.maxsS (rD w) (rA w) (rB w))
  | 7 => .ok (.minnS (rD w) (rA w) (rB w))
  | 8 => .ok (.maxnS (rD w) (rA w) (rB w))
  | 9 => .ok (.andS (rD w) (rA w) (rB w))
  | 10 => .ok (.orS (rD w) (rA w) (rB w))
  | 11 => .ok (.xorS (rD w) (rA w) (rB w))
  | 12 => .ok (.andnS (rD w) (rA w) (rB w))
  | 13 => .ok (.shlS (rD w) (rA w) (rB w))
  | 14 => .ok (.shrnS (rD w) (rA w) (rB w))
  | 15 => .ok (.shrsS (rD w) (rA w) (rB w))
  | _ => .error .reservedFunction

/-- Decode of major 0x03: ROT, ABSD, MAC, ADD64, SUB64, BFEN, BFES, BFI, POPC, CLZ, BREV, BSEL, LEA0, LEA1, LEA2, LEA3 (R46). -/
def decInt2 (w : Word) : Except Reject Instr :=
  match (rFn w).toNat with
  | 0 => .ok (.rot (rD w) (rA w) (rB w))
  | 1 => .ok (.absd (rD w) (rA w) (rB w))
  | 2 => .ok (.mac (rD w) (rA w) (rB w))
  | 3 => .ok (.add64 (rD w) (rA w) (rB w))
  | 4 => .ok (.sub64 (rD w) (rA w) (rB w))
  | 5 => .ok (.bfen (rD w) (rA w) (rB w))
  | 6 => .ok (.bfes (rD w) (rA w) (rB w))
  | 7 => .ok (.bfi (rD w) (rA w) (rB w))
  | 8 => do
    zero (rB w)
    .ok (.popc (rD w) (rA w))
  | 9 => do
    zero (rB w)
    .ok (.clz (rD w) (rA w))
  | 10 => do
    zero (rB w)
    .ok (.brev (rD w) (rA w))
  | 11 => .ok (.bsel (rD w) (rA w) (rB w))
  | 12 => .ok (.lea0 (rD w) (rA w) (rB w))
  | 13 => .ok (.lea1 (rD w) (rA w) (rB w))
  | 14 => .ok (.lea2 (rD w) (rA w) (rB w))
  | 15 => .ok (.lea3 (rD w) (rA w) (rB w))
  | _ => .error .reservedFunction

/-- Decode of major 0x04: ROT, ABSD, MAC, ADD64, SUB64, BFEN, BFES, BFI, POPC, CLZ, BREV, BSEL, LEA0, LEA1, LEA2, LEA3 (R46). -/
def decInt2S (w : Word) : Except Reject Instr :=
  match (rFn w).toNat with
  | 0 => .ok (.rotS (rD w) (rA w) (rB w))
  | 1 => .ok (.absdS (rD w) (rA w) (rB w))
  | 2 => .ok (.macS (rD w) (rA w) (rB w))
  | 3 => .ok (.add64S (rD w) (rA w) (rB w))
  | 4 => .ok (.sub64S (rD w) (rA w) (rB w))
  | 5 => .ok (.bfenS (rD w) (rA w) (rB w))
  | 6 => .ok (.bfesS (rD w) (rA w) (rB w))
  | 7 => .ok (.bfiS (rD w) (rA w) (rB w))
  | 8 => do
    zero (rB w)
    .ok (.popcS (rD w) (rA w))
  | 9 => do
    zero (rB w)
    .ok (.clzS (rD w) (rA w))
  | 10 => do
    zero (rB w)
    .ok (.brevS (rD w) (rA w))
  | 11 => .ok (.bselS (rD w) (rA w) (rB w))
  | 12 => .ok (.lea0S (rD w) (rA w) (rB w))
  | 13 => .ok (.lea1S (rD w) (rA w) (rB w))
  | 14 => .ok (.lea2S (rD w) (rA w) (rB w))
  | 15 => .ok (.lea3S (rD w) (rA w) (rB w))
  | _ => .error .reservedFunction

/-- Decode of major 0x05: ICMP (R46). -/
def decIcmp (w : Word) : Except Reject Instr :=
  match (rFn w).toNat with
  | 0 => do
    let d ← low3 (rD w)
    .ok (.icmpEq d (rA w) (rB w))
  | 1 => do
    let d ← low3 (rD w)
    .ok (.icmpNe d (rA w) (rB w))
  | 2 => do
    let d ← low3 (rD w)
    .ok (.icmpLts d (rA w) (rB w))
  | 3 => do
    let d ← low3 (rD w)
    .ok (.icmpLes d (rA w) (rB w))
  | 4 => do
    let d ← low3 (rD w)
    .ok (.icmpGts d (rA w) (rB w))
  | 5 => do
    let d ← low3 (rD w)
    .ok (.icmpGes d (rA w) (rB w))
  | 6 => do
    let d ← low3 (rD w)
    .ok (.icmpLtn d (rA w) (rB w))
  | 7 => do
    let d ← low3 (rD w)
    .ok (.icmpLen d (rA w) (rB w))
  | 8 => do
    let d ← low3 (rD w)
    .ok (.icmpGtn d (rA w) (rB w))
  | 9 => do
    let d ← low3 (rD w)
    .ok (.icmpGen d (rA w) (rB w))
  | 10 => do
    let d ← low3 (rD w)
    .ok (.icmpTst d (rA w) (rB w))
  | 11 => do
    let d ← low3 (rD w)
    .ok (.icmpNtst d (rA w) (rB w))
  | _ => .error .reservedFunction

/-- Decode of major 0x06: ICMP (R46). -/
def decIcmpS (w : Word) : Except Reject Instr :=
  match (rFn w).toNat with
  | 0 => do
    let d ← low3 (rD w)
    .ok (.icmpEqS d (rA w) (rB w))
  | 1 => do
    let d ← low3 (rD w)
    .ok (.icmpNeS d (rA w) (rB w))
  | 2 => do
    let d ← low3 (rD w)
    .ok (.icmpLtsS d (rA w) (rB w))
  | 3 => do
    let d ← low3 (rD w)
    .ok (.icmpLesS d (rA w) (rB w))
  | 4 => do
    let d ← low3 (rD w)
    .ok (.icmpGtsS d (rA w) (rB w))
  | 5 => do
    let d ← low3 (rD w)
    .ok (.icmpGesS d (rA w) (rB w))
  | 6 => do
    let d ← low3 (rD w)
    .ok (.icmpLtnS d (rA w) (rB w))
  | 7 => do
    let d ← low3 (rD w)
    .ok (.icmpLenS d (rA w) (rB w))
  | 8 => do
    let d ← low3 (rD w)
    .ok (.icmpGtnS d (rA w) (rB w))
  | 9 => do
    let d ← low3 (rD w)
    .ok (.icmpGenS d (rA w) (rB w))
  | 10 => do
    let d ← low3 (rD w)
    .ok (.icmpTstS d (rA w) (rB w))
  | 11 => do
    let d ← low3 (rD w)
    .ok (.icmpNtstS d (rA w) (rB w))
  | _ => .error .reservedFunction

/-- Decode of major 0x07: FADD, FSUB, FMUL, FMAC, FMSC, FMIN, FMAX, FMINN, FMAXN, FCPS, FSCL (R46). -/
def decFop (w : Word) : Except Reject Instr :=
  match (rFn w).toNat with
  | 0 => .ok (.fadd (rD w) (rA w) (rB w))
  | 1 => .ok (.fsub (rD w) (rA w) (rB w))
  | 2 => .ok (.fmul (rD w) (rA w) (rB w))
  | 3 => .ok (.fmac (rD w) (rA w) (rB w))
  | 4 => .ok (.fmsc (rD w) (rA w) (rB w))
  | 5 => .ok (.fmin (rD w) (rA w) (rB w))
  | 6 => .ok (.fmax (rD w) (rA w) (rB w))
  | 7 => .ok (.fminn (rD w) (rA w) (rB w))
  | 8 => .ok (.fmaxn (rD w) (rA w) (rB w))
  | 9 => .ok (.fcps (rD w) (rA w) (rB w))
  | 10 => .ok (.fscl (rD w) (rA w) (rB w))
  | _ => .error .reservedFunction

/-- Decode of major 0x08: FADD, FSUB, FMUL, FMAC, FMSC, FMIN, FMAX, FMINN, FMAXN, FCPS, FSCL (R46). -/
def decFopS (w : Word) : Except Reject Instr :=
  match (rFn w).toNat with
  | 0 => .ok (.faddS (rD w) (rA w) (rB w))
  | 1 => .ok (.fsubS (rD w) (rA w) (rB w))
  | 2 => .ok (.fmulS (rD w) (rA w) (rB w))
  | 3 => .ok (.fmacS (rD w) (rA w) (rB w))
  | 4 => .ok (.fmscS (rD w) (rA w) (rB w))
  | 5 => .ok (.fminS (rD w) (rA w) (rB w))
  | 6 => .ok (.fmaxS (rD w) (rA w) (rB w))
  | 7 => .ok (.fminnS (rD w) (rA w) (rB w))
  | 8 => .ok (.fmaxnS (rD w) (rA w) (rB w))
  | 9 => .ok (.fcpsS (rD w) (rA w) (rB w))
  | 10 => .ok (.fsclS (rD w) (rA w) (rB w))
  | _ => .error .reservedFunction

/-- Decode of major 0x09: FCMP (R46). -/
def decFcmp (w : Word) : Except Reject Instr :=
  match (rFn w).toNat with
  | 0 => do
    let d ← low3 (rD w)
    .ok (.fcmpEq d (rA w) (rB w))
  | 1 => do
    let d ← low3 (rD w)
    .ok (.fcmpNe d (rA w) (rB w))
  | 2 => do
    let d ← low3 (rD w)
    .ok (.fcmpLt d (rA w) (rB w))
  | 3 => do
    let d ← low3 (rD w)
    .ok (.fcmpLe d (rA w) (rB w))
  | 4 => do
    let d ← low3 (rD w)
    .ok (.fcmpGt d (rA w) (rB w))
  | 5 => do
    let d ← low3 (rD w)
    .ok (.fcmpGe d (rA w) (rB w))
  | 6 => do
    let d ← low3 (rD w)
    .ok (.fcmpUn d (rA w) (rB w))
  | 7 => do
    let d ← low3 (rD w)
    .ok (.fcmpOr d (rA w) (rB w))
  | _ => .error .reservedFunction

/-- Decode of major 0x0A: FCMP (R46). -/
def decFcmpS (w : Word) : Except Reject Instr :=
  match (rFn w).toNat with
  | 0 => do
    let d ← low3 (rD w)
    .ok (.fcmpEqS d (rA w) (rB w))
  | 1 => do
    let d ← low3 (rD w)
    .ok (.fcmpNeS d (rA w) (rB w))
  | 2 => do
    let d ← low3 (rD w)
    .ok (.fcmpLtS d (rA w) (rB w))
  | 3 => do
    let d ← low3 (rD w)
    .ok (.fcmpLeS d (rA w) (rB w))
  | 4 => do
    let d ← low3 (rD w)
    .ok (.fcmpGtS d (rA w) (rB w))
  | 5 => do
    let d ← low3 (rD w)
    .ok (.fcmpGeS d (rA w) (rB w))
  | 6 => do
    let d ← low3 (rD w)
    .ok (.fcmpUnS d (rA w) (rB w))
  | 7 => do
    let d ← low3 (rD w)
    .ok (.fcmpOrS d (rA w) (rB w))
  | _ => .error .reservedFunction

/-- Decode of major 0x0B: HADD, HSUB, HMUL, HMAC, HMIN, HMAX, BADD, BSUB, BMUL, BMAC, BMIN, BMAX (R46). -/
def decHop (w : Word) : Except Reject Instr :=
  match (rFn w).toNat with
  | 0 => .ok (.hadd (rD w) (rA w) (rB w))
  | 1 => .ok (.hsub (rD w) (rA w) (rB w))
  | 2 => .ok (.hmul (rD w) (rA w) (rB w))
  | 3 => .ok (.hmac (rD w) (rA w) (rB w))
  | 4 => .ok (.hmin (rD w) (rA w) (rB w))
  | 5 => .ok (.hmax (rD w) (rA w) (rB w))
  | 6 => .ok (.badd (rD w) (rA w) (rB w))
  | 7 => .ok (.bsub (rD w) (rA w) (rB w))
  | 8 => .ok (.bmul (rD w) (rA w) (rB w))
  | 9 => .ok (.bmac (rD w) (rA w) (rB w))
  | 10 => .ok (.bmin (rD w) (rA w) (rB w))
  | 11 => .ok (.bmax (rD w) (rA w) (rB w))
  | _ => .error .reservedFunction

/-- Decode of major 0x0C: HADD, HSUB, HMUL, HMAC, HMIN, HMAX, BADD, BSUB, BMUL, BMAC, BMIN, BMAX (R46). -/
def decHopS (w : Word) : Except Reject Instr :=
  match (rFn w).toNat with
  | 0 => .ok (.haddS (rD w) (rA w) (rB w))
  | 1 => .ok (.hsubS (rD w) (rA w) (rB w))
  | 2 => .ok (.hmulS (rD w) (rA w) (rB w))
  | 3 => .ok (.hmacS (rD w) (rA w) (rB w))
  | 4 => .ok (.hminS (rD w) (rA w) (rB w))
  | 5 => .ok (.hmaxS (rD w) (rA w) (rB w))
  | 6 => .ok (.baddS (rD w) (rA w) (rB w))
  | 7 => .ok (.bsubS (rD w) (rA w) (rB w))
  | 8 => .ok (.bmulS (rD w) (rA w) (rB w))
  | 9 => .ok (.bmacS (rD w) (rA w) (rB w))
  | 10 => .ok (.bminS (rD w) (rA w) (rB w))
  | 11 => .ok (.bmaxS (rD w) (rA w) (rB w))
  | _ => .error .reservedFunction

/-- Decode of major 0x0D: SEL (R46). -/
def decSel (w : Word) : Except Reject Instr :=
  match (selS (rFn w)).toNat with
  | 0 => .ok (.sel (selP (rFn w)) (rD w) (rA w) (rB w))
  | 1 => .ok (.selS (selP (rFn w)) (rD w) (rA w) (rB w))
  | _ => .error .reservedFunction

/-- Decode of major 0x0E: PAND, POR, PXOR, PANDN, P2V, V2P, VANY, VALL, VBAL, VCNT (R46). -/
def decPlog (w : Word) : Except Reject Instr :=
  match (rFn w).toNat with
  | 0 => do
    let d ← low3 (rD w)
    let a ← low3 (rA w)
    let b ← low3 (rB w)
    .ok (.pand d a b)
  | 1 => do
    let d ← low3 (rD w)
    let a ← low3 (rA w)
    let b ← low3 (rB w)
    .ok (.por d a b)
  | 2 => do
    let d ← low3 (rD w)
    let a ← low3 (rA w)
    let b ← low3 (rB w)
    .ok (.pxor d a b)
  | 3 => do
    let d ← low3 (rD w)
    let a ← low3 (rA w)
    let b ← low3 (rB w)
    .ok (.pandn d a b)
  | 4 => do
    let a ← low3 (rA w)
    zero (rB w)
    .ok (.p2v (rD w) a)
  | 5 => do
    let d ← low3 (rD w)
    zero (rB w)
    .ok (.v2p d (rA w))
  | 6 => do
    let d ← low3 (rD w)
    let a ← low3 (rA w)
    zero (rB w)
    .ok (.vany d a)
  | 7 => do
    let d ← low3 (rD w)
    let a ← low3 (rA w)
    zero (rB w)
    .ok (.vall d a)
  | 8 => do
    let a ← low3 (rA w)
    zero (rB w)
    .ok (.vbal (rD w) a)
  | 9 => do
    let a ← low3 (rA w)
    zero (rB w)
    .ok (.vcnt (rD w) a)
  | _ => .error .reservedFunction

/-- Decode of major 0x0F: ADDI (R46). -/
def decAddi (w : Word) : Except Reject Instr := .ok (.addi (iD w) (iA w) (iImm w))

/-- Decode of major 0x10: ANDI (R46). -/
def decAndi (w : Word) : Except Reject Instr := .ok (.andi (iD w) (iA w) (iImm w))

/-- Decode of major 0x11: ORI (R46). -/
def decOri (w : Word) : Except Reject Instr := .ok (.ori (iD w) (iA w) (iImm w))

/-- Decode of major 0x12: XORI (R46). -/
def decXori (w : Word) : Except Reject Instr := .ok (.xori (iD w) (iA w) (iImm w))

/-- Decode of major 0x13: SHI (R46). -/
def decShi (w : Word) : Except Reject Instr :=
  match (shiOp (iImm w)).toNat with
  | 0 => do
    let n ← shiN (iImm w)
    .ok (.shiShl (iD w) (iA w) n)
  | 1 => do
    let n ← shiN (iImm w)
    .ok (.shiShrn (iD w) (iA w) n)
  | 2 => do
    let n ← shiN (iImm w)
    .ok (.shiShrs (iD w) (iA w) n)
  | 3 => do
    let n ← shiN (iImm w)
    .ok (.shiRot (iD w) (iA w) n)
  | _ => .error .reservedFunction

/-- Decode of major 0x14: MOVI (R46). -/
def decMovi (w : Word) : Except Reject Instr := do
  zero (iA w)
  .ok (.movi (iD w) (iImm w))

/-- Decode of major 0x15: LIT (R46). -/
def decLit (w w2 : Word) : Except Reject Instr := do
  zero (iA w)
  require (litHigh (iImm w)) .fieldNotZero
  .ok (.lit (litSd (iImm w)) (iD w) (litValue (iImm w) w2))

/-- Decode of major 0x16: SADD, SSUB, SMUL, SAND, SOR, SXOR, SSHL, SSHRN, SSHRS, SMINS, SMAXS, SADD64, SSETEQ, SSETNE, SSETLT, SSETLTN (R46). -/
def decSop (w : Word) : Except Reject Instr :=
  match (rFn w).toNat with
  | 0 => .ok (.sadd (rD w) (rA w) (rB w))
  | 1 => .ok (.ssub (rD w) (rA w) (rB w))
  | 2 => .ok (.smul (rD w) (rA w) (rB w))
  | 3 => .ok (.sand (rD w) (rA w) (rB w))
  | 4 => .ok (.sor (rD w) (rA w) (rB w))
  | 5 => .ok (.sxor (rD w) (rA w) (rB w))
  | 6 => .ok (.sshl (rD w) (rA w) (rB w))
  | 7 => .ok (.sshrn (rD w) (rA w) (rB w))
  | 8 => .ok (.sshrs (rD w) (rA w) (rB w))
  | 9 => .ok (.smins (rD w) (rA w) (rB w))
  | 10 => .ok (.smaxs (rD w) (rA w) (rB w))
  | 11 => .ok (.sadd64 (rD w) (rA w) (rB w))
  | 12 => .ok (.sseteq (rD w) (rA w) (rB w))
  | 13 => .ok (.ssetne (rD w) (rA w) (rB w))
  | 14 => .ok (.ssetlt (rD w) (rA w) (rB w))
  | 15 => .ok (.ssetltn (rD w) (rA w) (rB w))
  | _ => .error .reservedFunction

/-- Decode of major 0x17: SADDI (R46). -/
def decSaddi (w : Word) : Except Reject Instr := .ok (.saddi (iD w) (iA w) (iImm w))

/-- Decode of major 0x18: BCAST, RDFIRST, RDLANE, WRLANE, RDLPC, LANEID (R46). -/
def decXmov (w : Word) : Except Reject Instr :=
  match (rFn w).toNat with
  | 0 => do
    zero (rA w)
    .ok (.bcast (rD w) (rB w))
  | 1 => do
    zero (rB w)
    .ok (.rdfirst (rD w) (rA w))
  | 2 => .ok (.rdlane (rD w) (rA w) (rB w))
  | 3 => .ok (.wrlane (rD w) (rA w) (rB w))
  | 4 => do
    zero (rB w)
    .ok (.rdlpc (rD w) (rA w))
  | 5 => do
    zero (rA w)
    zero (rB w)
    .ok (.laneid (rD w))
  | _ => .error .reservedFunction

/-- Decode of major 0x19: RCP, RSQ, SQRT, EX2, LG2, SINPI, COSPI, TANH (R46). -/
def decSfu (w : Word) : Except Reject Instr :=
  match (uFn w).toNat with
  | 0 => do
    zero (uMod w)
    .ok (.rcp (uLa w) (uD w) (uA w))
  | 1 => do
    zero (uMod w)
    .ok (.rsq (uLa w) (uD w) (uA w))
  | 2 => do
    zero (uMod w)
    .ok (.sqrt (uLa w) (uD w) (uA w))
  | 3 => do
    zero (uMod w)
    .ok (.ex2 (uLa w) (uD w) (uA w))
  | 4 => do
    zero (uMod w)
    .ok (.lg2 (uLa w) (uD w) (uA w))
  | 5 => do
    zero (uMod w)
    .ok (.sinpi (uLa w) (uD w) (uA w))
  | 6 => do
    zero (uMod w)
    .ok (.cospi (uLa w) (uD w) (uA w))
  | 7 => do
    zero (uMod w)
    .ok (.tanh (uLa w) (uD w) (uA w))
  | _ => .error .reservedFunction

/-- Decode of major 0x1A: CVT, FRINT (R46). -/
def decCvt (w : Word) : Except Reject Instr :=
  match (uFn w).toNat with
  | 0 => do
    let rnd ← Rnd.ofCode3 (uMod w)
    .ok (.cvtF32S32 (uLa w) (uD w) (uA w) rnd)
  | 1 => do
    let rnd ← Rnd.ofCode3 (uMod w)
    .ok (.cvtF32N32 (uLa w) (uD w) (uA w) rnd)
  | 2 => do
    let rnd ← Rnd.ofCode3 (uMod w)
    .ok (.cvtS32F32 (uLa w) (uD w) (uA w) rnd)
  | 3 => do
    let rnd ← Rnd.ofCode3 (uMod w)
    .ok (.cvtN32F32 (uLa w) (uD w) (uA w) rnd)
  | 4 => do
    let rnd ← Rnd.ofCode3 (uMod w)
    .ok (.cvtF16F32 (uLa w) (uD w) (uA w) rnd)
  | 5 => do
    let rnd ← Rnd.ofCode3 (uMod w)
    .ok (.cvtBf16F32 (uLa w) (uD w) (uA w) rnd)
  | 6 => do
    let rnd ← Rnd.ofCode3 (uMod w)
    .ok (.cvtF32F16 (uLa w) (uD w) (uA w) rnd)
  | 7 => do
    let rnd ← Rnd.ofCode3 (uMod w)
    .ok (.cvtF32Bf16 (uLa w) (uD w) (uA w) rnd)
  | 8 => do
    let rnd ← Rnd.ofCode3 (uMod w)
    .ok (.frint (uLa w) (uD w) (uA w) rnd)
  | _ => .error .reservedFunction

/-- Decode of major 0x1B: QCVT, QWIDEN, QSCALE (R46). -/
def decQcvt (w w2 : Word) : Except Reject Instr :=
  match (q2Fn w2).toNat with
  | 0 => do
    let rnd ← QRnd.ofCode (q2Rnd w2)
    let fmt ← QFmt.ofCode (q2Fmt w2)
    zero (q2Z w2)
    .ok (.qcvt (rFn w) (rD w) (rA w) (rB w) rnd (q2Sat w2 == 1) fmt (q2Pos w2) (q2S w2))
  | 1 => do
    let rnd ← Rnd.ofCode3 (q2Rnd w2)
    let fmt ← QFmt.ofCode (q2Fmt w2)
    zero (q2S w2)
    zero (q2Z w2)
    .ok (.qwiden (rFn w) (rD w) (rA w) (rB w) rnd (q2Sat w2 == 1) fmt (q2Pos w2))
  | 2 => do
    zero (rB w)
    zero (q2Rnd w2)
    zero (q2Sat w2)
    let fmt ← QFmt.ofCode (q2Fmt w2)
    zero (q2Pos w2)
    zero (q2S w2)
    zero (q2Z w2)
    .ok (.qscale (rFn w) (rD w) (rA w) fmt)
  | _ => .error .reservedFunction

/-- Decode of major 0x1C: DP4S8, DP4N8, DP4SN8, DP8S4, DP2BF, DP2H, DP4E4, DP4E5, DP4T5 (R46). -/
def decDot (w : Word) : Except Reject Instr :=
  match (rFn w).toNat with
  | 0 => .ok (.dp4s8 (rD w) (rA w) (rB w))
  | 1 => .ok (.dp4n8 (rD w) (rA w) (rB w))
  | 2 => .ok (.dp4sn8 (rD w) (rA w) (rB w))
  | 3 => .ok (.dp8s4 (rD w) (rA w) (rB w))
  | 4 => .ok (.dp2bf (rD w) (rA w) (rB w))
  | 5 => .ok (.dp2h (rD w) (rA w) (rB w))
  | 6 => .ok (.dp4e4 (rD w) (rA w) (rB w))
  | 7 => .ok (.dp4e5 (rD w) (rA w) (rB w))
  | 8 => .ok (.dp4t5 (rD w) (rA w) (rB w))
  | _ => .error .reservedFunction

/-- Decode of major 0x1D: T5PACK, T5UNPK, T5ENC, T5DEC, T5CHK, TERN, TCNT (R46). -/
def decTrit (w : Word) : Except Reject Instr :=
  match (rFn w).toNat with
  | 0 => do
    zero (rB w)
    .ok (.t5pack (rD w) (rA w))
  | 1 => do
    zero (rB w)
    .ok (.t5unpk (rD w) (rA w))
  | 2 => do
    zero (rB w)
    .ok (.t5enc (rD w) (rA w))
  | 3 => do
    zero (rB w)
    .ok (.t5dec (rD w) (rA w))
  | 4 => do
    let d ← low3 (rD w)
    zero (rB w)
    .ok (.t5chk d (rA w))
  | 5 => .ok (.tern (rD w) (rA w) (rB w))
  | 6 => do
    zero (rB w)
    .ok (.tcnt (rD w) (rA w))
  | _ => .error .reservedFunction

/-- Decode of major 0x1E: SHFLI, SHFLU, SHFLD, SHFLX, REDADD, REDMIN, REDMAX, REDFADD, SCANADD, SCANFADD, CATS, ELECT (R46). -/
def decXlane (w : Word) : Except Reject Instr :=
  match (rFn w).toNat with
  | 0 => .ok (.shfli (rD w) (rA w) (rB w))
  | 1 => .ok (.shflu (rD w) (rA w) (rB w))
  | 2 => .ok (.shfld (rD w) (rA w) (rB w))
  | 3 => .ok (.shflx (rD w) (rA w) (rB w))
  | 4 => do
    zero (rB w)
    .ok (.redadd (rD w) (rA w))
  | 5 => do
    zero (rB w)
    .ok (.redmin (rD w) (rA w))
  | 6 => do
    zero (rB w)
    .ok (.redmax (rD w) (rA w))
  | 7 => do
    zero (rB w)
    .ok (.redfadd (rD w) (rA w))
  | 8 => do
    zero (rB w)
    .ok (.scanadd (rD w) (rA w))
  | 9 => do
    zero (rB w)
    .ok (.scanfadd (rD w) (rA w))
  | 10 => .ok (.cats (rD w) (rA w) (rB w))
  | 11 => do
    let d ← low3 (rD w)
    let a ← low3 (rA w)
    zero (rB w)
    .ok (.elect d a)
  | _ => .error .reservedFunction

/-- Decode of major 0x1F: RNG, RNGF (R46). -/
def decRng (w : Word) : Except Reject Instr :=
  match (rFn w).toNat with
  | 0 => .ok (.rng (rD w) (rA w) (rB w))
  | 1 => .ok (.rngf (rD w) (rA w) (rB w))
  | _ => .error .reservedFunction

/-- Decode of major 0x20: BRA (R46). -/
def decBra (w : Word) : Except Reject Instr := do
  zero (bNeg w)
  require (bP w == 7) .fieldNotZero
  .ok (.bra (bOff w))

/-- Decode of major 0x21: BRU (R46). -/
def decBru (w : Word) : Except Reject Instr := .ok (.bru (bNeg w == 1) (bP w) (bOff w))

/-- Decode of major 0x22: BRX (R46). -/
def decBrx (w : Word) : Except Reject Instr := .ok (.brx (bNeg w == 1) (bP w) (bOff w))

/-- Decode of major 0x23: JMPV, CALLV, RET (R46). -/
def decJmp (w : Word) : Except Reject Instr :=
  match (rFn w).toNat with
  | 0 => do
    zero (rD w)
    zero (rB w)
    .ok (.jmpv (rA w))
  | 1 => do
    zero (rB w)
    .ok (.callv (rD w) (rA w))
  | 2 => do
    zero (rD w)
    zero (rB w)
    .ok (.ret (rA w))
  | _ => .error .reservedFunction

/-- Decode of major 0x24: BAR, ARRIVE, WAITB, GBAR (R46). -/
def decBar (w : Word) : Except Reject Instr :=
  match (rFn w).toNat with
  | 0 => do
    let d ← low3 (rD w)
    let b ← low4 (rB w &&& 0x6f)
    .ok (.bar d (rA w) (barF (rB w)) b)
  | 1 => do
    let b ← low4 (rB w)
    .ok (.arrive (rD w) (rA w) b)
  | 2 => do
    let d ← low3 (rD w)
    let b ← low4 (rB w)
    .ok (.waitb d (rA w) b)
  | 3 => do
    let d ← low3 (rD w)
    let b ← low4 (rB w)
    .ok (.gbar d (rA w) b)
  | _ => .error .reservedFunction

/-- Decode of major 0x25: FENCE, PHASE, XFENCE, REDFLUSH (R46). -/
def decFence (w : Word) : Except Reject Instr :=
  match (rFn w).toNat with
  | 0 => do
    zero (rD w)
    zero (rA w)
    let sc ← fenceScope (rB w)
    match (fenceOrder (rB w)).toNat with
    | 1 => .ok (.fenceAcq sc)
    | 2 => .ok (.fenceRel sc)
    | 3 => .ok (.fenceAr sc)
    | _ => .error .reservedValue
  | 1 => do
    zero (rD w)
    zero (rA w)
    let sc ← Scope.ofCode7 (rB w)
    .ok (.phase sc)
  | 2 => do
    zero (rD w)
    let sc ← Scope.ofCode7 (rB w)
    .ok (.xfence (rA w) sc)
  | 3 => do
    zero (rD w)
    zero (rA w)
    zero (rB w)
    .ok .redflush
  | _ => .error .reservedFunction

/-- Decode of major 0x26: EXIT (R46). -/
def decExit (w : Word) : Except Reject Instr := do
  zero (rD w)
  zero (rA w)
  zero (rB w)
  let n ← low3of4 (rFn w)
  .ok (.exit n)

/-- Decode of major 0x27: LDG (R46). -/
def decLdg (w : Word) : Except Reject Instr := do
  let sz ← Size.ofCode (mSz w)
  let os ← Order.ofCode (mOs w)
  .ok (.ldg (mLa w) (mD w) (mA w) sz os (mX w == 1))

/-- Decode of major 0x28: LDGI (R46). -/
def decLdgi (w : Word) : Except Reject Instr := do
  require (mOs w == 0) .orderCode
  let sz ← Size.ofCode (mSz w)
  .ok (.ldgi (mLa w) (mD w) (mA w) sz (mX w == 1))

/-- Decode of major 0x29: STG (R46). -/
def decStg (w : Word) : Except Reject Instr := do
  zero (mLa w)
  let sz ← Size.ofCode (mSz w)
  let os ← Order.ofCode (mOs w)
  .ok (.stg (mD w) (mA w) sz os (mX w == 1))

/-- Decode of major 0x2A: LDS (R46). -/
def decLds (w : Word) : Except Reject Instr :=
  match (mOs w).toNat with
  | 0 => do
    let sz ← Size.ofCode (mSz w)
    .ok (.lds (mLa w) (mD w) (mA w) sz (mX w == 1))
  | 1 => do
    let sz ← Size.ofCode (mSz w)
    .ok (.ldsWfull (mLa w) (mD w) (mA w) sz (mX w == 1))
  | 2 => do
    let sz ← Size.ofCode (mSz w)
    .ok (.ldsWfullEmpty (mLa w) (mD w) (mA w) sz (mX w == 1))
  | 3 => do
    require (mSz w == 2) .sizeCode
    .ok (.ldsTag (mLa w) (mD w) (mA w) (mX w == 1))
  | _ => .error .reservedFunction

/-- Decode of major 0x2B: STS (R46). -/
def decSts (w : Word) : Except Reject Instr :=
  match (mOs w).toNat with
  | 0 => do
    zero (mLa w)
    let sz ← Size.ofCode (mSz w)
    .ok (.sts (mD w) (mA w) sz (mX w == 1))
  | 1 => do
    zero (mLa w)
    let sz ← Size.ofCode (mSz w)
    .ok (.stsWefull (mD w) (mA w) sz (mX w == 1))
  | 2 => do
    zero (mLa w)
    let sz ← Size.ofCode (mSz w)
    .ok (.stsSfull (mD w) (mA w) sz (mX w == 1))
  | 3 => do
    zero (mLa w)
    zero (mD w)
    let sz ← Size.ofCode (mSz w)
    .ok (.stsSempty (mA w) sz (mX w == 1))
  | _ => .error .reservedFunction

/-- Decode of major 0x2C: LDP (R46). -/
def decLdp (w : Word) : Except Reject Instr := do
  require (mOs w == 0) .orderCode
  let sz ← Size.ofCode (mSz w)
  .ok (.ldp (mLa w) (mD w) (mA w) sz (mX w == 1))

/-- Decode of major 0x2D: STP (R46). -/
def decStp (w : Word) : Except Reject Instr := do
  require (mOs w == 0) .orderCode
  zero (mLa w)
  let sz ← Size.ofCode (mSz w)
  .ok (.stp (mD w) (mA w) sz (mX w == 1))

/-- Decode of major 0x2E: LDK (R46). -/
def decLdk (w : Word) : Except Reject Instr := do
  require (mOs w == 0) .orderCode
  let sz ← Size.ofCode (mSz w)
  .ok (.ldk (mLa w) (mD w) (mA w) sz (mX w == 1))

/-- Decode of major 0x2F: ATOM (R46). -/
def decAtom (w w2 : Word) : Except Reject Instr :=
  match (a2Op w2).toNat with
  | 0 => do
    let oss ← Order.ofCode (a2Oss w2)
    zero (a2Osf w2)
    let s8 ← sizeBit (a2Size w2)
    zero (a2Cmp w2)
    zero (a2Z w2)
    .ok (.atomAdd (rFn w) (rD w) (rA w) (rB w) oss s8 (a2T w2 == 1))
  | 1 => do
    let oss ← Order.ofCode (a2Oss w2)
    zero (a2Osf w2)
    let s8 ← sizeBit (a2Size w2)
    zero (a2Cmp w2)
    zero (a2Z w2)
    .ok (.atomAnd (rFn w) (rD w) (rA w) (rB w) oss s8 (a2T w2 == 1))
  | 2 => do
    let oss ← Order.ofCode (a2Oss w2)
    zero (a2Osf w2)
    let s8 ← sizeBit (a2Size w2)
    zero (a2Cmp w2)
    zero (a2Z w2)
    .ok (.atomOr (rFn w) (rD w) (rA w) (rB w) oss s8 (a2T w2 == 1))
  | 3 => do
    let oss ← Order.ofCode (a2Oss w2)
    zero (a2Osf w2)
    let s8 ← sizeBit (a2Size w2)
    zero (a2Cmp w2)
    zero (a2Z w2)
    .ok (.atomXor (rFn w) (rD w) (rA w) (rB w) oss s8 (a2T w2 == 1))
  | 4 => do
    let oss ← Order.ofCode (a2Oss w2)
    zero (a2Osf w2)
    let s8 ← sizeBit (a2Size w2)
    zero (a2Cmp w2)
    zero (a2Z w2)
    .ok (.atomMins (rFn w) (rD w) (rA w) (rB w) oss s8 (a2T w2 == 1))
  | 5 => do
    let oss ← Order.ofCode (a2Oss w2)
    zero (a2Osf w2)
    let s8 ← sizeBit (a2Size w2)
    zero (a2Cmp w2)
    zero (a2Z w2)
    .ok (.atomMaxs (rFn w) (rD w) (rA w) (rB w) oss s8 (a2T w2 == 1))
  | 6 => do
    let oss ← Order.ofCode (a2Oss w2)
    zero (a2Osf w2)
    let s8 ← sizeBit (a2Size w2)
    zero (a2Cmp w2)
    zero (a2Z w2)
    .ok (.atomMinn (rFn w) (rD w) (rA w) (rB w) oss s8 (a2T w2 == 1))
  | 7 => do
    let oss ← Order.ofCode (a2Oss w2)
    zero (a2Osf w2)
    let s8 ← sizeBit (a2Size w2)
    zero (a2Cmp w2)
    zero (a2Z w2)
    .ok (.atomMaxn (rFn w) (rD w) (rA w) (rB w) oss s8 (a2T w2 == 1))
  | 8 => do
    let oss ← Order.ofCode (a2Oss w2)
    zero (a2Osf w2)
    let s8 ← sizeBit (a2Size w2)
    zero (a2Cmp w2)
    zero (a2Z w2)
    .ok (.atomExch (rFn w) (rD w) (rA w) (rB w) oss s8 (a2T w2 == 1))
  | 9 => do
    let oss ← Order.ofCode (a2Oss w2)
    zero (a2Osf w2)
    require (a2Size w2 == 0) .sizeCode
    zero (a2Cmp w2)
    zero (a2Z w2)
    .ok (.atomFadd (rFn w) (rD w) (rA w) (rB w) oss (a2T w2 == 1))
  | 10 => do
    let oss ← Order.ofCode (a2Oss w2)
    zero (a2Osf w2)
    require (a2Size w2 == 0) .sizeCode
    zero (a2Cmp w2)
    zero (a2Z w2)
    .ok (.atomBfadd2 (rFn w) (rD w) (rA w) (rB w) oss (a2T w2 == 1))
  | 11 => do
    let oss ← Order.ofCode (a2Oss w2)
    zero (a2Osf w2)
    require (a2Size w2 == 0) .sizeCode
    zero (a2Cmp w2)
    zero (a2Z w2)
    .ok (.atomMaxa (rFn w) (rD w) (rA w) (rB w) oss (a2T w2 == 1))
  | 12 => do
    let oss ← Order.ofCode (a2Oss w2)
    let osf ← Order.ofCode (a2Osf w2)
    let s8 ← sizeBit (a2Size w2)
    zero (a2Z w2)
    .ok (.atomCas (rFn w) (rD w) (rA w) (rB w) oss osf s8 (a2T w2 == 1) (a2Cmp w2))
  | _ => .error .reservedFunction

/-- Decode of major 0x30: RED (R46). -/
def decRed (w : Word) : Except Reject Instr :=
  match (rFn w).toNat with
  | 0 => do
    let os ← redOs (rD w)
    .ok (.redAdd os (redS8 (rD w)) (rA w) (rB w))
  | 1 => do
    let os ← redOs (rD w)
    .ok (.redAnd os (redS8 (rD w)) (rA w) (rB w))
  | 2 => do
    let os ← redOs (rD w)
    .ok (.redOr os (redS8 (rD w)) (rA w) (rB w))
  | 3 => do
    let os ← redOs (rD w)
    .ok (.redXor os (redS8 (rD w)) (rA w) (rB w))
  | 4 => do
    let os ← redOs (rD w)
    .ok (.redMins os (redS8 (rD w)) (rA w) (rB w))
  | 5 => do
    let os ← redOs (rD w)
    .ok (.redMaxs os (redS8 (rD w)) (rA w) (rB w))
  | 6 => do
    let os ← redOs (rD w)
    .ok (.redMinn os (redS8 (rD w)) (rA w) (rB w))
  | 7 => do
    let os ← redOs (rD w)
    .ok (.redMaxn os (redS8 (rD w)) (rA w) (rB w))
  | 8 => do
    let os ← redOs (rD w)
    require (!redS8 (rD w)) .sizeCode
    .ok (.redFadd os (rA w) (rB w))
  | 9 => do
    let os ← redOs (rD w)
    require (!redS8 (rD w)) .sizeCode
    .ok (.redBfadd2 os (rA w) (rB w))
  | 10 => do
    let os ← redOs (rD w)
    require (!redS8 (rD w)) .sizeCode
    .ok (.redMaxa os (rA w) (rB w))
  | _ => .error .reservedFunction

/-- Decode of major 0x31: TCOPY (R46). -/
def decTcopy (w w2 : Word) : Except Reject Instr :=
  match (t2Mode w2).toNat with
  | 0 => do
    zero (tZ w)
    let xpose ← Xpose.ofCode (t2Xp w2)
    zero (t2Gtid w2)
    zero (t2Z w2)
    .ok (.tcopyTile (tTid w) (tCs w) (tOff w) xpose (t2Exp w2 == 1) (t2Tok w2))
  | 1 => do
    zero (tZ w)
    let xpose ← Xpose.ofCode (t2Xp w2)
    zero (t2Gtid w2)
    zero (t2Z w2)
    .ok (.tcopyStore (tTid w) (tCs w) (tOff w) xpose (t2Exp w2 == 1) (t2Tok w2))
  | 2 => do
    zero (tZ w)
    let xpose ← Xpose.ofCode (t2Xp w2)
    zero (t2Gtid w2)
    zero (t2Z w2)
    .ok (.tcopyWin (tTid w) (tCs w) (tOff w) xpose (t2Exp w2 == 1) (t2Tok w2))
  | 3 => do
    zero (tZ w)
    let xpose ← Xpose.ofCode (t2Xp w2)
    zero (t2Z w2)
    .ok (.tcopyGather (tTid w) (tCs w) (tOff w) xpose (t2Exp w2 == 1) (t2Tok w2) (t2Gtid w2))
  | 4 => do
    zero (tOff w)
    zero (tZ w)
    let xpose ← Xpose.ofCode (t2Xp w2)
    zero (t2Gtid w2)
    zero (t2Z w2)
    .ok (.tcopyPf (tTid w) (tCs w) xpose (t2Exp w2 == 1) (t2Tok w2))
  | _ => .error .reservedFunction

/-- Decode of major 0x32: TIDSET, TIDINV, TIDQ (R46). -/
def decTmap (w : Word) : Except Reject Instr :=
  match (rFn w).toNat with
  | 0 => do
    let s ← low1 (rD w)
    let t ← low6 (rB w)
    .ok (.tidset s (rA w) t)
  | 1 => do
    zero (rD w)
    zero (rA w)
    let t ← low6 (rB w)
    .ok (.tidinv t)
  | 2 => do
    let wi ← low5 (rA w)
    let t ← low6 (rB w)
    .ok (.tidq (rD w) wi t)
  | _ => .error .reservedFunction

/-- Decode of major 0x33: QPUSH, QPOP, QTRY, QCNT (R46). -/
def decQop (w : Word) : Except Reject Instr :=
  match (rFn w).toNat with
  | 0 => do
    let q ← low4 (rD w)
    zero (rB w)
    .ok (.qpush q (rA w))
  | 1 => do
    let q ← low4 (rA w)
    let p ← low3 (rB w)
    .ok (.qpop (rD w) q p)
  | 2 => do
    let q ← low4 (rA w)
    let p ← low3 (rB w)
    .ok (.qtry (rD w) q p)
  | 3 => do
    let q ← low4 (rA w)
    zero (rB w)
    .ok (.qcnt (rD w) q)
  | _ => .error .reservedFunction

/-- Decode of major 0x34: ARES, AREL (R46). -/
def decAres (w : Word) : Except Reject Instr :=
  match (rFn w).toNat with
  | 0 => do
    let d ← low3 (rD w)
    zero (rA w)
    zero (rB w)
    .ok (.ares d)
  | 1 => do
    zero (rD w)
    zero (rA w)
    zero (rB w)
    .ok .arel
  | _ => .error .reservedFunction

/-- Decode of major 0x35: TUN (R46). -/
def decTun (w w2 : Word) : Except Reject Instr :=
  match (eOp w).toNat with
  | 0 => do
    let bank ← bankOf (eLow w)
    zero (u2M w2)
    zero (u2Row w2)
    zero (u2Acc w2)
    zero (u2Tid2 w2)
    zero (u2Tid3 w2)
    zero (u2Z w2)
    .ok (.tunLdw (eTid w) (eArg w) (eTok w) bank (u2T5 w2 == 1))
  | 1 => do
    let bank ← bankOf (eLow w)
    let m1 ← low7of8 (u2M w2)
    zero (u2Tid2 w2)
    zero (u2Tid3 w2)
    zero (u2Z w2)
    .ok (.tunMm (eTid w) (eArg w) (eTok w) bank m1 (u2Row w2) (u2T5 w2 == 1) (u2Acc w2 == 1))
  | 2 => do
    let bank ← bankOf (eLow w)
    let m1 ← low7of8 (u2M w2)
    zero (u2Tid3 w2)
    zero (u2Z w2)
    .ok (.tunGmm (eTid w) (eArg w) (eTok w) bank m1 (u2Row w2) (u2T5 w2 == 1) (u2Acc w2 == 1) (u2Tid2 w2))
  | 3 => do
    zero (eLow w)
    let m1 ← low7of8 (u2M w2)
    zero (u2T5 w2)
    zero (u2Acc w2)
    zero (u2Tid2 w2)
    zero (u2Z w2)
    .ok (.tunDrn (eTid w) (eArg w) (eTok w) m1 (u2Row w2) (u2Tid3 w2))
  | 4 => do
    zero (eTid w)
    zero (eArg w)
    zero (eLow w)
    let m1 ← low7of8 (u2M w2)
    zero (u2T5 w2)
    zero (u2Acc w2)
    zero (u2Tid2 w2)
    zero (u2Tid3 w2)
    zero (u2Z w2)
    .ok (.tunZero (eTok w) m1 (u2Row w2))
  | 5 => do
    let bank ← bankOf (eLow w)
    let m1 ← low7of8 (u2M w2)
    zero (u2T5 w2)
    zero (u2Tid2 w2)
    zero (u2Tid3 w2)
    zero (u2Z w2)
    .ok (.tunBdiag (eTid w) (eArg w) (eTok w) bank m1 (u2Row w2) (u2Acc w2 == 1))
  | _ => .error .reservedFunction

/-- Decode of major 0x36: TRACE, TRACEV, TRACERC (R46). -/
def decTrace (w w2 : Word) : Except Reject Instr :=
  match (vFn w).toNat with
  | 0 => do
    zero (vZ w)
    let flags ← low2of4 (v2Rfl w2)
    zero (v2Z w2)
    .ok (.trace (vTid w) (vA w) (v2Mask w2) flags (v2Tag w2))
  | 1 => do
    zero (vZ w)
    let flags ← low2of4 (v2Rfl w2)
    zero (v2Z w2)
    .ok (.tracev (vTid w) (vA w) (v2Mask w2) flags (v2Tag w2))
  | 2 => do
    zero (vZ w)
    let flags ← low2of4 (v2Rfl w2)
    zero (v2Z w2)
    .ok (.tracerc (vTid w) (vA w) (v2Mask w2) flags (v2Tag w2))
  | _ => .error .reservedFunction

/-- Decode of major 0x37: LTWALK (R46). -/
def decLtwalk (w w2 : Word) : Except Reject Instr := do
  zero (tOff w)
  zero (tZ w)
  zero (w2Z w2)
  .ok (.ltwalk (tTid w) (tCs w) (w2Tag w2))

/-- Decode of major 0x38: RSV (R46). -/
def decRsv (w : Word) : Except Reject Instr :=
  match (rFn w).toNat with
  | 0 => .ok (.rsvUpd (rD w) (rA w) (rB w))
  | 1 => .ok (.rsvMrg (rD w) (rA w) (rB w))
  | 2 => do
    zero (rA w)
    .ok (.rsvNrm (rD w) (rB w))
  | 3 => do
    zero (rA w)
    zero (rB w)
    .ok (.rsvClr (rD w))
  | _ => .error .reservedFunction

/-- Decode of major 0x39: RSV (R46). -/
def decRsvm (w : Word) : Except Reject Instr :=
  match (mX w).toNat with
  | 0 => do
    require (mSz w == 5) .sizeCode
    let os ← Order.ofCode (mOs w)
    .ok (.rsvLd (mLa w) (mD w) (mA w) os)
  | 1 => do
    zero (mLa w)
    require (mSz w == 5) .sizeCode
    let os ← Order.ofCode (mOs w)
    .ok (.rsvSt (mD w) (mA w) os)
  | _ => .error .reservedFunction

/-- Decode of major 0x3A: SMP (R46). -/
def decSmp (w w2 : Word) : Except Reject Instr := do
  zero (sZ w)
  let filt ← Filt.ofCode (s2Filt w2)
  let aniso ← Aniso.ofCode (s2Aniso w2)
  let grad ← lodOf (s2Lod w2)
  zero (s2Z w2)
  .ok (.smp (sLa w) (sD w) (sA w) (sTid w) filt aniso grad (Wrap.ofCode (s2Wrap w2)))

/-- Decode of major 0x3B: SPARGE, GRIST, COLL, LAUNCH (R46). -/
def decEng (w w2 : Word) : Except Reject Instr :=
  match (eOp w).toNat with
  | 0 => do
    zero (eLow w)
    zero (g2Imm w2)
    zero (g2Z w2)
    .ok (.sparge (eTid w) (eArg w) (eTok w))
  | 1 => do
    zero (eLow w)
    zero (g2Imm w2)
    zero (g2Z w2)
    .ok (.grist (eTid w) (eArg w) (eTok w))
  | 2 => do
    zero (eLow w)
    let kind ← collKind (g2Imm w2)
    let fn ← collFn (g2Imm w2)
    zero (g2Z w2)
    .ok (.coll (eTid w) (eArg w) (eTok w) kind fn)
  | 3 => do
    zero (eTid w)
    zero (eLow w)
    zero (g2Z w2)
    .ok (.launch (g2Imm w2) (eArg w) (eTok w))
  | _ => .error .reservedFunction

/-- Decode of major 0x3C: ORDENTER, ORDLEAVE (R46). -/
def decOrd (w : Word) : Except Reject Instr :=
  match (rFn w).toNat with
  | 0 => do
    zero (rA w)
    zero (rB w)
    .ok (.ordenter (rD w))
  | 1 => do
    zero (rD w)
    zero (rA w)
    zero (rB w)
    .ok .ordleave
  | _ => .error .reservedFunction

/-- The instruction that the words `w` and `w2` hold, before the checks of `Instr.flaw`; `c` is the tie bit of R30.
Majors 0x3D to 0x3F are reserved (R46). -/
def decodeFields (c : Bool) (w w2 : Word) : Except Reject Instr :=
  match (majorOf w).toNat with
  | 0 => decSys c w
  | 1 => decInt w
  | 2 => decIntS w
  | 3 => decInt2 w
  | 4 => decInt2S w
  | 5 => decIcmp w
  | 6 => decIcmpS w
  | 7 => decFop w
  | 8 => decFopS w
  | 9 => decFcmp w
  | 10 => decFcmpS w
  | 11 => decHop w
  | 12 => decHopS w
  | 13 => decSel w
  | 14 => decPlog w
  | 15 => decAddi w
  | 16 => decAndi w
  | 17 => decOri w
  | 18 => decXori w
  | 19 => decShi w
  | 20 => decMovi w
  | 21 => decLit w w2
  | 22 => decSop w
  | 23 => decSaddi w
  | 24 => decXmov w
  | 25 => decSfu w
  | 26 => decCvt w
  | 27 => decQcvt w w2
  | 28 => decDot w
  | 29 => decTrit w
  | 30 => decXlane w
  | 31 => decRng w
  | 32 => decBra w
  | 33 => decBru w
  | 34 => decBrx w
  | 35 => decJmp w
  | 36 => decBar w
  | 37 => decFence w
  | 38 => decExit w
  | 39 => decLdg w
  | 40 => decLdgi w
  | 41 => decStg w
  | 42 => decLds w
  | 43 => decSts w
  | 44 => decLdp w
  | 45 => decStp w
  | 46 => decLdk w
  | 47 => decAtom w w2
  | 48 => decRed w
  | 49 => decTcopy w w2
  | 50 => decTmap w
  | 51 => decQop w
  | 52 => decAres w
  | 53 => decTun w w2
  | 54 => decTrace w w2
  | 55 => decLtwalk w w2
  | 56 => decRsv w
  | 57 => decRsvm w
  | 58 => decSmp w w2
  | 59 => decEng w w2
  | 60 => decOrd w
  | _ => .error .reservedMajor

/-- The majors whose instructions take two words (R46: format F-L). -/
def twoWord (mj : BitVec 6) : Bool :=
  [0x15, 0x1B, 0x2F, 0x31, 0x35, 0x36, 0x37, 0x3A, 0x3B].contains mj.toNat

/-- A decoded instruction: what it is, its tie bit C (R30), and how many words it takes. -/
structure Decoded where
  instr : Instr
  tied  : Bool
  words : Nat
  deriving DecidableEq, Repr

/-- Refuse an instruction that is not well formed. -/
def checked (i : Instr) : Except Reject Instr :=
  match i.flaw with
  | some r => .error r
  | none => .ok i

/-- Decode the instruction at the head of a list of words (R28).  Total. -/
def decodeWords : List Word → Except Reject Decoded
  | [] => .error .truncated
  | w :: rest =>
    if twoWord (majorOf w) then
      match rest with
      | [] => .error .truncated
      | w2 :: _ =>
        if tieBit w = 1 then .error .pairBit31
        else do
          let i ← decodeFields false w w2
          let i ← checked i
          .ok ⟨i, tieBit w2 == 1, 2⟩
    else do
      let i ← decodeFields (tieBit w == 1) w 0
      let i ← checked i
      .ok ⟨i, tieBit w == 1, 1⟩

/-- Words from bytes, each stored with its least significant byte first (R5, R27).  Bytes left over are dropped. -/
def wordsOfBytes : List Byte → List Word
  | b0 :: b1 :: b2 :: b3 :: rest =>
    BitVec.ofNat 32 (b0.toNat + b1.toNat * 256 + b2.toNat * 65536 + b3.toNat * 16777216) :: wordsOfBytes rest
  | _ => []

/-- The bytes of a word, least significant first (R5). -/
def bytesOfWord (w : Word) : List Byte :=
  [BitVec.ofNat 8 w.toNat, BitVec.ofNat 8 (w.toNat / 256), BitVec.ofNat 8 (w.toNat / 65536), BitVec.ofNat 8 (w.toNat / 16777216)]

/-- Decode the instruction at the head of a list of bytes. -/
def decodeBytes (bs : List Byte) : Except Reject Decoded := decodeWords (wordsOfBytes bs)

/-- The words of an instruction whose bits are `w`, numbered as the opcode table numbers them: the first word in bits
31:0, the second in bits 63:32; bits above `nbits` are 0. -/
def tableWords (nbits w : Nat) : List Word :=
  [BitVec.ofNat 32 (w % 2 ^ nbits), BitVec.ofNat 32 (w % 2 ^ nbits / 4294967296)]

/-- What the decoder reads from an instruction whose bits are `w`, laid out in memory as the hardware stores it. -/
def decodeTableWord (nbits w : Nat) : Option Instr :=
  match decodeBytes ((tableWords nbits w).flatMap bytesOfWord) with
  | .ok x => some x.instr
  | .error _ => none

/-- The words of instruction `i` with tie bit `c`, from the layouts of R34 to R42 and R48 to R56.
No words stand for an event, nor for a tied NOP (R29 gives NOP as C = 0). -/
def encode (i : Instr) (c : Bool) : Option (List Word) :=
  match i with
  | .nop => if c then none else some [packR false 0 0 0 0 0]
  | .trap n => some [packR c 0 1 0 0 n]
  | .eret => some [packR c 0 2 0 0 0]
  | .halt a => some [packR c 0 3 0 a 0]
  | .csrr d e => some [packR c 0 4 d 0 e]
  | .csrw a e => some [packR c 0 5 0 a e]
  | .segld a k => some [packR c 0 6 0 a (k.setWidth 7)]
  | .tlbinv a e => some [packR c 0 7 0 a e]
  | .tlbinvAll => some [packR c 0 7 1 0 0]
  | .icinv a e => some [packR c 0 8 0 a e]
  | .isync => some [packR c 0 9 0 0 0]
  | .sleep a => some [packR c 0 10 0 a 0]
  | .yield => some [packR c 0 11 0 0 0]
  | .flagrd d => some [packR c 0 12 d 0 0]
  | .flagclr m => some [packR c 0 13 0 0 (m.setWidth 7)]
  | .clock d => some [packR c 0 14 d 0 0]
  | .add d a b => some [packR c 1 0 d a b]
  | .sub d a b => some [packR c 1 1 d a b]
  | .mul d a b => some [packR c 1 2 d a b]
  | .mulhs d a b => some [packR c 1 3 d a b]
  | .mulhn d a b => some [packR c 1 4 d a b]
  | .mins d a b => some [packR c 1 5 d a b]
  | .maxs d a b => some [packR c 1 6 d a b]
  | .minn d a b => some [packR c 1 7 d a b]
  | .maxn d a b => some [packR c 1 8 d a b]
  | .and d a b => some [packR c 1 9 d a b]
  | .or d a b => some [packR c 1 10 d a b]
  | .xor d a b => some [packR c 1 11 d a b]
  | .andn d a b => some [packR c 1 12 d a b]
  | .shl d a b => some [packR c 1 13 d a b]
  | .shrn d a b => some [packR c 1 14 d a b]
  | .shrs d a b => some [packR c 1 15 d a b]
  | .addS d a b => some [packR c 2 0 d a b]
  | .subS d a b => some [packR c 2 1 d a b]
  | .mulS d a b => some [packR c 2 2 d a b]
  | .mulhsS d a b => some [packR c 2 3 d a b]
  | .mulhnS d a b => some [packR c 2 4 d a b]
  | .minsS d a b => some [packR c 2 5 d a b]
  | .maxsS d a b => some [packR c 2 6 d a b]
  | .minnS d a b => some [packR c 2 7 d a b]
  | .maxnS d a b => some [packR c 2 8 d a b]
  | .andS d a b => some [packR c 2 9 d a b]
  | .orS d a b => some [packR c 2 10 d a b]
  | .xorS d a b => some [packR c 2 11 d a b]
  | .andnS d a b => some [packR c 2 12 d a b]
  | .shlS d a b => some [packR c 2 13 d a b]
  | .shrnS d a b => some [packR c 2 14 d a b]
  | .shrsS d a b => some [packR c 2 15 d a b]
  | .rot d a b => some [packR c 3 0 d a b]
  | .absd d a b => some [packR c 3 1 d a b]
  | .mac d a b => some [packR c 3 2 d a b]
  | .add64 d a b => some [packR c 3 3 d a b]
  | .sub64 d a b => some [packR c 3 4 d a b]
  | .bfen d a b => some [packR c 3 5 d a b]
  | .bfes d a b => some [packR c 3 6 d a b]
  | .bfi d a b => some [packR c 3 7 d a b]
  | .popc d a => some [packR c 3 8 d a 0]
  | .clz d a => some [packR c 3 9 d a 0]
  | .brev d a => some [packR c 3 10 d a 0]
  | .bsel d a b => some [packR c 3 11 d a b]
  | .lea0 d a b => some [packR c 3 12 d a b]
  | .lea1 d a b => some [packR c 3 13 d a b]
  | .lea2 d a b => some [packR c 3 14 d a b]
  | .lea3 d a b => some [packR c 3 15 d a b]
  | .rotS d a b => some [packR c 4 0 d a b]
  | .absdS d a b => some [packR c 4 1 d a b]
  | .macS d a b => some [packR c 4 2 d a b]
  | .add64S d a b => some [packR c 4 3 d a b]
  | .sub64S d a b => some [packR c 4 4 d a b]
  | .bfenS d a b => some [packR c 4 5 d a b]
  | .bfesS d a b => some [packR c 4 6 d a b]
  | .bfiS d a b => some [packR c 4 7 d a b]
  | .popcS d a => some [packR c 4 8 d a 0]
  | .clzS d a => some [packR c 4 9 d a 0]
  | .brevS d a => some [packR c 4 10 d a 0]
  | .bselS d a b => some [packR c 4 11 d a b]
  | .lea0S d a b => some [packR c 4 12 d a b]
  | .lea1S d a b => some [packR c 4 13 d a b]
  | .lea2S d a b => some [packR c 4 14 d a b]
  | .lea3S d a b => some [packR c 4 15 d a b]
  | .icmpEq d a b => some [packR c 5 0 (d.setWidth 7) a b]
  | .icmpNe d a b => some [packR c 5 1 (d.setWidth 7) a b]
  | .icmpLts d a b => some [packR c 5 2 (d.setWidth 7) a b]
  | .icmpLes d a b => some [packR c 5 3 (d.setWidth 7) a b]
  | .icmpGts d a b => some [packR c 5 4 (d.setWidth 7) a b]
  | .icmpGes d a b => some [packR c 5 5 (d.setWidth 7) a b]
  | .icmpLtn d a b => some [packR c 5 6 (d.setWidth 7) a b]
  | .icmpLen d a b => some [packR c 5 7 (d.setWidth 7) a b]
  | .icmpGtn d a b => some [packR c 5 8 (d.setWidth 7) a b]
  | .icmpGen d a b => some [packR c 5 9 (d.setWidth 7) a b]
  | .icmpTst d a b => some [packR c 5 10 (d.setWidth 7) a b]
  | .icmpNtst d a b => some [packR c 5 11 (d.setWidth 7) a b]
  | .icmpEqS d a b => some [packR c 6 0 (d.setWidth 7) a b]
  | .icmpNeS d a b => some [packR c 6 1 (d.setWidth 7) a b]
  | .icmpLtsS d a b => some [packR c 6 2 (d.setWidth 7) a b]
  | .icmpLesS d a b => some [packR c 6 3 (d.setWidth 7) a b]
  | .icmpGtsS d a b => some [packR c 6 4 (d.setWidth 7) a b]
  | .icmpGesS d a b => some [packR c 6 5 (d.setWidth 7) a b]
  | .icmpLtnS d a b => some [packR c 6 6 (d.setWidth 7) a b]
  | .icmpLenS d a b => some [packR c 6 7 (d.setWidth 7) a b]
  | .icmpGtnS d a b => some [packR c 6 8 (d.setWidth 7) a b]
  | .icmpGenS d a b => some [packR c 6 9 (d.setWidth 7) a b]
  | .icmpTstS d a b => some [packR c 6 10 (d.setWidth 7) a b]
  | .icmpNtstS d a b => some [packR c 6 11 (d.setWidth 7) a b]
  | .fadd d a b => some [packR c 7 0 d a b]
  | .fsub d a b => some [packR c 7 1 d a b]
  | .fmul d a b => some [packR c 7 2 d a b]
  | .fmac d a b => some [packR c 7 3 d a b]
  | .fmsc d a b => some [packR c 7 4 d a b]
  | .fmin d a b => some [packR c 7 5 d a b]
  | .fmax d a b => some [packR c 7 6 d a b]
  | .fminn d a b => some [packR c 7 7 d a b]
  | .fmaxn d a b => some [packR c 7 8 d a b]
  | .fcps d a b => some [packR c 7 9 d a b]
  | .fscl d a b => some [packR c 7 10 d a b]
  | .faddS d a b => some [packR c 8 0 d a b]
  | .fsubS d a b => some [packR c 8 1 d a b]
  | .fmulS d a b => some [packR c 8 2 d a b]
  | .fmacS d a b => some [packR c 8 3 d a b]
  | .fmscS d a b => some [packR c 8 4 d a b]
  | .fminS d a b => some [packR c 8 5 d a b]
  | .fmaxS d a b => some [packR c 8 6 d a b]
  | .fminnS d a b => some [packR c 8 7 d a b]
  | .fmaxnS d a b => some [packR c 8 8 d a b]
  | .fcpsS d a b => some [packR c 8 9 d a b]
  | .fsclS d a b => some [packR c 8 10 d a b]
  | .fcmpEq d a b => some [packR c 9 0 (d.setWidth 7) a b]
  | .fcmpNe d a b => some [packR c 9 1 (d.setWidth 7) a b]
  | .fcmpLt d a b => some [packR c 9 2 (d.setWidth 7) a b]
  | .fcmpLe d a b => some [packR c 9 3 (d.setWidth 7) a b]
  | .fcmpGt d a b => some [packR c 9 4 (d.setWidth 7) a b]
  | .fcmpGe d a b => some [packR c 9 5 (d.setWidth 7) a b]
  | .fcmpUn d a b => some [packR c 9 6 (d.setWidth 7) a b]
  | .fcmpOr d a b => some [packR c 9 7 (d.setWidth 7) a b]
  | .fcmpEqS d a b => some [packR c 10 0 (d.setWidth 7) a b]
  | .fcmpNeS d a b => some [packR c 10 1 (d.setWidth 7) a b]
  | .fcmpLtS d a b => some [packR c 10 2 (d.setWidth 7) a b]
  | .fcmpLeS d a b => some [packR c 10 3 (d.setWidth 7) a b]
  | .fcmpGtS d a b => some [packR c 10 4 (d.setWidth 7) a b]
  | .fcmpGeS d a b => some [packR c 10 5 (d.setWidth 7) a b]
  | .fcmpUnS d a b => some [packR c 10 6 (d.setWidth 7) a b]
  | .fcmpOrS d a b => some [packR c 10 7 (d.setWidth 7) a b]
  | .hadd d a b => some [packR c 11 0 d a b]
  | .hsub d a b => some [packR c 11 1 d a b]
  | .hmul d a b => some [packR c 11 2 d a b]
  | .hmac d a b => some [packR c 11 3 d a b]
  | .hmin d a b => some [packR c 11 4 d a b]
  | .hmax d a b => some [packR c 11 5 d a b]
  | .badd d a b => some [packR c 11 6 d a b]
  | .bsub d a b => some [packR c 11 7 d a b]
  | .bmul d a b => some [packR c 11 8 d a b]
  | .bmac d a b => some [packR c 11 9 d a b]
  | .bmin d a b => some [packR c 11 10 d a b]
  | .bmax d a b => some [packR c 11 11 d a b]
  | .haddS d a b => some [packR c 12 0 d a b]
  | .hsubS d a b => some [packR c 12 1 d a b]
  | .hmulS d a b => some [packR c 12 2 d a b]
  | .hmacS d a b => some [packR c 12 3 d a b]
  | .hminS d a b => some [packR c 12 4 d a b]
  | .hmaxS d a b => some [packR c 12 5 d a b]
  | .baddS d a b => some [packR c 12 6 d a b]
  | .bsubS d a b => some [packR c 12 7 d a b]
  | .bmulS d a b => some [packR c 12 8 d a b]
  | .bmacS d a b => some [packR c 12 9 d a b]
  | .bminS d a b => some [packR c 12 10 d a b]
  | .bmaxS d a b => some [packR c 12 11 d a b]
  | .sel p d a b => some [packR c 13 (selFn 0 p) d a b]
  | .selS p d a b => some [packR c 13 (selFn 1 p) d a b]
  | .pand d a b => some [packR c 14 0 (d.setWidth 7) (a.setWidth 7) (b.setWidth 7)]
  | .por d a b => some [packR c 14 1 (d.setWidth 7) (a.setWidth 7) (b.setWidth 7)]
  | .pxor d a b => some [packR c 14 2 (d.setWidth 7) (a.setWidth 7) (b.setWidth 7)]
  | .pandn d a b => some [packR c 14 3 (d.setWidth 7) (a.setWidth 7) (b.setWidth 7)]
  | .p2v d a => some [packR c 14 4 d (a.setWidth 7) 0]
  | .v2p d a => some [packR c 14 5 (d.setWidth 7) a 0]
  | .vany d a => some [packR c 14 6 (d.setWidth 7) (a.setWidth 7) 0]
  | .vall d a => some [packR c 14 7 (d.setWidth 7) (a.setWidth 7) 0]
  | .vbal d a => some [packR c 14 8 d (a.setWidth 7) 0]
  | .vcnt d a => some [packR c 14 9 d (a.setWidth 7) 0]
  | .addi d a imm => some [packI c 15 d a imm]
  | .andi d a imm => some [packI c 16 d a imm]
  | .ori d a imm => some [packI c 17 d a imm]
  | .xori d a imm => some [packI c 18 d a imm]
  | .shiShl d a n => some [packI c 19 d a (shiImm 0 n)]
  | .shiShrn d a n => some [packI c 19 d a (shiImm 1 n)]
  | .shiShrs d a n => some [packI c 19 d a (shiImm 2 n)]
  | .shiRot d a n => some [packI c 19 d a (shiImm 3 n)]
  | .movi d imm => some [packI c 20 d 0 imm]
  | .lit sd d value => some [packI false 21 d 0 (litImm sd value), packL2 c value]
  | .sadd d a b => some [packR c 22 0 d a b]
  | .ssub d a b => some [packR c 22 1 d a b]
  | .smul d a b => some [packR c 22 2 d a b]
  | .sand d a b => some [packR c 22 3 d a b]
  | .sor d a b => some [packR c 22 4 d a b]
  | .sxor d a b => some [packR c 22 5 d a b]
  | .sshl d a b => some [packR c 22 6 d a b]
  | .sshrn d a b => some [packR c 22 7 d a b]
  | .sshrs d a b => some [packR c 22 8 d a b]
  | .smins d a b => some [packR c 22 9 d a b]
  | .smaxs d a b => some [packR c 22 10 d a b]
  | .sadd64 d a b => some [packR c 22 11 d a b]
  | .sseteq d a b => some [packR c 22 12 d a b]
  | .ssetne d a b => some [packR c 22 13 d a b]
  | .ssetlt d a b => some [packR c 22 14 d a b]
  | .ssetltn d a b => some [packR c 22 15 d a b]
  | .saddi d a imm => some [packI c 23 d a imm]
  | .bcast d b => some [packR c 24 0 d 0 b]
  | .rdfirst d a => some [packR c 24 1 d a 0]
  | .rdlane d a b => some [packR c 24 2 d a b]
  | .wrlane d a b => some [packR c 24 3 d a b]
  | .rdlpc d a => some [packR c 24 4 d a 0]
  | .laneid d => some [packR c 24 5 d 0 0]
  | .rcp la d a => some [packU c 25 la d a 0 0]
  | .rsq la d a => some [packU c 25 la d a 1 0]
  | .sqrt la d a => some [packU c 25 la d a 2 0]
  | .ex2 la d a => some [packU c 25 la d a 3 0]
  | .lg2 la d a => some [packU c 25 la d a 4 0]
  | .sinpi la d a => some [packU c 25 la d a 5 0]
  | .cospi la d a => some [packU c 25 la d a 6 0]
  | .tanh la d a => some [packU c 25 la d a 7 0]
  | .cvtF32S32 la d a rnd => some [packU c 26 la d a 0 rnd.code3]
  | .cvtF32N32 la d a rnd => some [packU c 26 la d a 1 rnd.code3]
  | .cvtS32F32 la d a rnd => some [packU c 26 la d a 2 rnd.code3]
  | .cvtN32F32 la d a rnd => some [packU c 26 la d a 3 rnd.code3]
  | .cvtF16F32 la d a rnd => some [packU c 26 la d a 4 rnd.code3]
  | .cvtBf16F32 la d a rnd => some [packU c 26 la d a 5 rnd.code3]
  | .cvtF32F16 la d a rnd => some [packU c 26 la d a 6 rnd.code3]
  | .cvtF32Bf16 la d a rnd => some [packU c 26 la d a 7 rnd.code3]
  | .frint la d a rnd => some [packU c 26 la d a 8 rnd.code3]
  | .qcvt la d a b rnd sat fmt pos draw => some [packR false 27 la d a b, packQ2 c 0 rnd.code (BitVec.ofBool sat) fmt.code pos draw]
  | .qwiden la d a b rnd sat fmt pos => some [packR false 27 la d a b, packQ2 c 1 rnd.code3 (BitVec.ofBool sat) fmt.code pos 0]
  | .qscale la d a fmt => some [packR false 27 la d a 0, packQ2 c 2 0 0 fmt.code 0 0]
  | .dp4s8 d a b => some [packR c 28 0 d a b]
  | .dp4n8 d a b => some [packR c 28 1 d a b]
  | .dp4sn8 d a b => some [packR c 28 2 d a b]
  | .dp8s4 d a b => some [packR c 28 3 d a b]
  | .dp2bf d a b => some [packR c 28 4 d a b]
  | .dp2h d a b => some [packR c 28 5 d a b]
  | .dp4e4 d a b => some [packR c 28 6 d a b]
  | .dp4e5 d a b => some [packR c 28 7 d a b]
  | .dp4t5 d a b => some [packR c 28 8 d a b]
  | .t5pack d a => some [packR c 29 0 d a 0]
  | .t5unpk d a => some [packR c 29 1 d a 0]
  | .t5enc d a => some [packR c 29 2 d a 0]
  | .t5dec d a => some [packR c 29 3 d a 0]
  | .t5chk d a => some [packR c 29 4 (d.setWidth 7) a 0]
  | .tern d a b => some [packR c 29 5 d a b]
  | .tcnt d a => some [packR c 29 6 d a 0]
  | .shfli d a b => some [packR c 30 0 d a b]
  | .shflu d a b => some [packR c 30 1 d a b]
  | .shfld d a b => some [packR c 30 2 d a b]
  | .shflx d a b => some [packR c 30 3 d a b]
  | .redadd d a => some [packR c 30 4 d a 0]
  | .redmin d a => some [packR c 30 5 d a 0]
  | .redmax d a => some [packR c 30 6 d a 0]
  | .redfadd d a => some [packR c 30 7 d a 0]
  | .scanadd d a => some [packR c 30 8 d a 0]
  | .scanfadd d a => some [packR c 30 9 d a 0]
  | .cats d a b => some [packR c 30 10 d a b]
  | .elect d a => some [packR c 30 11 (d.setWidth 7) (a.setWidth 7) 0]
  | .rng d a b => some [packR c 31 0 d a b]
  | .rngf d a b => some [packR c 31 1 d a b]
  | .bra off => some [packB c 32 0 7 off]
  | .bru neg p off => some [packB c 33 (BitVec.ofBool neg) p off]
  | .brx neg p off => some [packB c 34 (BitVec.ofBool neg) p off]
  | .jmpv a => some [packR c 35 0 0 a 0]
  | .callv d a => some [packR c 35 1 d a 0]
  | .ret a => some [packR c 35 2 0 a 0]
  | .bar d a f b => some [packR c 36 0 (d.setWidth 7) a (barE f b)]
  | .arrive d a b => some [packR c 36 1 d a (b.setWidth 7)]
  | .waitb d a b => some [packR c 36 2 (d.setWidth 7) a (b.setWidth 7)]
  | .gbar d a b => some [packR c 36 3 (d.setWidth 7) a (b.setWidth 7)]
  | .fenceAcq sc => some [packR c 37 0 0 0 (fenceE 1 sc)]
  | .fenceRel sc => some [packR c 37 0 0 0 (fenceE 2 sc)]
  | .fenceAr sc => some [packR c 37 0 0 0 (fenceE 3 sc)]
  | .phase sc => some [packR c 37 1 0 0 sc.code7]
  | .xfence a sc => some [packR c 37 2 0 a sc.code7]
  | .redflush => some [packR c 37 3 0 0 0]
  | .exit n => some [packR c 38 (n.setWidth 4) 0 0 0]
  | .ldg la d a sz os x => some [packM c 39 la d a sz.code os.code (BitVec.ofBool x)]
  | .ldgi la d a sz x => some [packM c 40 la d a sz.code 0 (BitVec.ofBool x)]
  | .stg d a sz os x => some [packM c 41 0 d a sz.code os.code (BitVec.ofBool x)]
  | .lds la d a sz x => some [packM c 42 la d a sz.code 0 (BitVec.ofBool x)]
  | .ldsWfull la d a sz x => some [packM c 42 la d a sz.code 1 (BitVec.ofBool x)]
  | .ldsWfullEmpty la d a sz x => some [packM c 42 la d a sz.code 2 (BitVec.ofBool x)]
  | .ldsTag la d a x => some [packM c 42 la d a 2 3 (BitVec.ofBool x)]
  | .sts d a sz x => some [packM c 43 0 d a sz.code 0 (BitVec.ofBool x)]
  | .stsWefull d a sz x => some [packM c 43 0 d a sz.code 1 (BitVec.ofBool x)]
  | .stsSfull d a sz x => some [packM c 43 0 d a sz.code 2 (BitVec.ofBool x)]
  | .stsSempty a sz x => some [packM c 43 0 0 a sz.code 3 (BitVec.ofBool x)]
  | .ldp la d a sz x => some [packM c 44 la d a sz.code 0 (BitVec.ofBool x)]
  | .stp d a sz x => some [packM c 45 0 d a sz.code 0 (BitVec.ofBool x)]
  | .ldk la d a sz x => some [packM c 46 la d a sz.code 0 (BitVec.ofBool x)]
  | .atomAdd la d a b oss s8 t => some [packR false 47 la d a b, packA2 c 0 oss.code 0 (sizeCode s8) (BitVec.ofBool t) 0]
  | .atomAnd la d a b oss s8 t => some [packR false 47 la d a b, packA2 c 1 oss.code 0 (sizeCode s8) (BitVec.ofBool t) 0]
  | .atomOr la d a b oss s8 t => some [packR false 47 la d a b, packA2 c 2 oss.code 0 (sizeCode s8) (BitVec.ofBool t) 0]
  | .atomXor la d a b oss s8 t => some [packR false 47 la d a b, packA2 c 3 oss.code 0 (sizeCode s8) (BitVec.ofBool t) 0]
  | .atomMins la d a b oss s8 t => some [packR false 47 la d a b, packA2 c 4 oss.code 0 (sizeCode s8) (BitVec.ofBool t) 0]
  | .atomMaxs la d a b oss s8 t => some [packR false 47 la d a b, packA2 c 5 oss.code 0 (sizeCode s8) (BitVec.ofBool t) 0]
  | .atomMinn la d a b oss s8 t => some [packR false 47 la d a b, packA2 c 6 oss.code 0 (sizeCode s8) (BitVec.ofBool t) 0]
  | .atomMaxn la d a b oss s8 t => some [packR false 47 la d a b, packA2 c 7 oss.code 0 (sizeCode s8) (BitVec.ofBool t) 0]
  | .atomExch la d a b oss s8 t => some [packR false 47 la d a b, packA2 c 8 oss.code 0 (sizeCode s8) (BitVec.ofBool t) 0]
  | .atomFadd la d a b oss t => some [packR false 47 la d a b, packA2 c 9 oss.code 0 0 (BitVec.ofBool t) 0]
  | .atomBfadd2 la d a b oss t => some [packR false 47 la d a b, packA2 c 10 oss.code 0 0 (BitVec.ofBool t) 0]
  | .atomMaxa la d a b oss t => some [packR false 47 la d a b, packA2 c 11 oss.code 0 0 (BitVec.ofBool t) 0]
  | .atomCas la d a b oss osf s8 t cmp => some [packR false 47 la d a b, packA2 c 12 oss.code osf.code (sizeCode s8) (BitVec.ofBool t) cmp]
  | .redAdd os s8 a b => some [packR c 48 0 (redD os s8) a b]
  | .redAnd os s8 a b => some [packR c 48 1 (redD os s8) a b]
  | .redOr os s8 a b => some [packR c 48 2 (redD os s8) a b]
  | .redXor os s8 a b => some [packR c 48 3 (redD os s8) a b]
  | .redMins os s8 a b => some [packR c 48 4 (redD os s8) a b]
  | .redMaxs os s8 a b => some [packR c 48 5 (redD os s8) a b]
  | .redMinn os s8 a b => some [packR c 48 6 (redD os s8) a b]
  | .redMaxn os s8 a b => some [packR c 48 7 (redD os s8) a b]
  | .redFadd os a b => some [packR c 48 8 (redD os false) a b]
  | .redBfadd2 os a b => some [packR c 48 9 (redD os false) a b]
  | .redMaxa os a b => some [packR c 48 10 (redD os false) a b]
  | .tcopyTile tid cs off xpose exp24 tok => some [packT false 49 tid cs off, packT2 c 0 xpose.code (BitVec.ofBool exp24) tok 0]
  | .tcopyStore tid cs off xpose exp24 tok => some [packT false 49 tid cs off, packT2 c 1 xpose.code (BitVec.ofBool exp24) tok 0]
  | .tcopyWin tid cs off xpose exp24 tok => some [packT false 49 tid cs off, packT2 c 2 xpose.code (BitVec.ofBool exp24) tok 0]
  | .tcopyGather tid cs off xpose exp24 tok gtid => some [packT false 49 tid cs off, packT2 c 3 xpose.code (BitVec.ofBool exp24) tok gtid]
  | .tcopyPf tid cs xpose exp24 tok => some [packT false 49 tid cs 0, packT2 c 4 xpose.code (BitVec.ofBool exp24) tok 0]
  | .tidset s a t => some [packR c 50 0 (bit7 s) a (t.setWidth 7)]
  | .tidinv t => some [packR c 50 1 0 0 (t.setWidth 7)]
  | .tidq d wi t => some [packR c 50 2 d (wi.setWidth 7) (t.setWidth 7)]
  | .qpush q a => some [packR c 51 0 (q.setWidth 7) a 0]
  | .qpop d q p => some [packR c 51 1 d (q.setWidth 7) (p.setWidth 7)]
  | .qtry d q p => some [packR c 51 2 d (q.setWidth 7) (p.setWidth 7)]
  | .qcnt d q => some [packR c 51 3 d (q.setWidth 7) 0]
  | .ares d => some [packR c 52 0 (d.setWidth 7) 0 0]
  | .arel => some [packR c 52 1 0 0 0]
  | .tunLdw tid cs tok bank t5 => some [packE false 53 0 tid cs tok (bankCode bank), packU2 c 0 0 (BitVec.ofBool t5) 0 0 0]
  | .tunMm tid cs tok bank m1 row t5 acc => some [packE false 53 1 tid cs tok (bankCode bank), packU2 c (m1.setWidth 8) row (BitVec.ofBool t5) (BitVec.ofBool acc) 0 0]
  | .tunGmm tid cs tok bank m1 row t5 acc tid2 => some [packE false 53 2 tid cs tok (bankCode bank), packU2 c (m1.setWidth 8) row (BitVec.ofBool t5) (BitVec.ofBool acc) tid2 0]
  | .tunDrn tid cs tok m1 row tid3 => some [packE false 53 3 tid cs tok 0, packU2 c (m1.setWidth 8) row 0 0 0 tid3]
  | .tunZero tok m1 row => some [packE false 53 4 0 0 tok 0, packU2 c (m1.setWidth 8) row 0 0 0 0]
  | .tunBdiag tid cs tok bank m1 row acc => some [packE false 53 5 tid cs tok (bankCode bank), packU2 c (m1.setWidth 8) row 0 (BitVec.ofBool acc) 0 0]
  | .trace tid a mask flags tag => some [packV false 54 0 tid a, packV2 c mask (flags.setWidth 4) tag]
  | .tracev tid a mask flags tag => some [packV false 54 1 tid a, packV2 c mask (flags.setWidth 4) tag]
  | .tracerc tid a mask flags tag => some [packV false 54 2 tid a, packV2 c mask (flags.setWidth 4) tag]
  | .ltwalk tid a tag => some [packT false 55 tid a 0, packW2 c tag]
  | .rsvUpd d a b => some [packR c 56 0 d a b]
  | .rsvMrg d a b => some [packR c 56 1 d a b]
  | .rsvNrm d b => some [packR c 56 2 d 0 b]
  | .rsvClr d => some [packR c 56 3 d 0 0]
  | .rsvLd la d a os => some [packM c 57 la d a 5 os.code 0]
  | .rsvSt d a os => some [packM c 57 0 d a 5 os.code 1]
  | .smp la d a tid filt aniso grad wrap => some [packS false 58 la d a tid, packS2 c filt.code aniso.code (lodCode grad) wrap.code]
  | .sparge tid ar tok => some [packE false 59 0 tid ar tok 0, packG2 c 0]
  | .grist tid ar tok => some [packE false 59 1 tid ar tok 0, packG2 c 0]
  | .coll tid ar tok kind fn => some [packE false 59 2 tid ar tok 0, packG2 c (collImm kind fn)]
  | .launch slot ar tok => some [packE false 59 3 0 ar tok 0, packG2 c slot]
  | .ordenter d => some [packR c 60 0 d 0 0]
  | .ordleave => some [packR c 60 1 0 0 0]
  | .instructionFetch _ _ => none
  | .blockPark _ => none
  | .spinPark _ => none
  | .parkTimeoutWake _ _ => none
  | .parkLimit _ _ => none
  | .lookaheadResult _ _ => none
  | .groupRetire _ => none
  | .icinvDone _ => none
  | .tlbinvDone _ => none
  | .tidsetDone _ => none
  | .xfenceDone _ => none
  | .phaseDone _ => none
  | .fenceAcqDone _ => none
  | .redflushDone _ => none
  | .sleepEnd _ => none
  | .storeRequestSend _ _ => none
  | .sliceApply _ _ _ => none
  | .sliceRead _ _ _ => none
  | .writeAck _ _ => none
  | .spontaneousPublish _ _ _ => none
  | .viewRenewal _ => none
  | .reductionDrain _ _ _ => none
  | .stagingSpill _ => none
  | .ticketBatchApply _ _ => none
  | .hostAtomicCompletion _ _ => none
  | .copyStart _ => none
  | .copyComplete _ _ => none
  | .rayRequest _ _ => none
  | .lightWalk _ => none
  | .tunCommandStart _ _ => none
  | .tunCommandComplete _ _ => none
  | .tunTagWaitLimit _ _ => none
  | .arrayRelease _ => none
  | .arrayClear _ => none
  | .arrayHoldExpire _ => none
  | .tunEccError _ _ _ => none
  | .trapEntry _ => none
  | .fatalTrap _ => none
  | .haltRequest _ => none
  | .contextSaveDone _ => none
  | .teamResume _ _ => none
  | .registerEccError _ _ _ _ => none
  | .registerScrub _ _ => none
  | .packetPromotion _ _ => none
  | .linkCrcReplay _ _ => none
  | .linkRetrain _ => none
  | .linkRetrainDone _ _ => none
  | .reqseqNotify _ => none
  | .executionStart _ => none
  | .teamPlace _ => none
  | .coreSplitChange _ => none
  | .launchReqseqAdd _ => none
  | .pageWalk _ _ _ => none
  | .rsctlEnable _ => none
  | .reservoirFillDone => none
  | .rsctlDisable _ => none
  | .reservoirWritebackDone => none
  | .spargeStart _ => none
  | .spargeComplete _ => none
  | .gristStart _ => none
  | .gristComplete _ => none
  | .rasterBinning _ => none
  | .fragmentGroupStart _ => none
  | .ordTimeout _ => none
  | .headEnable _ _ _ => none
  | .headDisable _ _ _ => none
  | .headLinkTrained _ _ => none
  | .displayLinkLoss _ _ => none
  | .scanoutLine _ _ => none
  | .head2FrameRelease _ => none
  | .kilnEnable _ _ => none
  | .kilnDisable _ _ => none
  | .kprogWrite _ _ => none
  | .kilnLatch _ => none
  | .programValidated _ => none
  | .bandStart _ => none
  | .bandNetworkDone _ => none
  | .networkDeadline _ => none
  | .reprojectionDone _ => none
  | .repeatDone _ => none
  | .bandUnderrun _ => none
  | .motionBlockDone _ => none
  | .dieCoreFence _ => none
  | .dieFullFence _ => none
  | .diectlCoreFence _ => none
  | .diectlCoreReset _ => none
  | .diectlUncoreReset _ => none
  | .coreResetDone _ => none
  | .uncoreResetDone _ => none
  | .selfTest _ _ => none
  | .gbarTimeout _ _ => none
  | .fabricLinkUp _ => none
  | .fabricLinkDown _ => none
  | .commWrite _ _ => none
  | .collContribution _ _ _ _ _ _ _ _ => none
  | .collOperationComplete _ => none
  | .collTimeout _ => none
  | .hostRead _ _ _ => none
  | .hostWrite _ _ _ _ => none
  | .hostAtomicop _ _ _ _ _ _ => none
  | .hostLinkDown _ => none
  | .semRead _ _ => none
  | .semRelease _ _ _ => none
  | .evctlEnable _ _ => none
  | .msixInterrupt _ => none
  | .flashErase _ => none
  | .flashProgram _ => none
  | .flashRead _ => none
  | .flashCommandDone _ => none
  | .getcert _ _ => none
  | .attest _ _ => none
  | .extend _ _ => none
  | .mailboxUnknown _ _ => none
  | .mailboxDone _ => none
  | .packageReset _ _ => none
  | .pkgrst _ => none
  | .dieCFatal => none
  | .thermalSample _ _ => none
  | .powerSample _ => none
  | .throttleStep _ => none
  | .counterClear _ _ => none
  | .registerWrite _ _ => none
  | .hostLinkUp _ => none
  | .dispctlWrite _ => none
  | .linkctlWrite _ _ => none

end

end Sys2Proof
end

