-- ==== Sys2Proof/Machine/Fetch.lean ====
section
/-!
DEFINITION.  Reading packets of code: the code segment, translation, the instruction cache and the instruction buffer
(R10, R27, R28, R136 to R139, R272).
-/

namespace Sys2Proof.Machine

/-- The packet index of an lpc (R10). -/
def pktOf (a : Word) : Nat := a.toNat / 4
/-- The slot of an lpc. -/
def slotOf (a : Word) : Nat := a.toNat % 4
/-- The lpc of a packet and a slot. -/
def lpcAt (pkt slot : Nat) : Word := BitVec.ofNat 32 (4 * pkt + slot)
/-- The lpc `n` words on: slot 0 of the next packet follows slot 2 (R127). -/
def lpcAfter (a : Word) (n : Nat) : Word :=
  if slotOf a + n < 3 then lpcAt (pktOf a) (slotOf a + n) else lpcAt (pktOf a + 1) (slotOf a + n - 3)

/-- The virtual address of a packet. -/
def Group.packetVa (g : Group) (pkt : Nat) : Nat := (g.seg.cb.toNat + 12 * pkt) % 2 ^ 64

/-- The packet lies whole within the code segment (R10). -/
def Group.packetInside (g : Group) (pkt : Nat) : Bool := decide (12 * pkt + 12 ≤ g.seg.cl.toNat)

/-- The address space of a group's launch (R339). -/
def State.spaceOf (s : State) (k : Nat) : Nat :=
  bits (nth 0 (s.exec (s.team (s.grp k).team).exec).record 9).toNat 8 8

/-- The words the instruction cache may give for a physical word: what it holds, or what memory holds, freely (R136,
R139). -/
def State.codeWord (s : State) (core key j : Nat) : Word :=
  let now := s.wordAt key
  match ffind (s.core core).icache (key / 4) with
  | none => now
  | some w => if w = now then w else if Config.freeChoice (64 * s.fresh + j) % 2 = 0 then w else now

/-- How a fetch ends: its words with the leaves it used, or a trap code with TVAL and TVALH. -/
inductive Fetched where
  | words (l : List (Word × Leaf × Nat))
  | fails (code : Nat) (tval tvalh : Word)
  deriving DecidableEq, Repr

/-- Fetch the words of a packet from `j` on, each translated on its own (R27). -/
def State.fetchFrom (s : State) (k va j : Nat) : Nat → Fetched
  | 0 => .words []
  | n + 1 =>
    let a := (va + 4 * j) % 2 ^ 64
    match s.access (s.spaceOf k) a .fetch j with
    | .error c => .fails c (BitVec.ofNat 32 va) (BitVec.ofNat 32 (va / 2 ^ 32))
    | .ok l =>
      let key := s.keyOf (s.spaceOf k) l a
      if s.marked key || fget false (s.grp k).spoilt (key / 32) then .fails 0x0A 0x300 0
      else match s.fetchFrom k va (j + 1) n with
        | .fails c t h => .fails c t h
        | .words ws => .words ((s.codeWord (s.team (s.grp k).team).core key j, l, key) :: ws)

/-- Fetch a packet for a group.  The record of a fetch beyond the limit holds the packet's address (R10, R267; log entry 14). -/
def State.fetch (s : State) (k pkt : Nat) : Fetched :=
  let g := s.grp k
  let va := g.packetVa pkt
  if g.packetInside pkt then s.fetchFrom k va 0 3 else .fails 0x04 (BitVec.ofNat 32 va) (BitVec.ofNat 32 (va / 2 ^ 32))

/-- The ways to the homes of a packet's words and back are open (R319, R327). -/
def State.packetOpen (s : State) (k pkt : Nat) : Bool :=
  (List.range 3).all (fun j =>
    let a := ((s.grp k).packetVa pkt + 4 * j) % 2 ^ 64
    match s.access (s.spaceOf k) a .fetch j with
    | .error _ => true
    | .ok l =>
      let key := s.keyOf (s.spaceOf k) l a
      s.wayTo k key (l.plane key) && s.wayBack k key (l.plane key))

/-- The words of a packet as the group would see them: its buffer's, or what a fetch gives. -/
def State.packet (s : State) (k pkt : Nat) : Option (List Word) :=
  match (s.grp k).ibuf.find? (fun e => e.1 == pkt) with
  | some e => some e.2
  | none => match s.fetch k pkt with
    | .words ws => some (ws.map Prod.fst)
    | .fails _ _ _ => none

/-- Packets that an instruction buffer holds (R136). -/
def ibufSize : Nat := 8

/-- A fetched packet enters the instruction buffer, and its words the instruction cache. -/
def State.takePacket (s : State) (k pkt : Nat) (ws : List (Word × Leaf × Nat)) : State :=
  let s1 := ws.foldl (fun t e => t.touch (t.spaceOf k) e.2.1 false) s
  let c := (s1.team (s1.grp k).team).core
  let s2 := s1.setCore c { s1.core c with icache := ws.foldl (fun m e => fins m (e.2.2 / 4) e.1) (s1.core c).icache }
  let g := s2.grp k
  (s2.setGrp k { g with ibuf := g.ibuf ++ [(pkt, ws.map Prod.fst)] }).spent

/-- The packets that follow one enter the buffer as far as they can be fetched; `n` of them are still to come. -/
def State.fetchOn (s : State) (k pkt : Nat) : Nat → State
  | 0 => s
  | n + 1 =>
    let p := pkt + 1
    match (if p < 2 ^ 30 && s.packetOpen k p then s.fetch k p else .fails 0x04 0 0) with
    | .words ws => (s.takePacket k p ws).fetchOn k p n
    | .fails _ _ _ => s

/-- The issue address lies in a packet that the buffer does not hold: the buffer is flushed and refetched, from that packet on (R136; log
entry 67). -/
def State.refill (s : State) (k pkt : Nat) (ws : List (Word × Leaf × Nat)) : State :=
  ((s.onGrp k (fun g => { g with ibuf := [] })).takePacket k pkt ws).fetchOn k pkt (ibufSize - 1)

/-- The word at a slot of a packet is the second word of a two-word instruction (R28). -/
def secondWord (ws : List Word) (slot : Nat) : Bool :=
  let two := fun i => twoWord (majorOf (nth 0 ws i))
  if slot = 1 then two 0 else if slot = 2 then !two 0 && two 1 else false

end Sys2Proof.Machine
end

