-- ==== Sys2Proof/Machine/Control.lean ====
section
/-!
DEFINITION.  Branches, indirect transfers and EXIT (R127 to R135).
-/

namespace Sys2Proof.Machine

/-- The condition of a branch in a lane, before the unit writes (R127). -/
def State.cond (s : State) (neg : Bool) (p : Pred) (i : Nat) : Bool := s.rp i p.toNat != neg

/-- The target packet of a branch, which may be below 0 (R37). -/
def State.targetPkt (s : State) (off : Off21) : Int := (pktOf s.unit.addr : Int) + off.toInt

/-- SEGMENT of a taken branch to a target below packet 0 (R37). -/
def branchCheck (off : Off21) (takes : State → Nat → Bool) (s : State) (i : Nat) : Option Cause :=
  if s.targetPkt off < 0 && takes s i then some (s.cause 0x04 (BitVec.ofInt 32 (s.targetPkt off * 4)) 0 i) else none

/-- Move every ACTIVE lane: to its target, or past the unit (R127). -/
def State.moveLanes (s : State) (dest : Nat → Option Word) : State :=
  let t := s.onMe (fun g => g.onLanes s.unit.mask (fun i l => { l with lpc := (dest i).getD s.unit.next }))
  { t with unit := { t.unit with moved := true } }

/-- A branch (R127). -/
def branch (off : Off21) (takes : State → Nat → Bool) (after : State → State) : Meaning :=
  issue ⟨[], [], [], []⟩ (branchCheck off takes) 0 (fun s =>
    after (s.moveLanes (fun i => if takes s i then some (lpcAt (s.targetPkt off).toNat 0) else none)))

/-- BRA (R127). -/
def execBra (off : Off21) : Meaning := branch off (fun _ _ => true) id

/-- The lanes whose BRU condition differs from the governing one (R128). -/
def State.differing (s : State) (neg : Bool) (p : Pred) : List Nat :=
  s.acts.filter (fun i => s.cond neg p i != s.cond neg p s.lead)

/-- DIVV is set, and UNIFORMITY kept where TRAPCTL asks for it (R128). -/
def State.diverged (s : State) (neg : Bool) (p : Pred) : State :=
  match s.differing neg p with
  | [] => s
  | i :: is =>
    let t := s.onMe (fun g => { g with csr := { g.csr with divv := true } })
    if s.pre.csr.trapctl.getLsbD 4 then t.addAfter (s.afterCause 0x03 s.unit.addr 0 (minOf i (i :: is))) else t

/-- BRU: the lowest ACTIVE lane's condition governs (R127, R128). -/
def execBru (neg : Bool) (p : Pred) (off : Off21) : Meaning :=
  branch off (fun s _ => s.cond neg p s.lead) (fun s => s.diverged neg p)

/-- BRX (R127). -/
def execBrx (neg : Bool) (p : Pred) (off : Off21) : Meaning := branch off (fun s i => s.cond neg p i) id

/-- The checks of an indirect target: ALIGN, then ILLEGAL_INSTR for the second word of an instruction (R131). -/
def jumpCheck (a : Reg) (s : State) (i : Nat) : Option Cause :=
  let t := s.rv i a.toNat
  if slotOf t = 3 then some (s.cause 0x05 t 0 i)
  else match s.packet s.unit.g (pktOf t) with
    | none => none
    | some ws => if secondWord ws (slotOf t) then some (s.cause 0x01 s.unit.word t i) else none

/-- Move every ACTIVE lane to its own target (R130). -/
def State.jump (s : State) (a : Reg) : State := s.moveLanes (fun i => some (s.rv i a.toNat))

/-- JMPV (R130). -/
def execJmpv (a : Reg) : Meaning := issue ⟨[(a.toNat, 1)], [], [], []⟩ (jumpCheck a) 0 (fun s => s.jump a)

/-- CALLV (R130). -/
def execCallv (d a : Reg) : Meaning :=
  issue (need2 d.toNat a.toNat) (jumpCheck a) 0 (fun s =>
    (s.vecResult 0 d.toNat (fun _ => [s.unit.next]) (fun _ => 0)).jump a)

/-- RET: as JMPV, but for the return predictor (R130). -/
def execRet (a : Reg) : Meaning := issue ⟨[(a.toNat, 1)], [], [], []⟩ (jumpCheck a) 0 (fun s => s.jump a)

end Sys2Proof.Machine
end

