-- ==== Sys2Proof/Machine/Fence.lean ====
section
/-!
DEFINITION.  PHASE, FENCE and XFENCE (R193, R309 to R313).
-/

namespace Sys2Proof.Machine

/-- An XFENCE must wait: for the group's own stores on the paths that its source mask names, acknowledged at its scope, and applied where
its destination mask names a path that does not see them in the store buffer: an engine, or RSVS for LANE stores and LANE for RSVS stores
(R193, R313, R315; log entry 71). -/
def Group.fenceWaits (g : Group) (src dst : Nat) (sc : Scope) : Bool :=
  let at_ := fun (own : Nat) => if dst = 2 ^ own then sc else .sys
  (src.testBit 0 && (g.stores.any (fun r => !r.rsvs && !r.doneAt (at_ 0)) || decide (0 < g.redsOut)))
    || (src.testBit 5 && g.stores.any (fun r => r.rsvs && !r.doneAt (at_ 5)))

/-- The effect of PHASE of a group at a scope: its writes, and what is published to it, are published; its view is
renewed (R310). -/
def State.phaseOf (s : State) (k : Nat) (sc : Scope) : State :=
  (s.publishAll k ⟨sc, s.tick + 1, s.cumulative k sc⟩).renew k sc

/-- PHASE (R310). -/
def execPhase (sc : Scope) : Meaning :=
  issue ⟨[], [], [], []⟩ noCheck 0 (fun s =>
    s.gate (.phase sc) (!s.pre.unacked sc) (fun s => s.phaseOf s.unit.g sc))

/-- The effect of FENCE.rel: its set waits for the group's later writes (R311). -/
def State.fenceRel (s : State) (sc : Scope) : State :=
  s.onMe (fun g => { g with fences := g.fences ++ [⟨sc, s.tick, s.cumulative s.unit.g sc⟩] })

/-- The effect of FENCE.acq, once the group's loads and atomics have returned (R311). -/
def State.fenceAcqOf (s : State) (k : Nat) (sc : Scope) : State :=
  (s.setGrp k (s.grp k).flushLooks).renew k sc

/-- Every earlier load and reading atomic of the group has returned (R311). -/
def Group.returned (g : Group) : Bool := g.looks.all (fun l => l.fault.isSome) && g.hostOps.isEmpty

/-- FENCE.acq of a unit. -/
def State.fenceAcq (s : State) (sc : Scope) : State :=
  s.gate (.fenceAcq sc) s.pre.returned (fun s => s.fenceAcqOf s.unit.g sc)

/-- FENCE.acq (R311). -/
def execFenceAcq (sc : Scope) : Meaning := issue ⟨[], [], [], []⟩ noCheck 0 (fun s => s.fenceAcq sc)

/-- FENCE.rel (R311). -/
def execFenceRel (sc : Scope) : Meaning := issue ⟨[], [], [], []⟩ noCheck 0 (fun s => s.fenceRel sc)

/-- FENCE.ar: .rel, then .acq (R311).  A unit that is held makes its fence set as it is held. -/
def execFenceAr (sc : Scope) : Meaning :=
  issue ⟨[], [], [], []⟩ noCheck 0 (fun s =>
    if s.me.hold = .none && (s.passedAs 7).isNone then (s.fenceRel sc).fenceAcq sc else s.fenceAcq sc)

/-- The effect of XFENCE of a group: what it knows to be complete on the source paths is observed by its later accesses
on the destination paths, and counts as its own writes (R193, R313). -/
def State.xfenceOf (s : State) (k src dst : Nat) (sc : Scope) : State :=
  let g := s.grp k
  let w := g.learnt.filter (fun d => src.testBit d.path)
  let ids := w.map Done.id
  let writes := w.foldl (fun f d => Floors.join f d.writes) ([] : Floors)
  let own := Floors.join (if src.testBit 0 then g.lowLane else []) (if src.testBit 5 then g.lowRsvs else [])
  let t := s.team g.team
  let s1 := s.setTeam g.team { t with fogs := t.fogs.map (fun f =>
    if f.group = k && ids.contains f.id then { f with must := f.must ||| BitVec.ofNat 11 dst } else f) }
  let all := Floors.join writes own
  s1.setGrp k { s1.grp k with
    toldLane := if dst.testBit 0 then Floors.join g.toldLane all else g.toldLane
    toldRsvs := if dst.testBit 5 then Floors.join g.toldRsvs all else g.toldRsvs
    fenced := g.fenced ++ [(BitVec.ofNat 11 dst, all)]
    counted := g.counted ++ [(sc, writes)] }

/-- XFENCE (R193, R313). -/
def execXfence (a : Reg) (sc : Scope) : Meaning :=
  issue ⟨[], [], [(a.toNat, 1)], []⟩ noCheck 0 (fun s =>
    let src := bits (s.rs a.toNat).toNat 0 11
    let dst := bits (s.rs a.toNat).toNat 16 11
    if src = 0 || dst = 0 then s
    else s.gate (.xfence src dst sc) (!s.pre.fenceWaits src dst sc) (fun s => s.xfenceOf s.unit.g src dst sc))

end Sys2Proof.Machine
end

