-- ==== Sys2Proof/Machine/Ordered.lean ====
section
/-!
DEFINITION.  The ordered sections of fragment executions (R370, R371).
-/

namespace Sys2Proof.Machine

/-- The status word of a pixel: REL in bits 23:0, ABANDONED in bit 31 (R370). -/
def Team.status (t : Team) (pixel : Nat) : Word :=
  BitVec.ofNat 32 (fget 0 t.rel pixel % 2 ^ 24 + if fget false t.left pixel then 2 ^ 31 else 0)

/-- The scratchpad word that holds a pixel's status. -/
def Team.statusWord (t : Team) (pixel : Nat) : Nat := (t.tmoff.getD 0 + 4 * pixel) / 4

/-- Release a lane of a group: REL of its pixel advances, ABANDONED is set where the lane gives up ownership, the status
word is written and the waiters of the pixel wake (R370). -/
def State.releaseLane (s : State) (k i : Nat) (abandon : Bool) : State :=
  let g := s.grp k
  let t := s.team g.team
  let px := (g.lane i).pixel
  let t1 := { t with rel := fset 0 t.rel px (fget 0 t.rel px + 1), left := fset false t.left px (fget false t.left px || abandon) }
  let t2 := t1.putWord (t1.statusWord px) (t1.status px) false
  let s1 := (s.setTeam g.team t2).setGrp k (g.onLane i (fun l => { l with ord := 2 }))
  (s1.mapGroups (fun j h => if h.team = g.team then h.wake (s1.cycle (s1.dieOf j)) (WaitOn.onRelease px) else h)).wakeLines
    [scratchLine g.team (t1.statusWord px)]

/-- The lane belongs to a fragment execution (R370). -/
def State.inFragment (s : State) : Bool := s.myTeam.tmoff.isSome

/-- ILLEGAL_INSTR of ORDENTER for a released lane, and of both outside a fragment execution (R370). -/
def ordCheck (enter : Bool) (s : State) (i : Nat) : Option Cause :=
  if !s.inFragment || (enter && (s.me.lane i).ord == 2) then some (s.cause 0x01 s.unit.word 0 i) else none

/-- The lane may enter, or has entered (R370). -/
def State.mayEnter (s : State) (i : Nat) : Bool :=
  let l := s.me.lane i
  l.ord == 1 || fget 0 s.myTeam.rel l.pixel == l.rank

/-- ORDENTER (R370). -/
def execOrdenter (d : Reg) : Meaning :=
  issue ⟨[], [(d.toNat, 1)], [], []⟩ (ordCheck true) 0 (fun s =>
    let done := s.acts.filter s.mayEnter
    let waits := (s.acts.filter (fun i => !s.mayEnter i)).map (fun i => (i, WaitOn.release (s.me.lane i).pixel))
    let s1 := s.narrow done waits
    if done.isEmpty then s1
    else
      let s2 := s1.onMe (fun g => g.onLanes s1.unit.mask (fun _ l =>
        if l.ord = 0 then { l with ord := 1, owned := 0, ownAt := s.now } else l))
      s2.vecResult 0 d.toNat (fun i => [s2.myTeam.status (s2.me.lane i).pixel]) (fun _ => 0))

/-- ORDLEAVE (R370). -/
def execOrdleave : Meaning :=
  issue ⟨[], [], [], []⟩ (ordCheck false) 0 (fun s =>
    s.acts.foldl (fun t i => if (t.me.lane i).ord = 2 then t else t.effect.releaseLane s.unit.g i false) s)

/-- The release that EXIT makes of a lane (R370). -/
def State.releaseAtExit (s : State) (i : Nat) : State :=
  if !s.inFragment || (s.me.lane i).ord == 2 then s else s.releaseLane s.unit.g i ((s.me.lane i).ord == 1)

/-- The limit of the ordered-section watchdog of a die (R371). -/
def State.ordLimit (s : State) (d : Nat) : Nat := 2 ^ (bits (s.die d).ordwd.toNat 0 5)

/-- Cycles a lane has owned its section while its team was resident (R371). -/
def State.ownedFor (s : State) (k i : Nat) : Nat :=
  let l := (s.grp k).lane i
  l.owned + (s.cycle (s.dieOf k) - l.ownAt)

/-- The lanes of a group that have reached the watchdog's limit (R371). -/
def State.overdue (s : State) (k : Nat) : List Nat :=
  (List.range (s.grp k).width).filter (fun i =>
    ((s.grp k).lane i).ord == 1 && decide (s.ordLimit (s.dieOf k) ≤ s.ownedFor k i))

/-- The watchdog releases overdue lanes with ABANDONED set and raises ORD_TIMEOUT in their group (R371). -/
def State.ordTimeout (s : State) (k : Nat) : State :=
  match s.overdue k with
  | [] => s
  | i :: is =>
    let t := (i :: is).foldl (fun t j => t.releaseLane k j true) s
    let l := (s.grp k).lane i
    let c : Cause := ⟨0x0F, l.screen, 0, (s.grp k).logical i, l.lpc, bits l.lpc.toNat 0 2, false, false⟩
    t.setGrp k { t.grp k with pend := (t.grp k).pend ++ [(c, maskOf (i :: is).contains (s.grp k).width)] }

end Sys2Proof.Machine
end

