-- ==== Sys2Proof/Machine/Send.lean ====
section
/-!
DEFINITION.  Requests and reduction entries on their way to their homes (R279, R280, R288, R295, R300 to R315), and the handoff of global
data at a barrier (R314).
-/

namespace Sys2Proof.Machine

/-! ### Store requests -/

/-- The key of the first byte of a group's n-th request. -/
def Group.requestKey (g : Group) (n : Nat) : Option Nat :=
  match (g.stores.drop n).head? with
  | none => none
  | some r => r.cells.head?.map Prod.fst

/-- The plane of a group's n-th request. -/
def Group.requestPlane (g : Group) (n : Nat) : Nat := ((g.stores.drop n).head?.map Request.plane).getD 0

/-- The n-th request of a group is sent; a release takes its cumulative set as it stands (R305), and a request to the host
is acknowledged by its port (R315). -/
def State.sendStore (s : State) (k n : Nat) : State :=
  let g := s.grp k
  if !s.maySend k n then s
  else
    let rel := fun (r : Request) => match r.release with
      | none => r.cum
      | some sc => r.cum ++ [⟨sc, r.time, s.cumulative k sc⟩]
    s.setGrp k { g with stores := modNth g.stores n (fun r => { r with sent := true, sentAt := s.tick, cum := rel r, acked := r.toHost }) }

/-- The parts of cells at their latest versions. -/
def State.latestOf (s : State) (cs : List Host.Cell) : Floors :=
  (partsOf cs).foldl (fun f p => Floors.raise f p (s.part p).count) []

/-- A group knows its own writes on a path; they enter the fence sets that came after them (R300, R301, R311). -/
def State.ownWrites (s : State) (k time : Nat) (v : View) (vs : Floors) : State :=
  s.onGrp k (fun g => (g.wrote v vs).noteOwn time vs)

/-- A request that has been applied and acknowledged leaves. -/
def Group.dropDone (g : Group) : Group := { g with stores := g.stores.filter (fun r => !(r.acked && r.applied.isSome)) }

/-- The n-th request of a group is applied at its home: what it releases is published at that instant (R279, R305, R311), and it is
itself, where a publication has covered it on its way (R305, R310). -/
def State.applyStore (s : State) (k n : Nat) : State :=
  let g := s.grp k
  if !s.mayApply k n then s
  else match (g.stores.drop n).head? with
    | none => s
    | some r =>
      let (s1, q) := s.applyAs r.rsvs (s.agent k) r.cells
      let s2 := s1.publishFor k r.cum
      let s3 := s2.setGrp k { s2.grp k with stores := modNth (s2.grp k).stores n (fun r => { r with applied := some q, appliedAt := s.tick }) }
      let vs := s3.latestOf (s.effective r.cells)
      let s4 := r.owes.foldl (fun t sc => t.publish (t.agent k) (.scope sc) vs) s3
      (s4.ownWrites k r.time (if r.rsvs then .rsvs else .lane) vs).onGrp k Group.dropDone

/-! ### Reduction entries -/

/-- The atomic of a reduction entry at its home slice (R278, R284, R288): what it leaves, and its number. -/
def State.applyEntry (s : State) (a : Agent) (e : RedEntry) : State × Word :=
  let old := s.natAt e.addr e.size
  if e.store then s.apply a (cellsOf e.addr e.val.toNat e.size)
  else s.reduceAt a e.addr e.size (opx e.fn e.size old e.val.toNat 0).1

/-- EFAULT of a group for an AtomicOp that the host refused: kept only if EFAULT is 0, with the lowest logical lane of the unit that
was refused (R295). -/
def Group.hostRefused (g : Group) (time lane : Nat) : Group :=
  let v := tokenValue 9 (g.logical lane)
  if g.csr.efault = 0 || (g.csr.ekept && g.refusedAt == some time && decide (v.toNat < g.csr.efault.toNat)) then
    { g with csr := { g.csr with efault := v, ekept := true }, refusedAt := some time }
  else g

/-- The n-th entry of a core's reduction buffers may leave: what it must follow is done (R305, R311), its ways are open and it overtakes
nothing (R323, R327). -/
def State.redReady (s : State) (core n : Nat) : Bool :=
  match ((s.core core).reds.drop n).head? with
  | none => false
  | some e =>
    (match e.release with
      | none => true
      | some sc => s.doneBefore e.group e.time sc)
    && (s.grp e.group).fences.all (fun f => decide (e.time < f.time) || s.fenceOpen e.group f) && s.mayGo e.group .lane e.addr e.plane

/-- What a reduction entry publishes when it is applied. -/
def State.redSets (s : State) (e : RedEntry) : List FenceSet :=
  (match e.release with
    | none => []
    | some sc => [⟨sc, e.time, s.cumulative e.group sc⟩]) ++ (s.grp e.group).fences.filter (fun f => decide (f.time ≤ e.time))

/-- An entry leaves for its home slice and is acknowledged, or leaves as a FetchAdd, which the host completes or refuses
(R288, R295); one that is refused is not applied and publishes nothing (R305). -/
def State.drainRed (s : State) (core n : Nat) (ok : Bool) : State :=
  if !s.redReady core n then s
  else match ((s.core core).reds.drop n).head? with
    | none => s
    | some e =>
      let sets := s.redSets e
      let s1 := s.setCore core { s.core core with reds := (s.core core).reds.take n ++ (s.core core).reds.drop (n + 1) }
      let leave := fun (g : Group) => { g with redsOut := g.redsOut - 1 }
      if e.host && (!ok || s.lost e.addr) then s1.onGrp e.group (fun g => (leave g).hostRefused e.time e.lane)
      else
        let (s2, q) := s1.applyEntry (s.agent e.group) e
        let s3 := s2.publishFor e.group sets
        (s3.ownWrites e.group e.time .lane (s3.latestOf (cellsOf e.addr 0 e.size))).onGrp e.group (fun g =>
          if e.host then leave g else { leave g with csr := { g.csr with wseq := q } })

/-! ### Arriving at a barrier -/

/-- The releases that earlier members of the unit have made leave at once and are applied, so that the arrival that follows them in the
unit hands them over (R31, R314; log entry 69). -/
def State.rushStores (k : Nat) : Nat → State → State
  | 0, s => s
  | n + 1, s => match (s.grp k).stores.findIdx? (fun r => r.time == s.tick && r.release.isSome && r.applied.isNone) with
    | none => s
    | some i =>
      let to_ := ((s.grp k).requestKey i).getD 0
      if s.wayTo k to_ ((s.grp k).requestPlane i) then State.rushStores k n ((s.sendStore k i).applyStore k i) else s

/-- The ordered reductions among them leave so, too. -/
def State.rushReds (k core : Nat) : Nat → State → State
  | 0, s => s
  | n + 1, s => match (s.core core).reds.findIdx? (fun e => e.group == k && e.time == s.tick && e.release.isSome) with
    | none => s
    | some i => State.rushReds k core n (s.drainRed core i (Config.freeChoice (64 * s.fresh + 63) % 2 == 0))

/-- What the unit itself has released has gone, as far as it may. -/
def State.rush (s : State) : State :=
  let t := State.rushStores s.unit.g s.me.stores.length s
  State.rushReds t.unit.g t.myTeam.core (t.core t.myTeam.core).reds.length t

/-- A member that arrives at a barrier (R314). -/
def arriving (eff : State → State) (s : State) : State := handing eff s.rush

end Sys2Proof.Machine
end

