-- ==== Sys2Proof/Machine/Barrier.lean ====
section
/-!
DEFINITION.  Team barriers, package barriers and EXIT (R133, R165 to R169, R422 to R425).
-/

namespace Sys2Proof.Machine

/-- The lane is BARRED at a team barrier or, with `pkg`, at a package barrier. -/
def Lane.waitsAt (pkg : Bool) (b : Nat) (l : Lane) : Bool := l.st == .barred && l.bar.pkg == pkg && l.bar.bar == b

/-- The lanes of a group BARRED at a barrier. -/
def Group.barredAt (g : Group) (pkg : Bool) (b : Nat) : Lanes := maskOf (fun i => (g.lane i).waitsAt pkg b) g.width

/-- The BARRED lanes of a group at a barrier run on after their unit, with their predicate (R166, R167). -/
def Group.goOn (g : Group) (pkg : Bool) (b : Nat) (ok : Bool) : Group :=
  let m := g.barredAt pkg b
  let g1 := (lanesOf g.width m).foldl (fun h i => h.putP i (g.lane i).bar.pred.toNat ok) g
  g1.onLanes m (fun _ l => { l with st := .run, lpc := l.bar.next, clean := l.bar.next, bar := BarWait.blank })

/-- BARRIER_BROKEN for the lanes of a group at a barrier, where its TRAPCTL asks for it (R167, R424). -/
def Group.brokenTrap (g : Group) (pkg : Bool) (b : Nat) : Group :=
  let m := g.barredAt pkg b
  let i := minOf 0 (lanesOf g.width m)
  let a := (g.lane i).bar.addr
  if m = 0 || !g.csr.trapctl.getLsbD 5 then g
  else { g with pend := g.pend ++
    [(⟨0x10, BitVec.ofNat 32 (if pkg then 16 + b else b), 0, g.logical i, a, bits a.toNat 0 2, true, false⟩, m)] }

/-- The groups of a team that have not retired. -/
def State.unretired (s : State) (team : Nat) : List Nat :=
  ((s.team team).groupKeys team).filter (fun k => !(s.grp k).retired)

/-- A team's barrier. -/
def Team.bar (t : Team) (b : Nat) : Barrier := (ffind t.bars b).getD Barrier.start
/-- Replace a team's barrier. -/
def State.setBar (s : State) (team b : Nat) (x : Barrier) : State :=
  s.setTeam team { s.team team with bars := fins (s.team team).bars b x }

/-- Change every group of a team. -/
def State.mapTeam (s : State) (team : Nat) (f : Group → Group) : State :=
  s.mapGroups (fun _ g => if g.team = team then f g else g)

/-- The execution of a team is in a deterministic mode (R339). -/
def State.detTeam (s : State) (team : Nat) : Bool := bits (nth 0 (s.exec (s.team team).exec).record 4).toNat 16 8 != 0

/-- A phase completes: its lanes go on, and where some BAR.flush arrived in it every group that arrived flushes, once (R166, R168,
R290). -/
def State.completePhase (s : State) (team b : Nat) : State :=
  let x := (s.team team).bar b
  let s1 := (s.setBar team b ⟨x.phase + 1, 0, none, [], false⟩).mapTeam team (fun g => g.goOn false b true)
  if x.flush && s.detTeam team then (distinct x.came).foldl (fun t k => t.endEpoch k) s1 else s1

/-- A phase is broken (R167). -/
def State.breakPhase (s : State) (team b : Nat) : State :=
  let x := (s.team team).bar b
  (s.setBar team b ⟨x.phase + 1, 0, none, [], false⟩).mapTeam team (fun g => (g.brokenTrap false b).goOn false b false)

/-- The arrivals a phase needs: c, or every group that has not retired (R166). -/
def State.needAt (s : State) (team : Nat) (c : Word) : Nat := if c = 0 then (s.unretired team).length else c.toNat

/-- Complete a barrier's phase if its arrivals reach the expected count (R166). -/
def State.recheck (s : State) (team b : Nat) : State :=
  match ((s.team team).bar b).expect with
  | none => s
  | some c => if s.needAt team c ≤ ((s.team team).bar b).count then s.completePhase team b else s

/-- One arrival of a group at a team barrier (R166, R167). -/
def State.arrive (s : State) (team b : Nat) (c : Word) (k : Nat) (flush : Bool) : State :=
  let x := (s.team team).bar b
  if 32 < c.toNat || (x.expect.isSome && x.expect != some c) then s.breakPhase team b
  else (s.setBar team b { x with
    count := x.count + 1
    expect := some c
    came := x.came ++ [k]
    flush := x.flush || flush }).recheck team b

/-! ### Package barriers -/

/-- A package barrier of an execution. -/
def Exec.gbar (e : Exec) (b : Nat) : GBar := (ffind e.gbars b).getD GBar.start
/-- Cycles that an open package phase has lasted since its first arrival, on die A's clock (R424). -/
def GBar.lasted (x : GBar) (now : Nat) : Nat := match x.since with
  | none => 0
  | some c => x.waited + (now - c)
/-- A package phase that has had an arrival has not completed for 2^30 cycles (R424). -/
def GBar.overdue (x : GBar) (now : Nat) : Bool := decide (2 ^ 30 ≤ x.lasted now)
/-- A package phase as die A's cycles start anew. -/
def GBar.carry (x : GBar) (now : Nat) : GBar := { x with waited := x.lasted now, since := x.since.map (fun _ => 0) }
/-- Replace a package barrier. -/
def State.setGbar (s : State) (ek b : Nat) (x : GBar) : State := s.setExec ek { s.exec ek with gbars := fins (s.exec ek).gbars b x }

/-- Change every group of an execution. -/
def State.mapExec (s : State) (ek : Nat) (f : Group → Group) : State :=
  s.mapGroups (fun _ g => if (s.team g.team).exec = ek then f g else g)

/-- The lanes of a group at a package phase that ends run on; a publication that the group still made for its arrival ends (R423, R424). -/
def Group.endGbar (g : Group) (b : Nat) (ok : Bool) : Group :=
  { g.goOn true b ok with hold := if g.barredAt true b ≠ 0 && g.allBarred then .none else g.hold }

/-- Some group of an execution takes BARRIER_BROKEN at a package barrier (R424). -/
def State.trapsAt (s : State) (ek b : Nat) : Bool :=
  s.groups.any (fun e => (s.team e.2.team).exec == ek && e.2.barredAt true b != 0 && e.2.csr.trapctl.getLsbD 5)

/-- A package phase is broken; a run without a fault records it (R424).  The record's team and group are not stated, nor are its lane
and address where groups trap; with no trap these are 0 (R343). -/
def State.breakGbar (s : State) (ek b : Nat) : State :=
  let x := (s.exec ek).gbar b
  let s1 := (s.setGbar ek b ⟨x.phase + 1, none, [], [], none, 0⟩).mapExec ek (fun g => (g.brokenTrap true b).endGbar b false)
  let w := fun j => Config.freeWord (8 * s.fresh + j)
  let e := s1.exec ek
  let trap := s.trapsAt ek b
  let f : FaultRec := ⟨0x10, BitVec.ofNat 32 (16 + b), 0, if trap then w 0 else 0, if trap then w 1 else 0, w 2, w 3, false⟩
  (if e.fault.isSome then s1 else s1.setExec ek { e with fault := some f }).spent

/-- A package phase completes: the arrived groups renew their views, and the lanes go on (R423). -/
def State.completeGbar (s : State) (ek b : Nat) : State :=
  let x := (s.exec ek).gbar b
  let s1 := x.came.foldl (fun t k => t.renew k .pkg) s
  (s1.setGbar ek b ⟨x.phase + 1, none, [], [], none, 0⟩).mapExec ek (fun g => g.endGbar b true)

/-- Every group of a team that has not retired has arrived in the phase (R423). -/
def State.teamAt (s : State) (x : GBar) (team : Nat) : Bool :=
  !(s.unretired team).isEmpty && (s.unretired team).all x.came.contains

/-- Teams that have newly arrived are counted, and the phase completes when they reach the count (R423). -/
def State.recheckGbar (s : State) (ek b : Nat) : State :=
  let e := s.exec ek
  let x := e.gbar b
  match x.expect with
  | none => s
  | some c =>
    let teams := e.teams.filter (fun t => x.teams.contains t || s.teamAt x t)
    let s1 := s.setGbar ek b { x with teams := teams }
    let need := if c = 0 then e.total - e.finished else c.toNat
    if need ≤ teams.length then s1.completeGbar ek b else s1

/-- A group arrives at a package barrier; a phase of an execution that has lost a team is broken (R423, R424). -/
def State.gbarArrive (s : State) (k b : Nat) (c : Word) : State :=
  let ek := (s.team (s.grp k).team).exec
  let x := (s.exec ek).gbar b
  if 2 ^ 24 < c.toNat || (x.expect.isSome && x.expect != some c) || (s.exec ek).failed then s.breakGbar ek b
  else (s.setGbar ek b { x with
    expect := some c
    came := x.came ++ [k]
    since := some (x.since.getD s.dieA.cycle) }).recheckGbar ek b

/-- The arrival of a group at a package barrier waits for its writes, or for the way of its message to die C (R310, R322, R327, R423). -/
def State.gbarWaits (s : State) (k : Nat) : Bool := (s.grp k).unacked .pkg || !s.controlOpen (s.team (s.grp k).team).core

/-- A group whose live lanes are all BARRED at one GBAR publishes at package scope, then arrives (R423). -/
def State.gbarPublish (s : State) (k : Nat) : State :=
  let g := s.grp k
  match g.live with
  | [] => s
  | i :: _ => (s.publishAll k ⟨.pkg, s.tick + 1, s.cumulative k .pkg⟩).gbarArrive k (g.lane i).bar.bar (g.lane i).bar.expect

/-! ### Arrival of a group -/

/-- The barrier addresses and barriers the live lanes stand at. -/
def Group.stands (g : Group) : List BarWait := g.live.map (fun i => (g.lane i).bar)

/-- All live lanes are BARRED at one BAR or GBAR (R166). -/
def Group.together (g : Group) : Bool :=
  g.allBarred && g.stands.all (fun w => w.arrives && w.addr == ((g.stands.head?).getD BarWait.blank).addr)

/-- Break each team or package phase that lanes of a group wait on. -/
def State.breakStands (s : State) (k : Nat) (ws : List BarWait) : State :=
  let team := (s.grp k).team
  let ek := (s.team team).exec
  let s1 := (distinct ((ws.filter (fun w => !w.pkg)).map BarWait.bar)).foldl (fun t b => t.breakPhase team b) s
  (distinct ((ws.filter BarWait.pkg).map BarWait.bar)).foldl (fun t b => t.breakGbar ek b) s1

/-- Lanes of a group BARRED at different GBAR addresses (R424). -/
def Group.gbarSplit (g : Group) : List BarWait :=
  let ws := g.stands.filter (fun w => w.pkg && w.arrives)
  if (distinct (ws.map (fun w => w.addr.toNat))).length ≤ 1 then [] else ws

/-- What a group's lanes do at barriers once one of them has become BARRED or has exited: the group arrives, or breaks a
phase (R166, R167, R423, R424).  A group whose live lanes are all BARRED, some at a team BAR and some at a GBAR, breaks the team phase at
once: neither rule names this case (DESIGN CHOICE, log entry 88). -/
def State.groupAt (s : State) (k : Nat) : State :=
  let g := s.grp k
  if !g.gbarSplit.isEmpty then s.breakStands k g.gbarSplit
  else if g.together then
    match g.stands with
    | [] => s
    | w :: _ =>
      if w.pkg then
        if s.gbarWaits k then s.setGrp k { g with hold := .phase .pkg } else s.gbarPublish k
      else s.arrive g.team w.bar w.expect k w.flush
  else if g.allBarred && g.stands.all BarWait.arrives then s.breakStands k (g.stands.filter (fun w => !w.pkg))
  else s

/-- The arrivals that a package phase of an execution can still have, without a team that stands at barriers: its own arrival where it has
made it, those of the other teams that have not completed (R423). -/
def State.gbarReach (s : State) (team b : Nat) : Nat :=
  let e := s.exec (s.team team).exec
  e.total - e.finished - (if (e.gbar b).teams.contains team then 0 else 1)

/-- A package phase that lanes of a team wait on cannot complete as the team's groups stand: the team has not arrived, and the other
teams cannot reach the count (R423).  A phase that has had no arrival takes the count of a team that still arrives: where no other team
is left, none does (R167). -/
def State.gbarStuck (s : State) (team b : Nat) : Bool :=
  let e := s.exec (s.team team).exec
  let x := e.gbar b
  !x.teams.contains team && (match x.expect with
    | none => decide (s.gbarReach team b = 0)
    | some c => decide (s.gbarReach team b < if c = 0 then e.total - e.finished else c.toNat))

/-- Every group of the team that has not retired stands with all its live lanes BARRED, so that no phase they wait on can complete
(R167). -/
def State.deadlocked (s : State) (team : Nat) : Bool :=
  !(s.unretired team).isEmpty &&
    (s.unretired team).all (fun k => (s.grp k).allBarred && (s.grp k).hold == .none
      && (s.grp k).stands.all (fun w => !w.pkg || s.gbarStuck team w.bar))

/-- The team phases that a deadlocked team waits on are broken (R167). -/
def State.unlock (s : State) (team : Nat) : State :=
  if s.deadlocked team then
    (distinct ((s.unretired team).flatMap (fun k => ((s.grp k).stands.filter (fun w => !w.pkg)).map BarWait.bar))).foldl
      (fun t b => t.breakPhase team b) s
  else s

/-- The barrier rules applied to a group whose lanes have changed, and to its team. -/
def State.atBarriers (s : State) (k : Nat) : State := (s.groupAt k).unlock (s.grp k).team

/-- A group has retired: phases that need all groups may complete, and team arrivals at package barriers are checked
(R166, R169, R423). -/
def State.barsAtRetire (s : State) (k : Nat) : State :=
  let team := (s.grp k).team
  let s1 := (s.team team).bars.foldl (fun t e => t.recheck team e.1) s
  let ek := (s1.team team).exec
  ((s1.exec ek).gbars.foldl (fun t e => t.recheckGbar ek e.1) s1).unlock team

/-! ### The instructions -/

/-- An instruction that is ILLEGAL_INSTR in supervisor mode (R264). -/
def userOnly (m : Meaning) : Meaning := fun s => if s.pre.csr.sup then .next (s.raise s.illegal) else m s

/-- The ACTIVE lanes become BARRED (R166).  Their lpc stays at the unit's first member until the barrier ends, where R166 puts it after the
unit, and R15 would have put it there already; a RDLPC of another path sees it so (R98; DESIGN CHOICE, log entry 86). -/
def State.barLanes (s : State) (w : BarWait) : State :=
  s.onMe (fun g =>
    let g1 := g.onLanes s.unit.mask (fun _ l => { l with st := .barred, bar := w })
    { g1 with lanes := g1.lanes.map (fun l =>
        if l.st = .barred && l.bar.addr = w.addr && w.arrives then { l with bar := { l.bar with expect := w.expect } } else l) })

/-- What the barrier instructions name. -/
def barNeed (a : Reg) (sd : List (Nat × Nat)) : Need := ⟨[], [], [(a.toNat, 1)], sd⟩

/-- BAR (R165 to R168): a handoff under R314. -/
def execBar (d : Pred) (a : Reg) (f : Bool) (b : BitVec 4) : Meaning :=
  userOnly (issue (barNeed a []) noCheck 0 (arriving fun s =>
    (s.barLanes ⟨b.toNat, false, ((s.myTeam).bar b.toNat).phase, s.unit.addr, s.unit.next, d, true, s.rs a.toNat, f⟩).atBarriers
      s.unit.g))

/-- ARRIVE: one arrival for the issue (R166), a handoff under R314. -/
def execArrive (d a : Reg) (b : BitVec 4) : Meaning :=
  userOnly (issue (barNeed a [(d.toNat, 1)]) noCheck 0 (arriving fun s =>
    ((s.putS d.toNat ((s.myTeam).bar b.toNat).phase).arrive s.me.team b.toNat (s.rs a.toNat) s.unit.g false).unlock s.me.team))

/-- WAITB (R166). -/
def execWaitb (d : Pred) (a : Reg) (b : BitVec 4) : Meaning :=
  userOnly (issue (barNeed a []) noCheck 0 (fun s =>
    if ((s.myTeam).bar b.toNat).phase ≠ s.rs a.toNat then s.predResult d.toNat (fun _ => true)
    else (s.barLanes ⟨b.toNat, false, s.rs a.toNat, s.unit.addr, s.unit.next, d, false, 0, false⟩).atBarriers s.unit.g))

/-- GBAR (R422 to R424). -/
def execGbar (d : Pred) (a : Reg) (b : BitVec 4) : Meaning :=
  userOnly (issue (barNeed a []) noCheck 0 (fun s =>
    (s.barLanes ⟨b.toNat, true, (s.myExec.gbar b.toNat).phase, s.unit.addr, s.unit.next, d, true, s.rs a.toNat, false⟩).atBarriers
      s.unit.g))

/-- EXIT: the ACTIVE lanes leave their ordered sections and are EXITED, naming a successor (R133, R135, R370). -/
def execExit (n : BitVec 3) : Meaning :=
  issue ⟨[], [], [], []⟩ noCheck 0 (fun s =>
    let s1 := s.acts.foldl (fun t i => t.releaseAtExit i) s
    let s2 := s1.onMe (fun g => { g.onLanes s.unit.mask (fun _ l => { l with st := .exited }) with
      exits := g.exits ++ s.acts.map (fun i => (i, n.toNat, s.unit.addr)) })
    s2.atBarriers s.unit.g)

end Sys2Proof.Machine
end

