-- ==== Sys2Proof/Machine/Exact.lean ====
section
/-!
DEFINITION.  The special functions (R105 to R108).

The exact value y is taken to 640 bits after the point, with a last bit that stands for the rest of an irrational
value: enough to round it and to decide its flags.  Log entry 12 says why.
-/

namespace Sys2Proof.Machine

/-- The functions of SFU (R105). -/
inductive SfuFn where
  | rcp | rsq | sqrt | ex2 | lg2 | sinpi | cospi | tanh
  deriving DecidableEq, Repr

/-- The function code of R105. -/
def SfuFn.code : SfuFn → Nat
  | .rcp => 0 | .rsq => 1 | .sqrt => 2 | .ex2 => 3 | .lg2 => 4 | .sinpi => 5 | .cospi => 6 | .tanh => 7

/-- Fraction bits of the fixed-point numbers below. -/
def fixP : Nat := 640

/-- 1 in fixed point. -/
def fixOne : Nat := 2 ^ fixP

/-- A product of fixed-point magnitudes, cut. -/
def fixMul (a b : Nat) : Nat := a * b / fixOne

/-- The integer square root by bits: `r` is the root so far, `fuel` the bits still to try. -/
def isqrtFrom (n : Nat) : Nat → Nat → Nat
  | 0, r => r
  | k + 1, r => let t := r + 2 ^ k; isqrtFrom n k (if t * t ≤ n then t else r)

/-- floor(√n). -/
def isqrt (n : Nat) : Nat := isqrtFrom n (n.log2 / 2 + 1) 0

/-- Σ z^(2j+1) / (2j+1): `t` is the odd power z^k in fixed point, `z2` is z². -/
def atanhSum (z2 : Nat) : Nat → Nat → Nat → Nat
  | 0, _, _ => 0
  | n + 1, k, t => t / k + atanhSum z2 n (k + 2) (fixMul t z2)

/-- atanh of a fixed-point magnitude of at most 1/3. -/
def fixAtanh (z : Nat) : Nat := atanhSum (fixMul z z) 220 1 z

/-- ln 2 = 2 atanh(1/3). -/
def fixLn2 : Nat := 2 * fixAtanh (fixOne / 3)

/-- Σ t^k / k! for k from `k` on: `p` is the term before. -/
def expSum (t : Nat) : Nat → Nat → Nat → Nat
  | 0, _, _ => 0
  | n + 1, k, p => let q := fixMul p t / k; q + expSum t n (k + 1) q

/-- e^t for a fixed-point magnitude t below 1. -/
def fixExp (t : Nat) : Nat := fixOne + expSum t 160 1 fixOne

/-- Σ (−1)^j / ((2j+1) n^(2j+1)): arctan(1/n) in fixed point; `p` is fixOne / n^k. -/
def atanSum (n2 : Nat) : Nat → Nat → Nat → Int
  | 0, _, _ => 0
  | f + 1, k, p => ((p / k : Nat) : Int) - atanSum n2 f (k + 2) (p / n2)

/-- π by Machin's formula, 16 arctan(1/5) − 4 arctan(1/239). -/
def fixPi : Nat := (16 * atanSum 25 145 1 (fixOne / 5) - 4 * atanSum 57121 45 1 (fixOne / 239)).toNat

/-- An alternating sum of the powers of t: `p` is the term before, two factors a step. -/
def trigSum (t2 : Nat) : Nat → Nat → Nat → Int
  | 0, _, _ => 0
  | f + 1, k, p => (p : Int) - trigSum t2 f (k + 2) (fixMul p t2 / (k * (k + 1)))

/-- sin t for a fixed-point angle of 0 … π/2. -/
def fixSin (t : Nat) : Nat := (trigSum (fixMul t t) 90 2 t).toNat

/-- cos t for a fixed-point angle of 0 … π/2. -/
def fixCos (t : Nat) : Nat := (trigSum (fixMul t t) 90 1 fixOne).toNat

/-- A fixed-point number m · 2^e, the digits below the point's range cut. -/
def fixOf (m : Nat) (e : Int) : Nat :=
  if 0 ≤ e + (fixP : Int) then m * 2 ^ (e + (fixP : Int)).toNat else m / 2 ^ (-(e + (fixP : Int))).toNat

/-- An irrational value near `x` in fixed point times 2^k, with the last bit set for the rest. -/
def stickyFix (neg : Bool) (x : Nat) (k : Int) : FNum := .fin neg (2 * x + 1) (k - (fixP : Int) - 1)

/-- 2^x for a finite x (R105): exact at integers. -/
def ex2Value (neg : Bool) (m : Nat) (e : Int) : FNum :=
  if 8 < log2Of m e then (if neg then stickyFix false fixOne (-400) else stickyFix false fixOne 400)
  else
    let x := signedMag neg (fixOf m e)
    let n := x / (fixOne : Int)
    let f := (x % (fixOne : Int)).toNat
    if f = 0 then .fin false 1 n else stickyFix false (fixExp (fixMul f fixLn2)) n

/-- log2 x for a finite positive x: exact at powers of two (R105). -/
def lg2Value (m : Nat) (e : Int) : FNum :=
  let k := m.log2
  if 2 ^ k = m then .ofInt (e + k)
  else
    let lnz := 2 * fixAtanh (fixOne * (m - 2 ^ k) / (m + 2 ^ k))
    let y := (e + k) * (fixOne : Int) + ((lnz * fixOne / fixLn2 : Nat) : Int)
    if y < 0 then stickyFix true (-y - 1).toNat 0 else stickyFix false y.toNat 0

/-- |x| mod 2 in fixed point. -/
def modTwo (m : Nat) (e : Int) : Nat :=
  if 1 ≤ e then 0 else fixOf m e % (2 * fixOne)

/-- sin(πx) for a finite nonzero x (R105, R108). -/
def sinpiValue (neg : Bool) (m : Nat) (e : Int) : FNum :=
  let r := modTwo m e
  let neg' := if fixOne ≤ r then !neg else neg
  let h := r % fixOne
  if h = 0 then .fin neg 0 0
  else if 2 * h = fixOne then .fin neg' 1 0
  else stickyFix neg' (fixSin (fixMul fixPi (min h (fixOne - h)))) 0

/-- cos(πx) for a finite nonzero x (R105, R108). -/
def cospiValue (m : Nat) (e : Int) : FNum :=
  let r := modTwo m e
  let h := if fixOne < r then 2 * fixOne - r else r
  if h = 0 then .fin false 1 0
  else if h = fixOne then .fin true 1 0
  else if 2 * h = fixOne then .fin false 0 0
  else if 2 * h < fixOne then
    let c := fixCos (fixMul fixPi h)
    stickyFix false (c - 1) 0
  else
    let c := fixCos (fixMul fixPi (fixOne - h))
    stickyFix true (c - 1) 0

/-- tanh x for a finite nonzero x (R105). -/
def tanhValue (neg : Bool) (m : Nat) (e : Int) : FNum :=
  if 5 ≤ log2Of m e then .fin neg (2 ^ 60 - 1) (-60)
  else
    let t := fixOf m (e + 1) * fixOne / fixLn2
    let n := t / fixOne
    let ex := fixExp (fixMul (t % fixOne) fixLn2) * 2 ^ n
    let y := (ex - fixOne) * fixOne / (ex + fixOne)
    stickyFix neg y 0

/-- √(m · 2^e), exact where the root is (R105). -/
def sqrtValue (m : Nat) (e : Int) : FNum :=
  let (m, e) := if e % 2 = 0 then (m, e) else (2 * m, e - 1)
  let n := m * 2 ^ 200
  let s := isqrt n
  .fin false (2 * s + (if s * s = n then 0 else 1)) (e / 2 - 101)

/-- 1 / √(m · 2^e), exact where the root is (R105). -/
def rsqValue (m : Nat) (e : Int) : FNum :=
  let (m, e) := if e % 2 = 0 then (m, e) else (2 * m, e - 1)
  let n := 2 ^ 400
  let s := isqrt (n / m)
  .fin false (2 * s + (if s * s * m = n then 0 else 1)) (-(e / 2) - 201)

/-- The exact value of the function at a finite nonzero input inside its domain. -/
def sfuValue (fn : SfuFn) (neg : Bool) (m : Nat) (e : Int) : FNum :=
  match fn with
  | .rcp => ((FNum.fin false 1 0).div (.fin neg m e)).1
  | .rsq => rsqValue m e
  | .sqrt => sqrtValue m e
  | .ex2 => ex2Value neg m e
  | .lg2 => lg2Value m e
  | .sinpi => sinpiValue neg m e
  | .cospi => cospiValue m e
  | .tanh => tanhValue neg m e

/-- A canonical NaN that arises from an operand that is no NaN. -/
def sfuInvalid : Word × Flags := (0x7FC00000, flagNV)

/-- Infinite inputs (R108). -/
def sfuInf (fn : SfuFn) (neg : Bool) : Word × Flags :=
  match fn with
  | .rcp => (if neg then 0x80000000 else 0, 0)
  | .rsq => if neg then sfuInvalid else (0, 0)
  | .sqrt => if neg then sfuInvalid else (0x7F800000, 0)
  | .ex2 => (if neg then 0 else 0x7F800000, 0)
  | .lg2 => if neg then sfuInvalid else (0x7F800000, 0)
  | .sinpi => sfuInvalid
  | .cospi => sfuInvalid
  | .tanh => (if neg then 0xBF800000 else 0x3F800000, 0)

/-- Zero inputs (R108). -/
def sfuZero (fn : SfuFn) (neg : Bool) : Word :=
  match fn with
  | .rcp => if neg then 0xFF800000 else 0x7F800000
  | .rsq => if neg then 0xFF800000 else 0x7F800000
  | .sqrt => if neg then 0x80000000 else 0
  | .ex2 => 0x3F800000
  | .lg2 => 0xFF800000
  | .sinpi => if neg then 0x80000000 else 0
  | .cospi => 0x3F800000
  | .tanh => if neg then 0x80000000 else 0

/-- A negative input outside the function's domain (R108). -/
def sfuOutside (fn : SfuFn) (neg : Bool) : Bool :=
  match fn with
  | .rcp => false | .rsq => neg | .sqrt => neg | .ex2 => false
  | .lg2 => neg | .sinpi => false | .cospi => false | .tanh => false

/-- The error bound in ulp (R106). -/
def SfuFn.ulps : SfuFn → Nat
  | .rcp => 1 | .rsq => 1 | .sqrt => 1 | .ex2 => 2 | .lg2 => 2 | .sinpi => 2 | .cospi => 2 | .tanh => 2

/-- |r − y| is at most N ulp of y (R106). -/
def withinUlps (n : Nat) (y : FNum) (r : Word) : Bool :=
  let d := ((val32 r).add y.neg).1.abs
  let u := FNum.fin false n (max y.exponent (-126) - 23)
  !(val32 r).isInf && !(val32 r).isNan && !u.lt d

/-- The results R106 allows for y, its nearest FP32 value first: words of y's sign near it, within the bound.  Where that nearest value
is an infinity, which lies in no bound of ulps, the model allows it and the finite words within the bound (DESIGN CHOICE, log entry
77). -/
def sfuAllowed (n : Nat) (y : FNum) (r : Word) : List Word :=
  let mag := r.toNat % 2147483648
  let sign := r.toNat / 2147483648 * 2147483648
  let near := (List.range 5).map (fun k => mag + k) ++ (List.range 5).map (fun k => mag - k)
  r :: (near.map (fun w => BitVec.ofNat 32 (w + sign))).filter (withinUlps n y)

/-- An SFU result with CORECTL.EXACT as given (R106 to R108).  Without EXACT the result is one of the allowed words,
which one is free: one bit pattern for each input; EX2 of 128 or more is +∞ in both modes (R108). -/
def sfu (exact : Bool) (fn : SfuFn) (a : Word) : Word × Flags :=
  match val32 a with
  | .nan => (0x7FC00000, 0)
  | .inf neg => sfuInf fn neg
  | .fin neg m e =>
    if m = 0 then (sfuZero fn neg, 0)
    else if sfuOutside fn neg then sfuInvalid
    else
      let y := sfuValue fn neg m e
      let (r, fl) := rne32 y
      if exact || fl &&& flagIX == 0 || (fn.code == SfuFn.ex2.code && fl &&& flagOF != 0) then (r, fl)
      else
        let ws := sfuAllowed fn.ulps y r
        (nth r ws (Config.sfuChoice fn.code a % ws.length), fl)

end Sys2Proof.Machine
end

