-- ==== Sys2Proof/Machine/Frac.lean ====
section
/-!
DEFINITION.  Exact rational arithmetic, and numbers extended by the infinities (R225, R229, R367).
-/

namespace Sys2Proof.Machine

/-- A rational number: a numerator over a denominator that is not 0. -/
structure Frac where
  num : Int
  den : Nat
  deriving DecidableEq, Repr

/-- An integer. -/
def Frac.ofInt (x : Int) : Frac := ⟨x, 1⟩
/-- A finite exact value: a sign and m · 2^e. -/
def Frac.dyadic (neg : Bool) (m : Nat) (e : Int) : Frac :=
  if 0 ≤ e then ⟨signedMag neg (m * 2 ^ e.toNat), 1⟩ else ⟨signedMag neg m, 2 ^ (-e).toNat⟩
/-- A finite exact value as a rational. -/
def FNum.frac : FNum → Option Frac
  | .nan => none
  | .inf _ => none
  | .fin neg m e => some (Frac.dyadic neg m e)

def Frac.add (a b : Frac) : Frac := ⟨a.num * b.den + b.num * a.den, a.den * b.den⟩
def Frac.neg (a : Frac) : Frac := ⟨-a.num, a.den⟩
def Frac.sub (a b : Frac) : Frac := a.add b.neg
def Frac.mul (a b : Frac) : Frac := ⟨a.num * b.num, a.den * b.den⟩
/-- The quotient; by 0 it is 0. -/
def Frac.div (a b : Frac) : Frac :=
  if b.num = 0 then ⟨0, 1⟩
  else if b.num < 0 then ⟨-(a.num * b.den), a.den * b.num.natAbs⟩ else ⟨a.num * b.den, a.den * b.num.natAbs⟩
def Frac.lt (a b : Frac) : Bool := decide (a.num * b.den < b.num * a.den)
def Frac.le (a b : Frac) : Bool := !b.lt a
def Frac.same (a b : Frac) : Bool := a.num * b.den == b.num * a.den
def Frac.isZero (a : Frac) : Bool := a.num == 0
/-- The largest integer at or below it. -/
def Frac.floor (a : Frac) : Int := a.num / a.den
def Frac.min (a b : Frac) : Frac := if b.lt a then b else a
def Frac.max (a b : Frac) : Frac := if a.lt b then b else a
/-- Rounded once to FP32 (R71). -/
def Frac.rne (a : Frac) : Word := (rne32 ((FNum.ofInt a.num).div (FNum.ofInt a.den)).1).1

/-- A rational or an infinity. -/
inductive Ext where
  | ninf
  | fin (q : Frac)
  | pinf
  deriving DecidableEq, Repr

def Ext.lt : Ext → Ext → Bool
  | .ninf, .ninf => false
  | .ninf, .fin _ => true
  | .ninf, .pinf => true
  | .fin _, .ninf => false
  | .fin a, .fin b => a.lt b
  | .fin _, .pinf => true
  | .pinf, _ => false
def Ext.le (a b : Ext) : Bool := !b.lt a
def Ext.max (a b : Ext) : Ext := if a.lt b then b else a
def Ext.min (a b : Ext) : Ext := if b.lt a then b else a

/-- A value that is no NaN, extended. -/
def FNum.ext : FNum → Option Ext
  | .nan => none
  | .inf neg => some (if neg then .ninf else .pinf)
  | .fin neg m e => some (.fin (Frac.dyadic neg m e))

/-- Three rationals. -/
structure Vec3 where
  x : Frac
  y : Frac
  z : Frac
  deriving DecidableEq, Repr

def Vec3.sub (a b : Vec3) : Vec3 := ⟨a.x.sub b.x, a.y.sub b.y, a.z.sub b.z⟩
def Vec3.add (a b : Vec3) : Vec3 := ⟨a.x.add b.x, a.y.add b.y, a.z.add b.z⟩
def Vec3.scale (t : Frac) (a : Vec3) : Vec3 := ⟨t.mul a.x, t.mul a.y, t.mul a.z⟩
def Vec3.dot (a b : Vec3) : Frac := (a.x.mul b.x).add ((a.y.mul b.y).add (a.z.mul b.z))
def Vec3.cross (a b : Vec3) : Vec3 :=
  ⟨(a.y.mul b.z).sub (a.z.mul b.y), (a.z.mul b.x).sub (a.x.mul b.z), (a.x.mul b.y).sub (a.y.mul b.x)⟩
def Vec3.isZero (a : Vec3) : Bool := a.x.isZero && a.y.isZero && a.z.isZero

/-- Three finite FP32 words as a vector. -/
def vecOf (x y z : Word) : Option Vec3 :=
  match (val32 x).frac, (val32 y).frac, (val32 z).frac with
  | some a, some b, some c => some ⟨a, b, c⟩
  | some _, some _, none => none
  | some _, none, _ => none
  | none, _, _ => none

end Sys2Proof.Machine
end

