-- ==== Sys2Proof/Machine/Sys.lean ====
section
/-!
DEFINITION.  The SYS functions: waiting, traps, control and status registers, segments, invalidations, flags and the clock
(R13, R78, R137 to R140, R251 to R260, R264, R265).
-/

namespace Sys2Proof.Machine

/-- A privileged instruction: PRIV in user mode (R255). -/
def privileged (m : Meaning) : Meaning := fun s => if s.pre.csr.sup then m s else .next (s.raise s.priv)

/-- What an instruction of scalar sources and destinations names. -/
def scalarNeed (ss sd : List (Nat × Nat)) : Need := ⟨[], [], ss, sd⟩

/-- NOP (R140). -/
def execNop : Meaning := issue (scalarNeed [] []) noCheck 0 id

/-- SLEEP: nothing issues for min(s[A], 2^24) cycles (R140). -/
def execSleep (a : Reg) : Meaning :=
  issue (scalarNeed [(a.toNat, 1)] []) noCheck 0 (fun s =>
    if s.rs a.toNat = 0 then s else s.onMe (fun g => { g with sleepTo := s.now + min (s.rs a.toNat).toNat (2 ^ 24) }))

/-- The youngest stamp among the groups of the unit's core and partition. -/
def State.youngest (s : State) : Nat :=
  s.groups.foldl (fun m e =>
    if (s.team e.2.team).core = s.myTeam.core && e.2.part = s.me.part then max m e.2.stamp else m) s.now

/-- YIELD (R140). -/
def execYield : Meaning := issue (scalarNeed [] []) noCheck 0 (fun s => s.onMe (fun g => { g with stamp := s.youngest + 1 }))

/-- TRAP: TRAP_INSTR after the unit (R260). -/
def execTrap (n : BitVec 7) : Meaning :=
  issue (scalarNeed [] []) noCheck 0 (fun s => s.addAfter (s.afterCause 0x12 (n.setWidth 32) 0 s.lead))

/-- The causes of a return: a saved lpc of slot 3 (R10), or of the second word of an instruction (R28). -/
def eretCheck (s : State) (i : Nat) : Option Cause :=
  let g := s.pre
  let back := (lanesOf g.width g.csr.hset).filter (fun j => (g.lane j).st != .exited)
  if i ≠ s.lead then none
  else firstCause (fun j =>
    let t := (g.lane j).slpc
    if slotOf t = 3 then some (s.cause 0x05 t 0 j)
    else match s.packet s.unit.g (pktOf t) with
      | none => none
      | some ws => if secondWord ws (slotOf t) then some (s.cause 0x01 s.unit.word t j) else none) back

/-- ERET (R265). -/
def execEret : Meaning :=
  privileged (issue (scalarNeed [] []) eretCheck 0 (fun s =>
    let t := s.onMe Group.leave
    { t with unit := { t.unit with moved := true } }))

/-- The code that HALT records (R260). -/
def haltCode (a : Word) (cause : BitVec 13) : Nat :=
  if bits a.toNat 0 8 ≠ 0 then bits a.toNat 0 8
  else if bits cause.toNat 0 8 ≠ 0 then bits cause.toNat 0 8 else 0x12

/-- HALT: the team ends as by a fatal trap (R260, R269). -/
def execHalt (a : Reg) : Meaning :=
  privileged (issue (scalarNeed [(a.toNat, 1)] []) noCheck 0 (fun s =>
    let c := s.me.csr
    let f : FaultRec := ⟨haltCode (s.rs a.toNat) c.tcause, c.tval, c.tvalh, c.tlane.setWidth 32, c.tfaddr, s.myTeam.teamId,
      BitVec.ofNat 32 s.me.index, true⟩
    let t := (s.onTeam (fun t => { t with dead := true })).fence s.myTeam.exec f
    { t with unit := { t.unit with moved := true } }))

/-! ### Control and status registers -/

/-- GSTATUS.WIDTH (R13). -/
def widthCode (w : Nat) : Nat := if w = 8 then 0 else if w = 16 then 1 else if w = 32 then 2 else 3

/-- GSTATUS (R13). -/
def Group.gstatus (g : Group) : Word :=
  BitVec.ofNat 32 (g.csr.role.toNat * 64 + widthCode g.width * 16 + g.csr.autow.toNat * 8 + g.csr.spinp.toNat * 4
    + g.csr.divv.toNat * 2)

/-- TEPC: the saved lpc of the lowest lane of HSET (R256). -/
def Group.tepc (g : Group) : Word := if g.csr.hset = 0 then 0 else (g.lane (minOf 0 (lanesOf g.width g.csr.hset))).slpc

/-- The segment registers, by number from 0x20 (R251). -/
def Segs.csr (g : Segs) : List Word :=
  [pairLo g.cb, pairHi g.cb, pairLo g.cl, pairHi g.cl, pairLo g.gb, pairHi g.gb, pairLo g.gl, pairHi g.gl, g.sb, g.sl,
    pairLo g.pb, pairHi g.pb, g.pl, pairLo g.kb, pairHi g.kb, pairLo g.kl, pairHi g.kl]

/-- CORECTL of a core (R253). -/
def Core.corectl (c : Core) : Word := BitVec.ofNat 32 (c.exact.toNat + 2 * c.noco.toNat)

/-- LAUNCHID (R251). -/
def Exec.launchId (e : Exec) : Word := BitVec.ofNat 32 (e.slot % 4096 + e.num.toNat % 2 ^ 20 * 4096)

/-- The numbers of the CSRs that exist (R251). -/
def csrExists (n : Nat) : Bool := decide (n ≤ 0x11) || (decide (0x18 ≤ n) && decide (n ≤ 0x1E)) || (decide (0x20 ≤ n) && decide (n ≤ 0x30))

/-- The value a CSRR reads (R251). -/
def State.csrValue (s : State) (n : Nat) : Word :=
  let g := s.me
  let c := g.csr
  if n = 0x00 then g.gstatus
  else if n = 0x01 then c.flags.setWidth 32
  else if n = 0x02 then c.trapctl.setWidth 32
  else if n = 0x03 then c.rngkey
  else if n = 0x04 then c.wseq
  else if n = 0x05 then (s.coreOf s.unit.g).corectl
  else if n = 0x06 then c.tvec
  else if n = 0x07 then boolWord c.sup
  else if n = 0x08 then c.tcause.setWidth 32
  else if n = 0x09 then c.tval
  else if n = 0x0A then c.tvalh
  else if n = 0x0B then c.tlane.setWidth 32
  else if n = 0x0C then c.tfaddr
  else if n = 0x0D then g.tepc
  else if n = 0x0E then pairLo c.hset
  else if n = 0x0F then pairHi c.hset
  else if n = 0x10 then c.tscratch
  else if n = 0x11 then c.efault
  else if n = 0x18 then BitVec.ofNat 32 s.now
  else if n = 0x19 then BitVec.ofNat 32 (s.now / 2 ^ 32)
  else if n = 0x1A then s.myTeam.teamId
  else if n = 0x1B then BitVec.ofNat 32 g.index
  else if n = 0x1C then s.myExec.launchId
  else if n = 0x1D then BitVec.ofNat 32 s.myTeam.core
  else if n = 0x1E then c.prio.setWidth 32
  else if 0x20 ≤ n then nth 0 g.seg.csr (n - 0x20)
  else 0

/-- Every earlier instruction of the group sets its flags (R79, R256). -/
def State.flagsSet (s : State) : State := s.onMe Group.flushLooks

/-- The check of a CSRR (R251). -/
def csrrCheck (n : Nat) (s : State) (_ : Nat) : Option Cause :=
  if !csrExists n then some s.illegal
  else if n = 0x10 && !s.pre.csr.sup then some s.priv
  else none

/-- CSRR (R251, R256). -/
def execCsrr (d : Reg) (e : BitVec 7) : Meaning :=
  issue (scalarNeed [] [(d.toNat, 1)]) (csrrCheck e.toNat) 0 (fun s =>
    let t := if e.toNat = 0x01 then s.flagsSet else s
    t.putS d.toNat (t.csrValue e.toNat))

/-- The registers a CSRW may write in user mode, and those it may write in supervisor mode alone (R251). -/
def csrUser (n : Nat) : Bool := [0x00, 0x02, 0x03, 0x11].contains n
def csrSuper (n : Nat) : Bool := [0x01, 0x05, 0x06, 0x08, 0x09, 0x0A, 0x0B, 0x0C, 0x0D, 0x10].contains n

/-- The check of a CSRW (R251): ILLEGAL_INSTR for a reserved or read-only register, PRIV for a supervisor one. -/
def csrwCheck (n : Nat) (s : State) (_ : Nat) : Option Cause :=
  if csrUser n then none
  else if csrSuper n then (if s.pre.csr.sup then none else some s.priv)
  else some s.illegal

/-- The saved lpc of every lane of HSET (R256). -/
def Group.setTepc (g : Group) (w : Word) : Group := g.onLanes g.csr.hset (fun _ l => { l with slpc := w })

/-- What a CSRW does (R251 to R254, R256). -/
def State.csrWrite (s : State) (n : Nat) (w : Word) : State :=
  let on := fun (f : Csrs → Csrs) => s.onMe (fun g => { g with csr := f g.csr })
  if n = 0x00 then on (fun c => { c with spinp := c.spinp && !w.getLsbD 2, divv := c.divv && !w.getLsbD 1 })
  else if n = 0x01 then on (fun c => { c with flags := w.setWidth 4 })
  else if n = 0x02 then on (fun c => { c with trapctl := w.setWidth 6 })
  else if n = 0x03 then on (fun c => { c with rngkey := w })
  else if n = 0x05 then
    s.setCore s.myTeam.core { s.core s.myTeam.core with exact := w.getLsbD 0, noco := w.getLsbD 1 }
  else if n = 0x06 then on (fun c => { c with tvec := w &&& 0xFFFFFFFC })
  else if n = 0x08 then on (fun c => { c with tcause := w.setWidth 13 })
  else if n = 0x09 then on (fun c => { c with tval := w })
  else if n = 0x0A then on (fun c => { c with tvalh := w })
  else if n = 0x0B then on (fun c => { c with tlane := w.setWidth 11 })
  else if n = 0x0C then on (fun c => { c with tfaddr := w })
  else if n = 0x0D then s.onMe (fun g => g.setTepc w)
  else if n = 0x10 then on (fun c => { c with tscratch := w })
  else if n = 0x11 then on (fun c => { c with efault := w, ekept := false })
  else s

/-- CSRW (R251, R256). -/
def execCsrw (a : Reg) (e : BitVec 7) : Meaning :=
  issue (scalarNeed [(a.toNat, 1)] []) (csrwCheck e.toNat) 0 (fun s =>
    (if e.toNat = 0x01 then s.flagsSet else s).csrWrite e.toNat (s.rs a.toNat))

/-- The segments that SEGLD sets, or none where a value breaks its condition (R258). -/
def segLoad (g : Segs) (k : Nat) (base limit : Dword) : Option Segs :=
  let fits := decide (base.toNat ≤ limit.toNat) && decide (limit.toNat ≤ 2 ^ 56)
  if k = 0 then (if fits then some { g with gb := base, gl := limit } else none)
  else if k = 1 then
    (if limit.toNat % 32 = 0 && pairHi limit = 0 then some { g with pb := base, pl := pairLo limit } else none)
  else if k = 2 then (if fits then some { g with kb := base, kl := limit } else none)
  else none

/-- SEGLD (R258). -/
def execSegld (a : Reg) (k : BitVec 2) : Meaning :=
  privileged (issue (scalarNeed [(a.toNat, 4)] [])
    (fun s i => if i = s.lead && (segLoad s.pre.seg k.toNat (s.rs2 a.toNat) (s.rs2 (a.toNat + 2))).isNone
      then some (s.cause 0x04 (k.setWidth 32) 0 i) else none) 0 (fun s =>
    s.onMe (fun g => { g with seg := (segLoad g.seg k.toNat (s.rs2 a.toNat) (s.rs2 (a.toNat + 2))).getD g.seg })))

/-! ### Invalidations -/

/-- A range rounded out to a granule: first address and first address past it. -/
def roundOut (gran a n : Nat) : Nat × Nat := (a / gran * gran, (a + n + gran - 1) / gran * gran)

/-- The physical key of a mapped address, whatever its rights. -/
def State.mapped (s : State) (space va : Nat) : Option Nat :=
  match s.walk space va with
  | .leaf l => some (s.keyOf space l va)
  | .absent => none
  | .bad _ => none
  | .poisoned _ => none

/-- Invalidate the lines of a range of virtual addresses in every instruction cache (R137). -/
def State.icInvalidate (s : State) (space lo hi : Nat) : State :=
  let lines := (List.range ((hi - lo) / 128)).filterMap (fun j => s.mapped space (lo + 128 * j))
  let keep := fun (e : Nat × Word) => !lines.any (fun l => l / 128 == e.1 / 32)
  { s with cores := fmapVals (fun _ c => { c with icache := c.icache.filter keep }) s.cores }

/-- The effect of ICINV of a group: a length of 0 invalidates nothing (R137). -/
def State.icinvOf (s : State) (k lo hi : Nat) : State := if hi ≤ lo then s else s.icInvalidate (s.spaceOf k) lo hi

/-- ICINV (R137). -/
def execIcinv (a e : Reg) : Meaning :=
  issue (scalarNeed [(a.toNat, 2), (e.toNat, 1)] []) noCheck 0 (fun s =>
    let n := (s.rs e.toNat).toNat
    let r := if n = 0 then (0, 0) else roundOut 128 (s.rs2 a.toNat).toNat n
    s.gate (.icinv r.1 r.2) (!s.pre.unacked .pkg) (fun s => s.icinvOf s.unit.g r.1 r.2))

/-- ISYNC: the instruction buffer is empty (R138). -/
def execIsync : Meaning := issue (scalarNeed [] []) noCheck 0 (fun s => s.onMe (fun g => { g with ibuf := [] }))

/-- The effect of TLBINV of a group (R259). -/
def State.tlbinvOf (s : State) (k : Nat) (range : Option (Nat × Nat)) : State := s.invalidate (s.spaceOf k) range

/-- TLBINV of a range: a length of 0 invalidates nothing (R259). -/
def execTlbinv (a e : Reg) : Meaning :=
  privileged (issue (scalarNeed [(a.toNat, 2), (e.toNat, 1)] []) noCheck 0 (fun s =>
    let n := (s.rs e.toNat).toNat
    let r := if n = 0 then (0, 0) else roundOut 4096 (s.rs2 a.toNat).toNat n
    s.gate (.tlbinv (some r)) (!s.pre.unacked .pkg) (fun s => s.tlbinvOf s.unit.g (some r))))

/-- TLBINV.all (R259). -/
def execTlbinvAll : Meaning :=
  privileged (issue (scalarNeed [] []) noCheck 0 (fun s =>
    s.gate (.tlbinv none) (!s.pre.unacked .pkg) (fun s => s.tlbinvOf s.unit.g none)))

/-! ### Flags and the clock -/

/-- FLAGRD (R257). -/
def execFlagrd (d : Reg) : Meaning :=
  issue (scalarNeed [] [(d.toNat, 1)]) noCheck 0 (fun s => s.flagsSet.putS d.toNat (s.flagsSet.me.csr.flags.setWidth 32))

/-- FLAGCLR (R257). -/
def execFlagclr (m : BitVec 4) : Meaning :=
  issue (scalarNeed [] []) noCheck 0 (fun s =>
    s.flagsSet.onMe (fun g => { g with csr := { g.csr with flags := g.csr.flags &&& ~~~m } }))

/-- CLOCK (R257). -/
def execClock (d : Reg) : Meaning :=
  issue (scalarNeed [] [(d.toNat, 2)]) noCheck 0 (fun s => s.putS2 d.toNat (BitVec.ofNat 64 s.now))

end Sys2Proof.Machine
end

