-- ==== Sys2Proof/Machine/Tensor.lean ====
section
/-!
DEFINITION.  Tensor descriptors, the tensor-identifier table and its instructions (R170 to R175).
-/

namespace Sys2Proof.Machine

/-! ### Descriptors -/

/-- Words as one number, the first least significant. -/
def joinWords : List Word → Nat
  | [] => 0
  | w :: ws => w.toNat + 2 ^ 32 * joinWords ws

/-- A descriptor: its 32 words (R170). -/
abbrev Desc := List Word

/-- `n` bytes of a descriptor from an offset. -/
def Desc.field (d : Desc) (off n : Nat) : Nat := bits (joinWords d) (8 * off) (8 * n)

/-- The fields of CTL (R170). -/
def Desc.ctl (d : Desc) : Nat := Desc.field d 0 4
def Desc.kind (d : Desc) : Nat := bits (Desc.ctl d) 0 3
def Desc.fmt (d : Desc) : Nat := bits (Desc.ctl d) 4 4
def Desc.rank (d : Desc) : Nat := bits (Desc.ctl d) 8 3
def Desc.space (d : Desc) : Nat := bits (Desc.ctl d) 11 2
def Desc.skew (d : Desc) : Nat := bits (Desc.ctl d) 13 3
def Desc.sp24 (d : Desc) : Bool := (Desc.ctl d).testBit 16
def Desc.tagf (d : Desc) : Bool := (Desc.ctl d).testBit 17
def Desc.rights (d : Desc) : Nat := bits (Desc.ctl d) 18 4
/-- The other fields (R170). -/
def Desc.fill (d : Desc) : Nat := Desc.field d 4 4
def Desc.base (d : Desc) : Nat := Desc.field d 8 8
def Desc.stride (d : Desc) (k : Nat) : Int := if k = 0 then 0 else sext (Desc.field d (8 + 8 * k) 8) 64
def Desc.dim (d : Desc) (k : Nat) : Nat := Desc.field d (0x30 + 4 * k) 4
def Desc.box (d : Desc) (k : Nat) : Nat := Desc.field d (0x44 + 2 * k) 2
def Desc.spitch (d : Desc) : Nat := Desc.field d 0x50 4
/-- A byte field where 0 is read as 1. -/
def Desc.one (d : Desc) (off : Nat) : Nat := max 1 (Desc.field d off 1)
/-- Window stride and dilation along dim k, 1 or 2. -/
def Desc.wstr (d : Desc) (k : Nat) : Nat := Desc.one d (0x53 + k)
def Desc.dil (d : Desc) (k : Nat) : Nat := Desc.one d (0x55 + k)
/-- Filter taps and leading padding. -/
def Desc.tapx (d : Desc) : Nat := Desc.one d 0x58
def Desc.tapy (d : Desc) : Nat := Desc.one d 0x59
def Desc.pad (d : Desc) (k : Nat) : Nat := Desc.field d (0x59 + k) 1
def Desc.sctl (d : Desc) : Nat := Desc.field d 0x5C 4
def Desc.sblk (d : Desc) : Nat := bits (Desc.sctl d) 0 3
def Desc.sbase (d : Desc) : Nat := Desc.field d 0x60 8
def Desc.mbase (d : Desc) : Nat := Desc.field d 0x68 8

/-- FMT codes of S4, E8M0 and TRITV. -/
def fmtS4 : Nat := 2
def fmtTrit : Nat := 9

/-- Bytes of an element: 1 for S4 and TRITV, whose elements share bytes (R170). -/
def fmtBytes (f : Nat) : Nat :=
  if f = 3 || f = 4 then 2 else if f = 5 || f = 11 then 4 else if f = 12 then 8 else 1

/-- Bytes of a row of `n` elements (R171, R177). -/
def rowBytesOf (f n : Nat) : Nat := if f = fmtS4 then (n + 1) / 2 else if f = fmtTrit then (n + 4) / 5 else n * fmtBytes f

/-- A number rounded up to a multiple. -/
def roundUp (m n : Nat) : Nat := (n + m - 1) / m * m

/-- The reserved fields and values of KIND 0 and 1 (R170). -/
def Desc.reserved (d : Desc) : Bool :=
  let c := Desc.ctl d
  bits c 22 10 != 0 || c.testBit 3 || decide (12 < Desc.fmt d) || Desc.rank d == 0 || decide (5 < Desc.rank d)
    || Desc.space d == 3 || decide (4 < Desc.skew d) || decide (4 < Desc.sblk d) || Desc.field d 0x4E 2 != 0
    || bits (Desc.sctl d) 3 29 != 0 || Desc.field d 0x70 16 != 0

/-- The dims of R171. -/
def Desc.dimsOk (d : Desc) : Bool :=
  (List.range 5).all (fun k => decide (1 ≤ Desc.dim d k) && decide (1 ≤ Desc.box d k) && decide (Desc.box d k ≤ 4096) &&
    (decide (k < Desc.rank d) || (Desc.dim d k == 1 && Desc.box d k == 1 && decide (Desc.stride d k = 0))))

/-- The strides and the pitch of R170 and R171. -/
def Desc.stepsOk (d : Desc) : Bool :=
  let n := fmtBytes (Desc.fmt d)
  let p := Desc.spitch d
  (List.range 5).all (fun k => decide (Desc.stride d k % n = 0)) && decide (Desc.base d % n = 0)
    && decide (p % 16 = 0) && decide (p ≤ 65536)
    && (p == 0 || decide (roundUp 16 (rowBytesOf (Desc.fmt d) (Desc.box d 0)) ≤ p))
    && (Desc.skew d == 0 ||
      decide ((if p = 0 then roundUp 16 (rowBytesOf (Desc.fmt d) (Desc.box d 0)) else p) % (32 * 2 ^ Desc.skew d) = 0))

/-- The checks of R171 on the kind, the formats and the spaces. -/
def Desc.formOk (d : Desc) : Bool :=
  let f := Desc.fmt d
  (f != fmtS4 || Desc.box d 0 % 2 == 0) && (f != fmtTrit || decide (2 ≤ Desc.rank d))
    && (if Desc.kind d = 1 then f == 11 && Desc.rank d == 1 else decide (Desc.space d ≤ 1))
    && (Desc.space d != 2 || decide (Desc.base d < 2 ^ 32))
    && (if Desc.sp24 d then (fmtBytes f ≤ 2 && f != fmtS4 && f != fmtTrit) && Desc.dim d 0 % 8 == 0 && Desc.mbase d % 16 == 0
      else Desc.mbase d == 0)

/-- A KIND 0 or KIND 1 descriptor that TIDSET accepts (R171). -/
def Desc.tensorOk (d : Desc) : Bool :=
  decide (Desc.kind d ≤ 1) && !Desc.reserved d && Desc.dimsOk d && Desc.stepsOk d && Desc.formOk d

/-- CTL of KIND 2 to 5: FMT, RANK, SKEW, SP24 and TAGF 0, SPACE 0 or 1 (R224, R357). -/
def Desc.plainCtl (d : Desc) : Bool :=
  let c := Desc.ctl d
  bits c 22 10 == 0 && !c.testBit 3 && Desc.fmt d == 0 && Desc.rank d == 0 && decide (Desc.space d ≤ 1) && Desc.skew d == 0
    && !Desc.sp24 d && !Desc.tagf d

/-- Format codes of a texture (R244). -/
def texFormat (f : Nat) : Bool := decide (f ≤ 8) || (decide (16 ≤ f) && decide (f ≤ 23))

/-- A texture descriptor that TIDSET accepts (R243, R244). -/
def Desc.textureOk (d : Desc) : Bool :=
  let f := Desc.field d 4 4
  let levels := bits f 8 4 + 1
  let inRange := fun off hi => decide (1 ≤ Desc.field d off 4) && decide (Desc.field d off 4 ≤ hi)
  texFormat (bits f 0 8) && bits f 12 20 == 0 && decide (Desc.base d % 256 = 0) && inRange 0x10 16384 && inRange 0x14 16384
    && inRange 0x18 2048 && Desc.field d 0x1C 4 == 0
    && (List.range 16).all (fun k => decide (k < levels) || Desc.field d (0x20 + 4 * k) 4 == 0) && Desc.field d 0x70 16 == 0

/-- An acceleration-structure descriptor that TIDSET accepts (R224). -/
def Desc.structureOk (d : Desc) : Bool := Desc.field d 4 4 == 0 && decide (Desc.base d % 128 = 0) && Desc.field d 0x10 112 == 0

/-- A light-tree descriptor that TIDSET accepts (R240). -/
def Desc.lightOk (d : Desc) : Bool :=
  Desc.field d 4 4 == 0 && decide (Desc.base d % 32 = 0) && decide (1 ≤ Desc.field d 0x10 4)
    && decide (Desc.field d 0x10 4 ≤ 2 ^ 30) && Desc.field d 0x14 108 == 0

/-- A descriptor that TIDSET accepts (R171, R224, R357). -/
def Desc.accepted (d : Desc) : Bool :=
  let k := Desc.kind d
  if k ≤ 1 then Desc.tensorOk d
  else if k = 2 then Desc.plainCtl d && Desc.textureOk d
  else if k = 3 then Desc.plainCtl d && Desc.structureOk d
  else if k = 4 then Desc.plainCtl d && Desc.lightOk d
  else k == 5 && Desc.plainCtl d

/-! ### Slots, rights and reasons -/

/-- The descriptor of a slot of a team, where it is valid. -/
def Team.slot (t : Team) (n : Nat) : TensorSlot := fget none t.tensors n

/-- A role holds a right on a slot (R170, R171): role 2 every right; RIGHTS 0 the role's default. -/
def Desc.allows (d : Desc) (role : Nat) (write : Bool) : Bool :=
  if role = 2 then true
  else if Desc.rights d = 0 then role != 0 || !write
  else (Desc.rights d).testBit (2 * role + if write then 1 else 0)

/-- A use of a slot by an engine instruction: what it needs. -/
structure SlotUse where
  slot : Nat
  read : Bool
  write : Bool
  kinds : List Nat
  /-- The further demands of the mode (reason 4). -/
  form : Desc → Bool
  /-- The scalar that follows the coordinate group's last, of the descriptor's rank (reason 6). -/
  past : Desc → Nat

/-- The lowest reason a slot fails for (R175). -/
def SlotUse.reason (u : SlotUse) (t : Team) (role : Nat) : Option Nat :=
  match t.slot u.slot with
  | none => some 1
  | some d =>
    if (u.read && !Desc.allows d role false) || (u.write && !Desc.allows d role true) then some 2
    else if !u.kinds.contains (Desc.kind d) then some 3
    else if !u.form d then some 4
    else if 128 < u.past d then some 6
    else none

/-- TENSOR_ID for a slot and a reason (R175). -/
def State.tensorId (s : State) (slot reason : Nat) : Cause :=
  s.cause 0x14 (BitVec.ofNat 32 (slot * 256 + reason)) 0 s.lead

/-- The first failing slot use in the order of the fields (R175). -/
def State.slotCause (s : State) : List SlotUse → Option Cause
  | [] => none
  | u :: us => match u.reason s.myTeam s.me.csr.role.toNat with
    | some r => some (s.tensorId u.slot r)
    | none => s.slotCause us

/-- The descriptor of a slot, or one of zeros. -/
def State.descOf (s : State) (slot : Nat) : Desc := (s.myTeam.slot slot).getD []

/-- Set a slot of the unit's team. -/
def State.setSlot (s : State) (n : Nat) (d : TensorSlot) : State :=
  s.onTeam (fun t => { t with tensors := fset none t.tensors n d })

/-! ### TIDSET, TIDINV, TIDQ -/

/-- The index of the first marked word. -/
def firstBad : Nat → List (Word × Bool) → Option Nat
  | _, [] => none
  | n, (_, b) :: l => if b then some n else firstBad (n + 1) l

/-- The cause of a descriptor that is read and refused: poison of kind 2, or TENSOR_ID (R174, R175, R272). -/
def descFault (slot : Nat) (ws : List (Word × Bool)) : Option (Nat × Nat) :=
  match firstBad 0 ws with
  | some n => some (0x0A, n + 512)
  | none => if Desc.accepted (ws.map Prod.fst) then none else some (0x14, slot * 256 + 5)

/-- The physical runs of the 128 bytes of a descriptor. -/
def State.descRuns (s : State) (va : Nat) : List (Leaf × Nat × Nat) := (runs 17 va 128).filterMap (s.physRun .read)

/-- Read 32 words by a relaxed load. -/
def State.readDesc (s : State) (va : Nat) : State × List (Word × Bool) :=
  let (t, l) := s.loadRuns ⟨.rlx, false⟩ va 0 (s.descRuns va)
  (t.spent, l.flatMap (fun r => runWords r.1 8 r.2.2))

/-- The words of a scratch descriptor, as LANE loads (R174). -/
def Team.descWords (t : Team) (off : Nat) : List (Word × Bool) := (List.range 32).map (fun j => (t.word (off / 4 + j), t.bad (off / 4 + j)))

/-- The checks of a TIDSET's address (R174). -/
def tidCheck (scr : Bool) (a : Nat) (s : State) (i : Nat) : Option Cause :=
  if scr then
    let o := (s.rs a).toNat
    if s.pre.seg.sl.toNat < o + 128 then some (s.cause 0x04 (BitVec.ofNat 32 o) 0 i)
    else if o % 128 ≠ 0 then some (s.cause 0x05 (BitVec.ofNat 32 o) 0 i) else none
  else
    let o := (s.rs2 a).toNat
    if !s.inSegment .global o 128 then some (s.addrCause 0x04 o i)
    else if o % 128 ≠ 0 then some (s.addrCause 0x05 o i)
    else match s.access s.space o .read 0 with
      | .error c => some (s.addrCause c o i)
      | .ok _ => none

/-- The descriptor that a TIDSET of the unit's group reads. -/
def State.tidRead (s : State) (scr : Bool) (addr : Nat) : State × List (Word × Bool) :=
  if scr then
    let t := s.landWords s.unit.g 0 false ((List.range 32).map (fun j => addr / 4 + j))
    (t, t.myTeam.descWords addr)
  else s.readDesc addr

/-- The descriptor enters the slot, or the fault it is refused with is raised (R174). -/
def State.tidEnter (s : State) (slot : Nat) (scr : Bool) (addr : Nat) : State :=
  let (t, ws) := s.tidRead scr addr
  match descFault slot ws with
  | some (code, v) => t.raise (t.cause code (BitVec.ofNat 32 v) 0 t.lead)
  | none => t.setSlot slot (some (ws.map Prod.fst))

/-- TIDSET (R173, R174).  It waits for the group's stores that were on their way before the unit.  As a later member of its unit it
reads after the members before it (R31), and is tried again rather than held while it waits. -/
def execTidset (scr : Bool) (a : Reg) (t : Tid) : Meaning :=
  issue (scalarNeed [(a.toNat, if scr then 1 else 2)] []) (tidCheck scr a.toNat) 0 (fun s =>
    let addr := if scr then (s.rs a.toNat).toNat else (s.rs2 a.toNat).toNat
    let before := s.onMe (fun g => { g with stores := s.pre.stores })
    let free := scr || !before.loadWaits .lane .rlx (s.descRuns addr)
    if s.unit.addr ≠ s.unit.first then (if free then s.effect.tidEnter t.toNat scr addr else s.stall)
    else s.effect.gate (.tidset t.toNat scr addr) free (fun s => s.tidEnter t.toNat scr addr))

/-- TIDINV (R173, R174). -/
def execTidinv (t : Tid) : Meaning :=
  issue (scalarNeed [] []) noCheck 0 (fun s => s.effect.setSlot t.toNat none)

/-- TIDQ: the words of an invalid slot read 0; word 0 of a valid one has bit 31 set (R174). -/
def Team.query (t : Team) (slot w : Nat) : Word :=
  match t.slot slot with
  | none => 0
  | some d => nth 0 d w ||| (if w = 0 then 0x80000000 else 0)

/-- TIDQ (R173, R174). -/
def execTidq (d : Reg) (wi : BitVec 5) (t : Tid) : Meaning :=
  issue (scalarNeed [] [(d.toNat, 1)]) noCheck 0 (fun s => s.putS d.toNat (s.myTeam.query t.toNat wi.toNat))

end Sys2Proof.Machine
end

