-- ==== Sys2Proof/Machine/Engine.lean ====
section
/-!
DEFINITION.  Engine commands: their issue, their tokens, and their accesses to memory and scratchpad (R45, R183, R184,
R186, R192, R194, R270, R313).
-/

namespace Sys2Proof.Machine

/-! ### Issue and completion -/

/-- A command of the unit's group on a path class, with the state it reads at issue (R172, R176) and the versions of global memory
that its reads must not precede (R193, R313). -/
def State.command (s : State) (path : Nat) (tok : Reg) (op : Nat) (args : List Word) (desc desc2 : Desc) : Cmd :=
  { Cmd.blank with
    id := s.nextKey
    group := s.unit.g
    team := s.me.team
    tok := tok.toNat
    op := op
    args := args
    desc := desc
    desc2 := desc2
    seg := s.me.seg
    space := s.space
    exact := (s.coreOf s.unit.g).exact
    floors := s.pathFloors s.unit.g path
    since := s.now }

/-- The token of a new command is pending already: TOKEN_FAULT (R45). -/
def State.tokenBusy (s : State) (tok : Reg) : Option Cause :=
  if s.me.pending tok.toNat then some (s.cause 0x0E (BitVec.ofNat 32 tok.toNat) 0 s.lead) else none

/-- The first cause of a list of checks. -/
def firstSome : List (Option Cause) → Option Cause
  | [] => none
  | some c :: _ => some c
  | none :: l => firstSome l

/-- A token scalar is pending from the issue of its command (R45). -/
def Group.startToken (g : Group) (tok : Nat) : Group :=
  { g with
    tok := if tok = 127 then g.tok else fset false g.tok tok true
    unread := g.unread.filter (fun d => d.tok != tok)
    cmds := g.cmds + 1 }

/-- A command is issued: its key is used and its token is pending. -/
def State.issued (s : State) (c : Cmd) : State :=
  { s.effect.onMe (fun g => g.startToken c.tok) with nextKey := s.nextKey + 1 }

/-- Issue a bulk command: the checks under R33, the hold at a full queue, then the start (R45, R185). -/
def bulk (scalars : State → List (Nat × Nat)) (chk : State → Option Cause) (tok : Reg) (room : State → Bool)
    (cmd : State → Cmd) (start : Cmd → State → State) : Meaning := fun s =>
  issue (scalarNeed (scalars s) []) (fun s i => if i = s.lead then firstSome [chk s, s.tokenBusy tok] else none) 0
    (fun s => if room s then (start (cmd s) s).issued (cmd s) else s.stall) s

/-- EFAULT keeps the first fault since it was last written (R270). -/
def Csrs.keepFault (c : Csrs) (v : Word) : Csrs := if c.ekept then c else { c with efault := v, ekept := true }

/-- A command of a group completes: the token is written, or its fault goes to EFAULT; its writes are what a reader of the
token knows to be complete (R186, R193, R270). -/
def Group.complete (now : Nat) (c : Cmd) (path : Nat) (g : Group) : Group :=
  let v := match c.fault with
    | none => (0 : Word)
    | some (code, i) => tokenValue code i
  if c.tok = 127 then
    { g with cmds := g.cmds - 1, csr := if c.fault.isSome then g.csr.keepFault v else g.csr }
  else
    { (g.putS c.tok v false).wake now (WaitOn.onToken c.tok) with
      tok := fset false g.tok c.tok false
      cmds := g.cmds - 1
      unread := g.unread.filter (fun d => d.tok != c.tok) ++ [⟨c.tok, c.id, path, c.writes⟩] }

/-- A command completes. -/
def State.finish (s : State) (c : Cmd) (path : Nat) : State :=
  s.onGrp c.group (fun g => g.complete (s.cycle (s.dieOf c.group)) c path)

/-- Keep the fault of the lowest index (R184, R186). -/
def Cmd.note (c : Cmd) (code index : Nat) : Cmd :=
  match c.fault with
  | none => { c with fault := some (code, index) }
  | some (_, i) => if index < i then { c with fault := some (code, index) } else c

/-! ### Engine accesses to global memory -/

/-- An engine's access inside one page: the physical key and the leaf, or the fault code. -/
def State.engineAt (s : State) (space : Nat) (inSeg : Bool) (va : Nat) (acc : Access) : Except Nat (Leaf × Nat) :=
  if !inSeg then .error 4
  else match s.access space va acc 0 with
    | .error c => .error c
    | .ok l => .ok (l, s.keyOf space l va)

/-- A packet of a group's traffic of a kind about an address finds its ways open and overtakes nothing (R322, R323, R327). -/
def State.fetchOpen (s : State) (k : Nat) (t : Traffic) (space va : Nat) : Bool :=
  match s.access space va .read 0 with
  | .error _ => true
  | .ok l => s.mayGo k t (s.keyOf space l va) (l.plane (s.keyOf space l va))

/-- A packet between an end and the home of an address, and its answer, find their ways open (R319, R327). -/
def State.wayAt (s : State) (e : End) (space va : Nat) : Bool :=
  match s.access space va .read 0 with
  | .error _ => true
  | .ok l => s.waysOpen e (homeEnd (s.keyOf space l va)) (l.plane (s.keyOf space l va))

/-- The way between an end and the core where a command's token is written is open (R319, R322, R327). -/
def State.tellOpen (s : State) (e : End) (c : Cmd) : Bool := s.waysOpen e (s.groupEnd c.group) controlPlane

/-- A packet of a command. -/
def State.cmdOpen (s : State) (c : Cmd) (t : Traffic) (va : Nat) : Bool := s.fetchOpen c.group t c.space va

/-- An address range lies in the segment that a descriptor's space names: global, or constant (R158, R179). -/
def Segs.covers (g : Segs) (space va n : Nat) : Bool :=
  if space = 1 then decide (g.kb.toNat ≤ va) && decide (va + n ≤ g.kl.toNat)
  else decide (g.gb.toNat ≤ va) && decide (va + n ≤ g.gl.toNat)

/-- What an engine reads of an element. -/
structure Got where
  val : Nat
  bad : Bool
  fault : Option Nat
  /-- The versions it has read, as pins. -/
  seen : Floors
  deriving DecidableEq, Repr

/-- Read `n` bytes for an engine, with the floors and pins of what reads: each 8-byte part as some write not before its floor left it
(R194, R313). -/
def State.engineSees (s : State) (fl pins : Floors) (space : Nat) (inSeg : Bool) (va n : Nat) : Got :=
  match s.engineAt space inSeg va .read with
  | .error c => ⟨0, false, some c, []⟩
  | .ok (_, key) => ⟨s.viewNat fl pins n key n, s.tainted key, none, s.seenOf fl pins key n⟩

/-- Read `n` bytes for a command. -/
def State.cmdRead (s : State) (c : Cmd) (inSeg : Bool) (va n : Nat) : Got := s.engineSees c.floors c.pins c.space inSeg va n

/-- Read `n` bytes for an engine that no group's command drives, as they stand at their home (log entry 18). -/
def State.engineRead (s : State) (space : Nat) (inSeg : Bool) (va n : Nat) : Got :=
  match s.engineAt space inSeg va .read with
  | .error c => ⟨0, false, some c, []⟩
  | .ok (_, key) => ⟨s.natAt key n, s.tainted key, none, []⟩

/-- The versions that the parts of some bytes had come to by a time. -/
def State.floorsAt (s : State) (t key n : Nat) : Floors :=
  (List.range ((key + n - 1) / 8 + 1 - key / 8)).map (fun j => (key / 8 + j, (s.part (key / 8 + j)).before t))

/-- Read `n` bytes for a die's engine, each 8-byte part as it stood at some time since a given one. -/
def State.engineSince (s : State) (t space : Nat) (inSeg : Bool) (va n : Nat) : Got :=
  match s.engineAt space inSeg va .read with
  | .error c => ⟨0, false, some c, []⟩
  | .ok (_, key) => ⟨s.viewNat (s.floorsAt t key n) [] n key n, s.tainted key, none, []⟩

/-- The walker's marks of an engine's access, and what a walk that fails reports (R354, R355). -/
def State.engineTouch (s : State) (space va : Nat) (acc : Access) : State :=
  match s.access space va acc 0 with
  | .error c => if c = 6 then s.noteWalk space va else s
  | .ok l => s.touch space l (acc == .write)

/-- The sectors that hold some device bytes are marked (R184, R279). -/
def State.spoil (s : State) (keys : List Nat) : State :=
  { s with marks := (distinct ((keys.filter (fun k => !isHost k)).map (· / 32))).foldl (fun m k => fset false m k true) s.marks }

/-- Write bytes of one page for an engine: one version of each part at its home; sectors that hold a byte of a poisoned element are
marked (R184, R279). -/
def State.engineCells (s : State) (a : Agent) (space : Nat) (l : Leaf) (cs : List Host.Cell) (bad : List Nat) : State :=
  ((s.touch space l true).write a cs).spoil bad

/-- Write `n` bytes for an engine. -/
def State.engineWrite (s : State) (a : Agent) (space va n x : Nat) (bad : Bool) : State :=
  match s.access space va .write 0 with
  | .error _ => s
  | .ok l =>
    let cs := cellsOf (s.keyOf space l va) x n
    s.engineCells a space l cs (if bad then cs.map Prod.fst else [])

/-- The parts that a write of a command has reached, at their latest versions (R193). -/
def State.noteParts (s : State) (c : Cmd) (cs : List Host.Cell) : Cmd :=
  { c with writes := (partsOf cs).foldl (fun f p => Floors.raise f p (s.part p).count) c.writes }

/-- The engine agent of a command. -/
def State.cmdAgent (s : State) (c : Cmd) : Agent :=
  .engine c.team (coreDie (s.team c.team).core) (s.grp c.group).index

/-- Write bytes of one page for a command and note them. -/
def State.cmdCells (s : State) (c : Cmd) (l : Leaf) (cs : List Host.Cell) (bad : List Nat) : State × Cmd :=
  let t := s.engineCells (s.cmdAgent c) c.space l cs bad
  (t, t.noteParts c cs)

/-- Write `n` bytes for a command and note them. -/
def State.cmdWrite (s : State) (c : Cmd) (va n x : Nat) (bad : Bool) : State × Cmd :=
  match s.access c.space va .write 0 with
  | .error _ => (s, c)
  | .ok l =>
    let cs := cellsOf (s.keyOf c.space l va) x n
    s.cmdCells c l cs (if bad then cs.map Prod.fst else [])

/-! ### Engine accesses to the scratchpad -/

/-- An engine's bytes for a word of the scratchpad: accesses meet them under R164, R183 and R194.  The write wakes the spins that read
its line (R19). -/
def State.fogWord (s : State) (c : Cmd) (path w : Nat) (m : BitVec 4) (x : Word) (poison tagged : Bool) : State :=
  let t := s.team c.team
  (s.setTeam c.team { t with fogs := t.fogs ++ [⟨c.id, c.group, path, w, x, poison, m, 0, tagged⟩] }).wakeLines [scratchLine c.team w]

/-- Set or clear the tag of a word, and wake those that wait on it (R19, R182). -/
def State.tagWord (s : State) (team w : Nat) (full : Bool) : State :=
  ((s.setTeam team ((s.team team).setTags [w] full)).wakeTags team [w]).wakeLines [scratchLine team w]

/-- A team is there and not stopped. -/
def State.alive (s : State) (team : Nat) : Bool :=
  match ffind s.teams team with
  | none => false
  | some t => !t.dead && !t.saved

/-- All engine words of a command are settled: what no access has met is written, once its order towards every other path
is settled by XFENCE or by the end of its team's use of the words. -/
def State.settleFogs (s : State) (team : Nat) (p : Fog → Bool) : State :=
  let t := s.team team
  (s.setTeam team ((t.fogs.filter p).foldl (fun u f => u.putBytes f.word f.mask f.val f.poison)
    { t with fogs := t.fogs.filter (fun f => !p f) })).wakeLines (distinct ((t.fogs.filter p).map (fun f => scratchLine team f.word)))

end Sys2Proof.Machine
end

