-- ==== Sys2Proof/Machine/Copy.lean ====
section
/-!
DEFINITION.  Copies: TCOPY and the copy engine (R176 to R187).
-/

namespace Sys2Proof.Machine

/-! ### The geometry of a copy -/

/-- Modes of TCOPY (R176). -/
def modeTile : Nat := 0
def modeStore : Nat := 1
def modeWin : Nat := 2
def modeGather : Nat := 3
def modePf : Nat := 4

/-- The fields of a copy: `op` the mode, `bank` the transpose, `t5` EXP24; `args` five coordinates and the offset. -/
def Cmd.coord (c : Cmd) (k : Nat) : Int := (nth 0 c.args k).toInt
/-- The scratch offset of a copy. -/
def Cmd.off (c : Cmd) : Nat := (nth 0 c.args 5).toNat
/-- Bytes of an element. -/
def Cmd.size (c : Cmd) : Nat := fmtBytes (Desc.fmt c.desc)

/-- Scratch rows of a copy (R177 to R180). -/
def Cmd.rows (c : Cmd) : Nat :=
  let d := c.desc
  if c.op = modeWin || c.op = modeGather then Desc.box d 1
  else if c.bank ≠ 0 then Desc.box d 0
  else Desc.box d 1 * Desc.box d 2 * Desc.box d 3 * Desc.box d 4

/-- Row bytes of a copy. -/
def Cmd.rowBytes (c : Cmd) : Nat :=
  let d := c.desc
  if c.op = modeWin then Desc.tapx d * Desc.tapy d * Desc.box d 0 * c.size
  else if c.bank ≠ 0 then Desc.box d 1 * c.size
  else rowBytesOf (Desc.fmt d) (Desc.box d 0)

/-- The row pitch (R176). -/
def Cmd.pitch (c : Cmd) : Nat := if Desc.spitch c.desc = 0 then roundUp 16 c.rowBytes else Desc.spitch c.desc

/-- The footprint in bytes (R176). -/
def Cmd.footprint (c : Cmd) : Nat := c.rows * c.pitch

/-- Where chunk rotation puts a byte's column (R180). -/
def rotated (skew row col : Nat) : Nat :=
  if skew = 0 then col
  else
    let sp := 32 * 2 ^ skew
    let n := sp / 16
    sp * (col / sp) + 16 * ((col % sp / 16 + row) % n) + col % 16

/-- The column whose byte chunk rotation puts at a place of a row. -/
def unrotated (skew row pos : Nat) : Nat :=
  if skew = 0 then pos
  else
    let sp := 32 * 2 ^ skew
    let n := sp / 16
    sp * (pos / sp) + 16 * ((pos % sp / 16 + (n - row % n)) % n) + pos % 16

/-- The box indices b1 … b4 of a scratch row (R177). -/
def Cmd.digit (c : Cmd) (row k : Nat) : Nat :=
  let d := c.desc
  if k = 1 then row % Desc.box d 1
  else if k = 2 then row / Desc.box d 1 % Desc.box d 2
  else if k = 3 then row / (Desc.box d 1 * Desc.box d 2) % Desc.box d 3
  else row / (Desc.box d 1 * Desc.box d 2 * Desc.box d 3)

/-- The coordinates of dims 1–4 of a row of a tile. -/
def Cmd.upper (c : Cmd) (row : Nat) : List Int :=
  [c.coord 1 + c.digit row 1, c.coord 2 + c.digit row 2, c.coord 3 + c.digit row 3, c.coord 4 + c.digit row 4]

/-- A coordinate of dim k lies in the tensor. -/
def Desc.inDim (d : Desc) (k : Nat) (x : Int) : Bool := decide (0 ≤ x) && decide (x < Desc.dim d k)

/-- The coordinates of dims 1–4 lie in the tensor. -/
def Desc.rowIn (d : Desc) (xs : List Int) : Bool := (List.range 4).all (fun j => Desc.inDim d (j + 1) (nth 0 xs j))

/-- The address of a tensor row. -/
def Desc.rowAddr (d : Desc) (xs : List Int) : Int :=
  (List.range 4).foldl (fun a j => a + nth 0 xs j * Desc.stride d (j + 1)) (Desc.base d : Int)

/-- An address mod 2^64. -/
def vaOfInt (a : Int) : Nat := (a % (2 ^ 64 : Nat)).toNat

/-! ### Reading one byte of a load -/

/-- A byte that a load copy places: its value, poison, and a fault with its element index. -/
structure CopyByte where
  val : Nat
  bad : Bool
  fault : Option (Nat × Nat)
  /-- The virtual addresses it read, and the versions it saw there, as pins. -/
  used : List Nat
  seen : Floors
  deriving DecidableEq, Repr

/-- Byte `o` of the FILL element; FILL holds no more than four bytes. -/
def State.fillByte (s : State) (c : Cmd) (o : Nat) : Nat :=
  if o < 4 then bits (Desc.fill c.desc) (8 * o) 8 else bits (Config.freeWord s.fresh).toNat (8 * (o - 4)) 8

/-- A byte of FILL. -/
def State.filled (s : State) (c : Cmd) (o : Nat) : CopyByte := ⟨s.fillByte c o, false, none, [], []⟩

/-- Byte `o` of the element of `n` bytes at an address, of a given index. -/
def State.gotByte (s : State) (c : Cmd) (idx : Nat) (a : Int) (n o : Nat) : CopyByte :=
  let va := vaOfInt a
  let g := s.cmdRead c (Segs.covers c.seg (Desc.space c.desc) va n) va n
  ⟨bits g.val (8 * o) 8, g.bad, g.fault.map (fun f => (f, idx)), [va], g.seen⟩

/-- Byte `o` of the element (x0, xs) of dims that may lie outside (R177). -/
def State.elemByte (s : State) (c : Cmd) (idx : Nat) (x0 : Int) (xs : List Int) (o : Nat) : CopyByte :=
  let d := c.desc
  if Desc.inDim d 0 x0 && Desc.rowIn d xs then s.gotByte c idx (Desc.rowAddr d xs + x0 * c.size) c.size o
  else s.filled c o

/-- The first `n` digits of a trit byte, the others 0; a byte of no trits stays (R68, R69). -/
def tritDigits (x n : Nat) : Nat := if x < 243 then x % 3 ^ n else x

/-- A byte of packed S4 pairs or of trits: byte `col` of a row; the digits past the tensor's last trit are 0 (R69, R177, R201). -/
def State.packedByte (s : State) (c : Cmd) (idx : Nat) (xs : List Int) (per col : Nat) : CopyByte :=
  let d := c.desc
  let x0 := c.coord 0 + per * col
  if !(Desc.inDim d 0 x0 && Desc.rowIn d xs) then
    ⟨if per = 2 then bits (Desc.fill d) 0 4 * 17 else bits (Desc.fill d) 0 8, false, none, [], []⟩
  else
    let b := s.gotByte c idx (Desc.rowAddr d xs + x0 / per) 1 0
    if per = 5 then { b with val := tritDigits b.val (Desc.dim d 0 - x0.toNat) }
    else if !Desc.inDim d 0 (x0 + 1) then { b with val := b.val % 16 + bits (Desc.fill d) 0 4 * 16 } else b

/-- Byte `col` of a row of a tile, before transposition (R177). -/
def State.tileByte (s : State) (c : Cmd) (xs : List Int) (row col : Nat) : CopyByte :=
  let d := c.desc
  let f := Desc.fmt d
  let idx := fun b0 => b0 + Desc.box d 0 * row
  if f = fmtS4 then s.packedByte c (idx (2 * col)) xs 2 col
  else if f = fmtTrit then s.packedByte c (idx (5 * col)) xs 5 col
  else s.elemByte c (idx (col / c.size)) (c.coord 0 + (col / c.size : Nat)) xs (col % c.size)

/-- A byte of a row of a 2:4 compressed tensor expanded (R181). -/
def State.expandByte (s : State) (c : Cmd) (xs : List Int) (row col : Nat) : CopyByte :=
  let d := c.desc
  let b0 := col / c.size
  let idx := b0 + Desc.box d 0 * row
  let x0 := c.coord 0 + b0
  if !(Desc.inDim d 0 x0 && Desc.rowIn d xs) then s.filled c (col % c.size)
  else
    let x := x0.toNat
    let grp := x / 4
    let r := ((nth 0 xs 0) + Desc.dim d 1 * (nth 0 xs 1 + Desc.dim d 2 * (nth 0 xs 2 + Desc.dim d 3 * nth 0 xs 3))).toNat
    let mva := vaOfInt ((Desc.mbase d : Int) + (r * Desc.dim d 0 / 8 + grp / 2 : Nat))
    let m := s.cmdRead c (Segs.covers c.seg (Desc.space d) mva 1) mva 1
    let nib := bits m.val (4 * (grp % 2)) 4
    let j := x % 4
    match m.fault with
    | some f => ⟨0, false, some (f, idx), [mva], []⟩
    | none =>
      let which := if bits nib 2 2 = j then some 1 else if bits nib 0 2 = j then some 0 else none
      match which with
      | none => ⟨0, m.bad, none, [mva], m.seen⟩
      | some v =>
        let b := s.gotByte c idx (Desc.rowAddr d xs + ((2 * grp + v) * c.size : Nat)) c.size (col % c.size)
        { b with bad := b.bad || m.bad, used := mva :: b.used, seen := Floors.join m.seen b.seen }

/-- A byte of a convolution window (R178).  Dim 4 of a slot of rank 5 has the coordinate 0 (log entry 72). -/
def State.windowByte (s : State) (c : Cmd) (row col : Nat) : CopyByte :=
  let d := c.desc
  let e := col / c.size
  let t := e / Desc.box d 0
  let b := e % Desc.box d 0
  let tx := t % Desc.tapx d
  let ty := t / Desc.tapx d
  let xi := (c.coord 1 + row) * Desc.wstr d 1 - Desc.pad d 1 + (tx * Desc.dil d 1 : Nat)
  let yi := c.coord 2 * Desc.wstr d 2 - Desc.pad d 2 + (ty * Desc.dil d 2 : Nat)
  s.elemByte c (e + Desc.tapx d * Desc.tapy d * Desc.box d 0 * row) (c.coord 0 + b) [xi, yi, c.coord 3, 0] (col % c.size)

/-- The list entry at a position, for a descriptor of KIND 1 (R179). -/
def State.listEntry (s : State) (c : Cmd) (d : Desc) (pos : Int) : ListEntry :=
  if !Desc.inDim d 0 pos then .outside
  else if Desc.space d = 2 then
    let o := Desc.base d % 2 ^ 32 + 4 * pos.toNat
    let t := s.team c.team
    if c.seg.sl.toNat < o + 4 then .fails 4
    else if t.bad (o / 4) then .fails 0x0A
    else .entry (t.word (o / 4)).toNat
  else
    let va := vaOfInt ((Desc.base d : Int) + 4 * pos)
    let g := s.cmdRead c (Segs.covers c.seg (Desc.space d) va 4) va 4
    match g.fault with
    | some f => .fails f
    | none => if g.bad then .fails 0x0A else .entry g.val

/-- The walker's marks of a list entry's read (R354, R355). -/
def State.listTouch (s : State) (c : Cmd) (d : Desc) (pos : Int) : State :=
  if Desc.inDim d 0 pos && Desc.space d != 2 then s.engineTouch c.space (vaOfInt ((Desc.base d : Int) + 4 * pos)) .read else s

/-- The list entry of a gather's row, which is read once for the row (R179). -/
def State.rowEntry (s : State) (c : Cmd) (row : Nat) : ListEntry :=
  (ffind c.entries row).getD (s.listEntry c c.desc2 (c.coord 1 + row))

/-- Scratchpad words that the list entries of a command's rows lie in, for a list in the scratchpad. -/
def listWords (d : Desc) (pos : Int) : List Nat :=
  if Desc.space d = 2 && Desc.inDim d 0 pos then [(Desc.base d % 2 ^ 32 + 4 * pos.toNat) / 4] else []

/-- A byte of a gathered row (R179). -/
def State.gatherByte (s : State) (c : Cmd) (row col : Nat) : CopyByte :=
  let d := c.desc
  match s.rowEntry c row with
  | .fails f => ⟨0, false, some (f, Desc.box d 0 * row), [], []⟩
  | .outside => s.tileByte c [-1, 0, 0, 0] row col
  | .entry e => s.tileByte c [if e = 0xFFFFFFFF then -1 else (e : Int), c.coord 2, c.coord 3, c.coord 4] row col

/-- A byte of a tensor row of a tile load, expanded or not. -/
def State.rowByte (s : State) (c : Cmd) (row col : Nat) : CopyByte :=
  if c.t5 then s.expandByte c (c.upper row) row col else s.tileByte c (c.upper row) row col

/-- A gather writes nothing in a row whose list entry fails (R179). -/
def State.rowFails (s : State) (c : Cmd) (row : Nat) : Option Nat :=
  if c.op = modeGather then (match s.rowEntry c row with
    | .fails f => some f
    | .outside => none
    | .entry _ => none)
  else none

/-- The byte that a load places at column `col` of a scratch row, before chunk rotation; with transposition it is that of the element
whose box indices are exchanged (R177 to R181). -/
def State.loadByte (s : State) (c : Cmd) (row col : Nat) : CopyByte :=
  match s.rowFails c row with
  | some f => ⟨0, false, some (f, Desc.box c.desc 0 * row), [], []⟩
  | none =>
    if c.rowBytes ≤ col then ⟨0, false, none, [], []⟩
    else if c.op = modeWin then s.windowByte c row col
    else if c.op = modeGather then s.gatherByte c row col
    else if c.bank ≠ 0 then s.rowByte c (col / c.size) (row * c.size + col % c.size)
    else s.rowByte c row col

/-! ### Doing one piece of a copy -/

/-- The first part of a gather's row reads the row's list entry (R179). -/
def State.readEntry (s : State) (c : Cmd) (row : Nat) : State × Cmd :=
  if c.op ≠ modeGather || (ffind c.entries row).isSome then (s, c)
  else
    let pos := c.coord 1 + row
    let l := s.landWords c.group 0 false (listWords c.desc2 pos)
    ((l.listTouch c c.desc2 pos).spent, { c with entries := fins c.entries row (l.listEntry c c.desc2 pos) })

/-- Bytes that one scratch row's columns reach over: its spans may pass the pitch (R180). -/
def Cmd.reach (c : Cmd) : Nat :=
  max c.pitch (if Desc.skew c.desc = 0 then c.rowBytes else roundUp (32 * 2 ^ Desc.skew c.desc) c.rowBytes)

/-- Bytes from the offset of a load that its rows reach over. -/
def Cmd.extent (c : Cmd) : Nat := if c.rows = 0 then 0 else (c.rows - 1) * c.pitch + c.reach

/-- The rows and columns that lie at a byte of the extent under R180's mapping, pad bytes among them: one where the pitch is a multiple of
the span and holds the row. -/
def Cmd.sources (c : Cmd) (p : Nat) : List (Nat × Nat) :=
  (List.range (c.reach / c.pitch + 1)).filterMap (fun k =>
    let row := p / c.pitch - k
    let col := unrotated (Desc.skew c.desc) row (p - row * c.pitch)
    if k ≤ p / c.pitch && row < c.rows && p - row * c.pitch < c.reach && col < max c.rowBytes c.pitch then some (row, col) else none)

/-- The byte that a load places at a byte of its extent, if any: where several rows meet there, freely of one of them (DESIGN CHOICE, log
entry 21). -/
def State.placedByte (s : State) (c : Cmd) (p : Nat) : Option CopyByte :=
  match c.sources p with
  | [] => none
  | r :: rs =>
    let q := nth r (r :: rs) (s.choice % (rs.length + 1))
    some (s.loadByte c q.1 q.2)

/-- What a load writes to a word, from its four bytes: those that are placed and whose elements do not fault. -/
def placedMask (bs : List (Option CopyByte)) : BitVec 4 :=
  BitVec.ofNat 4 ((mapFrom (fun j (b : Option CopyByte) => if b.any (fun x => x.fault.isNone) then 2 ^ j else 0) 0 bs).foldl (· + ·) 0)

/-- One word of a load's extent is written: as an engine's word, with its bytes and its mark (R182 to R184, R194). -/
def State.placeWord (s : State) (c : Cmd) (w : Nat) (bs : List (Option CopyByte)) : State :=
  if placedMask bs = 0 then s
  else s.fogWord c 1 w (placedMask bs)
    (BitVec.ofNat 32 ((mapFrom (fun j (b : Option CopyByte) => ((b.map CopyByte.val).getD 0) * 2 ^ (8 * j)) 0 bs).foldl (· + ·) 0))
    (bs.any (fun b => b.any (fun x => x.bad && x.fault.isNone))) (Desc.tagf c.desc)

/-- Place one 8-byte part of a load's extent, all of it but the bytes of elements that fault (R182 to R184).  The copy sees one value of each
8-byte part of global memory, and its own part is one write to the other paths (R194). -/
def State.loadPiece (s : State) (c : Cmd) (u : Nat) : State × Cmd :=
  let ps := (List.range 8).map (8 * u + ·)
  let w := (c.off + 8 * u) / 4
  let (l, c0) := (distinct ((ps.flatMap c.sources).map Prod.fst)).foldl (fun x row => x.1.readEntry x.2 row) (s, c)
  let s0 := l.landWords c.group 1 false [w, w + 1]
  let bs := ps.map (s0.placedByte c0)
  let got := bs.filterMap id
  let s1 := (got.flatMap CopyByte.used).foldl (fun t va => t.engineTouch c.space va .read) s0
  let c1 := got.foldl (fun c b => match b.fault with
    | none => { c with pins := Floors.join c.pins b.seen }
    | some (f, i) => c.note f i) c0
  (((s1.placeWord c w (bs.take 4)).placeWord c (w + 1) (bs.drop 4)).spent, { c1 with done := c.done + 1 })

/-- Pieces of a row of a store: elements, or bytes of packed elements. -/
def Cmd.pieces (c : Cmd) : Nat :=
  let d := c.desc
  if Desc.fmt d = fmtS4 || Desc.fmt d = fmtTrit then rowBytesOf (Desc.fmt d) (Desc.box d 0) else Desc.box d 0

/-- The scratch offset of a byte of a store's source. -/
def Cmd.srcByte (c : Cmd) (row col : Nat) : Nat := c.off + row * c.pitch + rotated (Desc.skew c.desc) row col

/-- Trits, S4 elements or elements that a piece of a store holds. -/
def Cmd.per (c : Cmd) : Nat :=
  if Desc.fmt c.desc = fmtS4 then 2 else if Desc.fmt c.desc = fmtTrit then 5 else 1

/-- The dim-0 coordinate of a piece of a store. -/
def Cmd.pieceX (c : Cmd) (u : Nat) : Int := c.coord 0 + (u % c.pieces * c.per : Nat)

/-- The address of a piece of a store. -/
def Cmd.pieceVa (c : Cmd) (u : Nat) : Nat :=
  vaOfInt (Desc.rowAddr c.desc (c.upper (u / c.pieces)) + (if c.per = 1 then c.pieceX u * c.size else c.pieceX u / c.per))

/-- The scratch offsets of a piece of a store (R180). -/
def Cmd.pieceOffs (c : Cmd) (u : Nat) : List Nat :=
  let q := u % c.pieces
  let row := u / c.pieces
  (List.range c.size).map (fun o => if c.bank ≠ 0 then c.srcByte q (row * c.size + o) else c.srcByte row (q * c.size + o))

/-- What a piece of a store comes to: its fault and index, or the cells it writes and whether they are poisoned. -/
structure Piece where
  fault : Option (Nat × Nat)
  leaf : Option Leaf
  cells : List Host.Cell
  bad : Bool
  deriving DecidableEq, Repr

/-- A scratchpad word as a store has read it. -/
def Cmd.word (c : Cmd) (w : Nat) : Word × Bool := (ffind c.held w).getD (0, false)

/-- One element, or one byte of packed elements, of a box that a store writes (R177, R180, R184); the digits past a tensor's last trit
are 0 (R69). -/
def State.piece (s : State) (c : Cmd) (u : Nat) : Piece :=
  let d := c.desc
  let row := u / c.pieces
  let x0 := c.pieceX u
  if !(Desc.inDim d 0 x0 && Desc.rowIn d (c.upper row)) then ⟨none, none, [], false⟩
  else
    let va := c.pieceVa u
    match s.engineAt c.space (Segs.covers c.seg (Desc.space d) va c.size) va .write with
    | .error f => ⟨some (f, u % c.pieces * c.per + Desc.box d 0 * row), none, [], false⟩
    | .ok (l, key) =>
      let offs := c.pieceOffs u
      let x := (mapFrom (fun j o => bits (c.word (o / 4)).1.toNat (8 * (o % 4)) 8 * 2 ^ (8 * j)) 0 offs).foldl (· + ·) 0
      let y := if c.per = 5 then tritDigits x (Desc.dim d 0 - x0.toNat)
        else if c.per = 2 && !Desc.inDim d 0 (x0 + 1) then x % 16 + s.natAt key 1 / 16 * 16 else x
      ⟨none, some l, cellsOf key y c.size, offs.any (fun o => (c.word (o / 4)).2)⟩

/-- The 8-byte parts of some words that a store has not yet read are read, each at once (R183, R194). -/
def State.holdWords (s : State) (c : Cmd) (ws : List Nat) : State × Cmd :=
  let new := (distinct (ws.flatMap (fun w => [w / 2 * 2, w / 2 * 2 + 1]))).filter (fun w => (ffind c.held w).isNone)
  let s0 := (s.landWords c.group 1 false new).spent
  let t := s0.team c.team
  (s0, { c with held := new.foldl (fun h w => fins h w (t.word w, t.bad w)) c.held })

/-- The pieces from one on that lie in its row and in its 8-byte part of memory, which are written together (R194). -/
def Cmd.together (c : Cmd) (u : Nat) : List Nat :=
  ((List.range 8).map (u + ·)).takeWhile (fun v => v == u || (v / c.pieces == u / c.pieces && c.pieceVa v / 8 == c.pieceVa u / 8))

/-- Store the pieces of a box that lie in one part (R177, R180, R183, R184). -/
def State.storePiece (s : State) (c : Cmd) (u : Nat) : State × Cmd :=
  let us := c.together u
  let (s0, c0) := s.holdWords c (distinct (us.flatMap (fun v => (c.pieceOffs v).map (· / 4))))
  let ps := us.map (s0.piece c0)
  let c1 := ps.foldl (fun c p => match p.fault with
    | none => c
    | some (f, i) => c.note f i) { c0 with done := u + us.length }
  let s1 := if ps.any (fun p => p.fault.isSome) then s0.engineTouch c.space (c.pieceVa u) .write else s0
  match ps.findSome? Piece.leaf with
  | none => (s1, c1)
  | some l => s1.cmdCells c1 l (ps.flatMap Piece.cells) (ps.flatMap (fun p => if p.bad then p.cells.map Prod.fst else []))

/-- The pieces of a copy (R177): 8-byte parts of a load, elements of a store, none of a prefetch. -/
def Cmd.work (c : Cmd) : Nat :=
  if c.op = modePf then 0
  else if c.op = modeStore then
    c.pieces * (Desc.box c.desc 1 * Desc.box c.desc 2 * Desc.box c.desc 3 * Desc.box c.desc 4)
  else (c.extent + 7) / 8

/-- The addresses of the list entries in global memory that a gather has still to read for some rows (R179). -/
def Cmd.unread (c : Cmd) (rows : List Nat) : List Nat :=
  if c.op ≠ modeGather || Desc.space c.desc2 = 2 then []
  else (rows.filter (fun r => (ffind c.entries r).isNone && Desc.inDim c.desc2 0 (c.coord 1 + r))).map (fun r =>
    vaOfInt ((Desc.base c.desc2 : Int) + 4 * (c.coord 1 + r)))

/-- The packets of a copy's next piece find their ways open (R322, R327). -/
def State.copyOpen (s : State) (c : Cmd) : Bool :=
  let ps := (List.range 8).map (8 * c.done + ·)
  (if c.op = modeStore then [c.pieceVa c.done]
    else c.unread (distinct ((ps.flatMap c.sources).map Prod.fst))
      ++ (ps.filterMap (s.placedByte c)).flatMap CopyByte.used).all (s.cmdOpen c .copy)

/-- The next `n` pieces of a copy, as far as the network lets it. -/
def State.copySteps (s : State) (c : Cmd) : Nat → State × Cmd
  | 0 => (s, c)
  | n + 1 =>
    if c.work ≤ c.done || !s.copyOpen c then (s, c)
    else
      let (t, d) := if c.op = modeStore then s.storePiece c c.done else s.loadPiece c c.done
      t.copySteps d n

/-- The words of a copy's footprint. -/
def Cmd.words (c : Cmd) : List Nat := (List.range (c.footprint / 4)).map (fun u => c.off / 4 + u)

/-- The tag changes of a copy that met no fault: all of them together, after its data and in the step that writes its token (R182; log
entry 73). -/
def State.copyTags (s : State) (c : Cmd) : State :=
  if !Desc.tagf c.desc || c.fault.isSome || c.op = modePf then s
  else c.words.foldl (fun t w => t.tagWord c.team w (c.op != modeStore)) s

/-- Replace a command of a core's copy engine. -/
def State.setCopy (s : State) (core : Nat) (c : Cmd) : State :=
  let x := s.core core
  s.setCore core { x with copies := x.copies.map (fun d => if d.id = c.id then c else d) }

/-- The copy engine goes on with a command: some of its pieces, freely chosen; after the last, its tags change and its
token is written (R182, R185, R186). -/
def State.copyAdvance (s : State) (core : Nat) (c : Cmd) : State :=
  let left := c.work - c.done
  let n := if left = 0 then 0 else 1 + s.choice % left
  let (t, d) := s.spent.copySteps c n
  if d.work ≤ d.done then
    let x := t.core core
    ((t.setCore core { x with copies := x.copies.filter (fun e => e.id != d.id) }).copyTags d).finish d 1
  else t.setCopy core d

/-! ### TCOPY -/

/-- Commands the copy engine holds (R185). -/
def copyCapacity : Nat := 32

/-- The forms a mode demands of its slot (reason 4 of R175; R177 to R181). -/
def copyForm (mode xpose : Nat) (exp24 : Bool) (s : State) (cs : Nat) (d : Desc) : Bool :=
  let f := Desc.fmt d
  let c0 := (s.rs cs).toInt
  let flat := Desc.box d 2 == 1 && Desc.box d 3 == 1 && Desc.box d 4 == 1
  let per := if f = fmtTrit then 5 else if f = fmtS4 then 2 else 1
  let packed := f == fmtTrit || f == fmtS4
  (mode != modeStore || Desc.space d == 0)
    && (mode != modeWin || (decide (3 ≤ Desc.rank d) && !packed && decide (fmtBytes f ≤ 4) && flat))
    && (mode != modeGather || (decide (2 ≤ Desc.rank d) && flat))
    && decide (c0 % per = 0) && (f != fmtTrit || Desc.box d 0 % 5 == 0)
    && (xpose == 0 || ((mode == modeTile || mode == modeStore) && fmtBytes f == xpose && flat && !packed))
    && (!exp24 || (mode == modeTile && Desc.sp24 d && decide (c0 % 8 = 0) && Desc.box d 0 % 8 == 0))
    && (!Desc.sp24 d || exp24 || mode == modePf)

/-- Coordinate scalars of a slot's rank, as far as the file goes. -/
def State.coordRun (s : State) (slot cs : Nat) : List (Nat × Nat) :=
  match s.myTeam.slot slot with
  | none => []
  | some d => [(cs, min (Desc.rank d) (128 - cs))]

/-- A copy as issued. -/
def State.copyCmd (s : State) (mode xpose : Nat) (exp24 : Bool) (tid cs off tok gtid : Nat) : Cmd :=
  let d := s.descOf tid
  let args := (List.range 5).map (fun k => if k < Desc.rank d then s.rs (cs + k) else 0) ++ [if mode = modePf then 0 else s.rs off]
  { s.command 1 (BitVec.ofNat 7 tok) mode args d (s.descOf gtid) with bank := xpose, t5 := exp24 }

/-- The checks of a TCOPY: its slots, ALIGN, then SEGMENT (R176). -/
def copyCheck (mode xpose : Nat) (exp24 : Bool) (tid cs off gtid : Nat) (s : State) : Option Cause :=
  let c := s.copyCmd mode xpose exp24 tid cs off 127 gtid
  let o := s.rs off
  firstSome [
    s.slotCause (⟨tid, mode != modeStore, mode == modeStore, [0], copyForm mode xpose exp24 s cs, fun d => cs + Desc.rank d⟩ ::
      (if mode = modeGather then [⟨gtid, true, false, [1], fun _ => true, fun _ => 0⟩] else [])),
    if mode ≠ modePf && o.toNat % 16 ≠ 0 then some (s.cause 0x05 o 0 s.lead) else none,
    if mode ≠ modePf && s.pre.seg.sl.toNat < o.toNat + c.footprint then some (s.cause 0x04 o 0 s.lead) else none]

/-- Start a copy: it enters the core's copy engine (R185). -/
def State.startCopy (c : Cmd) (s : State) : State :=
  let x := s.core s.myTeam.core
  s.setCore s.myTeam.core { x with copies := x.copies ++ [c] }

/-- A TCOPY (R176). -/
def tcopy (mode : Nat) (tid : Tid) (cs off : Reg) (xpose : Xpose) (exp24 : Bool) (tok : Reg) (gtid : Nat) : Meaning :=
  let x := match xpose with
    | .none => 0
    | .x8 => 1
    | .x16 => 2
  bulk (fun s => s.coordRun tid.toNat cs.toNat ++ (if mode = modePf then [] else [(off.toNat, 1)]))
    (copyCheck mode x exp24 tid.toNat cs.toNat off.toNat gtid) tok
    (fun s => decide ((s.coreOf s.unit.g).copies.length < copyCapacity))
    (fun s => s.copyCmd mode x exp24 tid.toNat cs.toNat off.toNat tok.toNat gtid) State.startCopy

/-- TCOPY.tile (R177). -/
def execTcopyTile (tid : Tid) (cs off : Reg) (xpose : Xpose) (exp24 : Bool) (tok : Reg) : Meaning :=
  tcopy modeTile tid cs off xpose exp24 tok 0
/-- TCOPY.store (R177). -/
def execTcopyStore (tid : Tid) (cs off : Reg) (xpose : Xpose) (exp24 : Bool) (tok : Reg) : Meaning :=
  tcopy modeStore tid cs off xpose exp24 tok 0
/-- TCOPY.win (R178). -/
def execTcopyWin (tid : Tid) (cs off : Reg) (xpose : Xpose) (exp24 : Bool) (tok : Reg) : Meaning :=
  tcopy modeWin tid cs off xpose exp24 tok 0
/-- TCOPY.gather (R179). -/
def execTcopyGather (tid : Tid) (cs off : Reg) (xpose : Xpose) (exp24 : Bool) (tok : Reg) (gtid : Tid) : Meaning :=
  tcopy modeGather tid cs off xpose exp24 tok gtid.toNat
/-- TCOPY.pf (R177): no data moves. -/
def execTcopyPf (tid : Tid) (cs : Reg) (xpose : Xpose) (exp24 : Bool) (tok : Reg) : Meaning :=
  tcopy modePf tid cs 127 xpose exp24 tok 0

/-! ### The copy engine's own steps -/

/-- COPY_START: the oldest command that has not started starts (R185). -/
def execCopyStart (core : Nat) : Meaning := fun s =>
  match (s.core core).copies.find? (fun c => !c.started) with
  | none => .next s
  | some c => .next (s.setCopy core { c with started := true })

/-- COPY_COMPLETE: the engine goes on with its n-th command, to its completion or a piece of the way; a command of a
stopped team ends without further effect (R185 to R187). -/
def execCopyComplete (core n : Nat) : Meaning := fun s =>
  match (s.core core).copies[n]? with
  | none => .next s
  | some c =>
    if !c.started then .next s
    else if s.alive c.team then .next (s.copyAdvance core c)
    else .next (s.setCore core { s.core core with copies := (s.core core).copies.filter (fun d => d.id != c.id) })

end Sys2Proof.Machine
end

