-- ==== Sys2Proof/Machine/Queue.lean ====
section
/-!
DEFINITION.  The queue registers, and the requests of the ray unit and the light-tree walker (R188 to R191, R228, R241).
-/

namespace Sys2Proof.Machine

/-- Entries a queue holds (R188). -/
def queueSize : Nat := 4

/-- The entries of a queue register. -/
def Group.queue (g : Group) (q : Nat) : List QEntry := fget [] g.queues q
/-- Replace a queue register. -/
def Group.setQueue (g : Group) (q : Nat) (l : List QEntry) : Group := { g with queues := fset [] g.queues q l }

/-- Append an entry to a queue and wake those that wait on it (R19). -/
def Group.push (now q : Nat) (e : QEntry) (g : Group) : Group := (g.setQueue q (g.queue q ++ [e])).wake now (WaitOn.onQueue q)

/-- The entry that a unit's ACTIVE lanes push from eight registers (R191). -/
def State.entryOf (s : State) (a : Nat) : QEntry :=
  ⟨s.unit.mask, s.acts.foldl (fun m i => (List.range 8).foldl (fun m k => fset 0 m (8 * i + k) (s.rv i (a + k))) m) [], []⟩

/-- The record of a lane in an entry, with its marks. -/
def QEntry.record (e : QEntry) (i : Nat) : List (Word × Bool) :=
  (List.range 8).map (fun k => (fget 0 e.words (8 * i + k), fget false e.poison (8 * i + k)))

/-- An entry of records with their marks, lane by lane (R188, R271). -/
def entryFrom (mask : Lanes) (lanes : List Nat) (rec : Nat → List (Word × Bool)) : QEntry :=
  let ws := lanes.flatMap (fun i => mapFrom (fun k w => (8 * i + k, w)) 0 (rec i))
  ⟨mask, ws.foldl (fun m e => fset 0 m e.1 e.2.1) [], ws.foldl (fun m e => fset false m e.1 e.2.2) []⟩

/-- QUEUE_BINDING (R188). -/
def State.binding (s : State) (q : Nat) : Cause := s.cause 0x0D (BitVec.ofNat 32 q) 0 s.lead

/-- The group's role is system. -/
def State.isSystem (s : State) : Bool := s.me.csr.role == 2

/-- What a queue may be used for (R188). -/
def popOk (sys : Bool) (q : Nat) : Bool := q == 1 || q == 3 || q == 5 || (q == 6 && sys)
def pushOk (sys : Bool) (q : Nat) : Bool := q == 7 && sys
def countOk (sys : Bool) (q : Nat) : Bool := decide (q ≤ 5) || (decide (q ≤ 7) && sys)

/-- The queue's binding does not allow the use (R188); a push to q7 needs an unanswered pop of q6 (R363). -/
def queueCheck (ok : Bool → Nat → Bool) (push : Bool) (q : Nat) (s : State) (_ : Nat) : Option Cause :=
  if !ok s.isSystem q || (push && s.me.asked.isEmpty) then some (s.binding q) else none

/-- All ACTIVE lanes wait on a queue. -/
def State.awaitQueue (s : State) (q : Nat) : State := s.block (s.acts.map (fun i => (i, .queue q)))

/-- QPUSH (R191, R363). -/
def execQpush (q : BitVec 4) (a : Reg) : Meaning :=
  issue ⟨[(a.toNat, 8)], [], [], []⟩ (queueCheck pushOk true q.toNat) 0 (fun s =>
    if queueSize ≤ (s.me.queue q.toNat).length then s.awaitQueue q.toNat
    else s.effect.onMe (fun g => { g.push s.now q.toNat (s.entryOf a.toNat) with asked := g.asked.drop 1 }))

/-- The result queue whose pops answer requests of q0, q2 or q4 (R189). -/
def pairOf (q : Nat) : Nat := q - 1

/-- The effect of a pop: the oldest entry goes to the ACTIVE lanes of its mask (R191). -/
def State.popEntry (s : State) (d q p : Nat) (e : QEntry) : State :=
  let hit := s.acts.filter (fun i => e.mask.getLsbD i)
  let t := s.effect.onMe (fun g =>
    let g1 := (g.setQueue q (g.queue q).tail).wake s.now (WaitOn.onQueue q)
    if q = 6 then { g1 with asked := g1.asked ++ [0] }
    else { g1 with owed := fset 0 g1.owed (pairOf q) (fget 0 g1.owed (pairOf q) - 1) })
  (t.predResult p (fun i => e.mask.getLsbD i)).deliver 0 (hit.flatMap (fun i => markedDests (vkey i d) (e.record i))) 0

/-- What a pop names. -/
def popNeed (d : Reg) : Need := ⟨[], [(d.toNat, 8)], [], []⟩

/-- QPOP (R191). -/
def execQpop (d : Reg) (q : BitVec 4) (p : Pred) : Meaning :=
  issue (popNeed d) (queueCheck popOk false q.toNat) 0 (fun s =>
    match s.me.queue q.toNat with
    | [] => s.awaitQueue q.toNat
    | e :: _ => s.popEntry d.toNat q.toNat p.toNat e)

/-- QTRY (R191). -/
def execQtry (d : Reg) (q : BitVec 4) (p : Pred) : Meaning :=
  issue (popNeed d) (queueCheck popOk false q.toNat) 0 (fun s =>
    match s.me.queue q.toNat with
    | [] => s.predResult p.toNat (fun _ => false)
    | e :: _ => s.popEntry d.toNat q.toNat p.toNat e)

/-- The count that QCNT gives (R191). -/
def Group.countOf (g : Group) (q : Nat) : Nat :=
  if q = 1 || q = 3 || q = 5 || q = 6 then (g.queue q).length
  else if q = 7 then queueSize - (g.queue 7).length
  else queueSize - fget 0 g.owed q

/-- QCNT (R191). -/
def execQcnt (d : Reg) (q : BitVec 4) : Meaning :=
  issue (scalarNeed [] [(d.toNat, 1)]) (queueCheck countOk false q.toNat) 0 (fun s =>
    s.putS d.toNat (BitVec.ofNat 32 (s.me.countOf q.toNat)))

/-! ### Requests -/

/-- Push a request to q0, q2 or q4: it waits while four of its pair are outstanding (R189, R228). -/
def request (kind q : Nat) (rc : Bool) (tid : Tid) (a : Reg) (mask flags tag : Nat) : Meaning :=
  issue ⟨[(a.toNat, 8)], [], [], []⟩
    (fun s i => if i = s.lead then s.slotCause [⟨tid.toNat, true, false, [kind], fun _ => true, fun _ => 0⟩] else none) 0 (fun s =>
    if queueSize ≤ fget 0 s.me.owed q then s.awaitQueue (q + 1)
    else s.effect.onMe (fun g => { g with
      owed := fset 0 g.owed q (fget 0 g.owed q + 1)
      rays := g.rays ++ [⟨q, rc, s.descOf tid.toNat, mask, flags, tag, s.entryOf a.toNat, g.seg, (s.coreOf s.unit.g).exact,
        s.pathFloors s.unit.g 3⟩] }))

/-- TRACE (R228). -/
def execTrace (tid : Tid) (a : Reg) (mask : BitVec 8) (flags : BitVec 2) (tag : BitVec 8) : Meaning :=
  request 3 0 false tid a mask.toNat flags.toNat tag.toNat
/-- TRACEV (R228). -/
def execTracev (tid : Tid) (a : Reg) (mask : BitVec 8) (flags : BitVec 2) (tag : BitVec 8) : Meaning :=
  request 3 2 false tid a mask.toNat flags.toNat tag.toNat
/-- TRACERC (R228). -/
def execTracerc (tid : Tid) (a : Reg) (mask : BitVec 8) (flags : BitVec 2) (tag : BitVec 8) : Meaning :=
  request 3 2 true tid a mask.toNat flags.toNat tag.toNat
/-- LTWALK (R241). -/
def execLtwalk (tid : Tid) (a : Reg) (tag : BitVec 8) : Meaning := request 4 4 false tid a 0 0 tag.toNat

/-- The oldest request of a group for a queue, and the others. -/
def takeRequest (q : Nat) : List RayReq → Option (RayReq × List RayReq)
  | [] => none
  | r :: rs => if r.queue = q then some (r, rs) else (takeRequest q rs).map (fun p => (p.1, r :: p.2))

/-- The oldest request of a group for a queue is answered, lane by lane (R189, R231). -/
def State.answer (s : State) (k q : Nat) (f : RayReq → Nat → List Word) : State :=
  match takeRequest q (s.grp k).rays with
  | none => s
  | some (r, rest) =>
    let g := s.grp k
    let e := entryFrom r.entry.mask (lanesOf g.width r.entry.mask) (fun i => (f r i).map (fun w => (w, false)))
    s.setGrp k (({ g with rays := rest }).push (s.cycle (s.dieOf k)) (q + 1) e)

end Sys2Proof.Machine
end

