-- ==== Sys2Proof/Machine/Ray.lean ====
section
/-!
DEFINITION.  The ray unit (R225 to R233).
-/

namespace Sys2Proof.Machine

/-! ### Fetches -/

/-- A line of memory holds a marked sector, or one that was spoilt on its way (R232, R278, R327). -/
def State.lineBad (s : State) (key : Nat) : Bool := (List.range 4).any (fun j => s.tainted (key / 128 * 128 + 32 * j))

/-- How a ray ends before its result is complete: a status and its code (R232), or a number the spec does not carry on
with (an infinite or NaN vertex, matrix or direction), whose result is open. -/
inductive RayEnd where
  | status (st code : Nat)
  | unstated
  deriving DecidableEq, Repr

/-- The end came of an address that was fetched: it lay in its segment. -/
def RayEnd.fetched : RayEnd → Bool
  | .status st code => !(st == 2 && code == 4)
  | .unstated => true

/-- MALFORMED (R232). -/
def malformedEnd : RayEnd := .status 3 0

/-- What a fetch of the RAY path meets (R232): the bytes as a number, each 8-byte part as some write not before its floor left it (R233),
or how the ray ends. -/
def State.rayFetch (s : State) (fl : Floors) (space : Nat) (seg : Segs) (kind va n : Nat) : Except RayEnd Nat :=
  match s.engineAt space (Segs.covers seg kind va n) va .read with
  | .error c => .error (.status 2 c)
  | .ok (_, key) => if s.lineBad key then .error (.status 1 0x0A) else .ok (s.viewNat fl [] n key n)

/-- The device lines of addresses that were fetched. -/
def State.linesAt (s : State) (space : Nat) (vas : List Nat) : List Nat :=
  distinct (vas.filterMap (fun va => match s.access space va .read 0 with
    | .error _ => none
    | .ok l => let key := s.keyOf space l va; if isHost key then none else some (key / 128)))

/-- The sectors of some keys hold an uncorrectable error that no access has met yet. -/
def State.withErrors (s : State) (bad : List Nat) : State :=
  { s with marks := (bad.filter (fun k => !isHost k)).foldl (fun m k => fset false m (k / 32) true) s.marks }

/-- Fetches of lines that held such an error: each line is marked, with one RAS record (R232, R451). -/
def State.meetErrors (s : State) (space : Nat) (vas : List Nat) : State :=
  let ls := s.linesAt space vas
  let met := s.strikes.filter (fun k => ls.contains (k / 128))
  let new := met.filter (fun k => !isHost k && !s.lineBad k)
  (distinct (new.map (· / 128))).foldl (fun t l =>
    t.logRas (keyDie (128 * l)) 5 false (sliceOn (128 * l)) (128 * l % 2 ^ 37))
    { s.withErrors new with strikes := s.strikes.filter (fun k => !met.contains k) }

/-! ### Nodes -/

/-- A word of a fetched node. -/
def nodeWord (x i : Nat) : Word := BitVec.ofNat 32 (bits x (32 * i) 32)
/-- A byte of a fetched node. -/
def nodeByte (x i : Nat) : Nat := bits x (8 * i) 8

/-- The reserved fields of an internal node are 0, and CBASE is aligned (R225). -/
def nodeOk (x : Nat) : Bool :=
  nodeByte x 0x0F == 0 && bits x (8 * 0x1A) 48 == 0 && bits x (8 * 0x60) 256 == 0 && bits x (8 * 0x10) 64 % 64 == 0

/-- Child j of an internal node (R225): its type, its address, its mask. -/
def childType (x j : Nat) : Nat := bits x (8 * 0x18 + 2 * j) 2
def childAddr (x j : Nat) : Nat := (bits x (8 * 0x10) 64 + 64 * nodeByte x (0x20 + j)) % 2 ^ 64
def childMask (x j : Nat) : Nat := nodeByte x (0x28 + j)

/-- The bounds of child j along an axis: lo and hi (R225). -/
def childBounds (x j axis : Nat) : Option (Frac × Frac) :=
  (val32 (nodeWord x axis)).frac.map (fun o =>
    let e := sext (nodeByte x (0x0C + axis)) 8
    let at_ := fun b => o.add (Frac.dyadic false (nodeByte x b) e)
    (at_ (0x30 + 6 * j + axis), at_ (0x33 + 6 * j + axis)))

/-- A ray in one space: origin and direction, and what the instance above says. -/
structure RayAt where
  o : Vec3
  d : Vec3
  /-- The instance id, and NOCULL and FLIP of the instance. -/
  inst : Nat
  nocull : Bool
  flip : Bool
  /-- Below an instance. -/
  below : Bool
  deriving DecidableEq, Repr

/-- The interval of one axis' slab: none for no t (R229). -/
def slab (o d : Frac) (lo hi : Frac) : Option (Ext × Ext) :=
  if d.isZero then (if lo.le o && o.le hi then some (.ninf, .pinf) else none)
  else
    let a := (lo.sub o).div d
    let b := (hi.sub o).div d
    some (if a.lt b then (.fin a, .fin b) else (.fin b, .fin a))

/-- A child's box has QLO above QHI on some axis, whatever ORIGIN is (R225). -/
def emptyBox (x j : Nat) : Bool := (List.range 3).any (fun a => decide (nodeByte x (0x33 + 6 * j + a) < nodeByte x (0x30 + 6 * j + a)))

/-- The box test of a child: its entry parameter when it is hit on [tmin, tc] (R229); an outer none where a bound is
not finite. -/
def boxHit (x j : Nat) (r : RayAt) (tmin tc : Ext) : Option (Option Ext) :=
  if emptyBox x j then some none else match childBounds x j 0, childBounds x j 1, childBounds x j 2 with
  | some (lx, hx), some (ly, hy), some (lz, hz) =>
    some (match slab r.o.x r.d.x lx hx, slab r.o.y r.d.y ly hy, slab r.o.z r.d.z lz hz with
      | some a, some b, some c =>
        let lo := Ext.max (Ext.max tmin a.1) (Ext.max b.1 c.1)
        let hi := Ext.min (Ext.min tc a.2) (Ext.min b.2 c.2)
        if lo.le hi then some lo else none
      | some _, some _, none => none
      | some _, none, _ => none
      | none, _, _ => none)
  | some _, some _, none => none
  | some _, none, _ => none
  | none, _, _ => none

/-- A hit (R230, R231). -/
structure Hit where
  t : Frac
  u : Frac
  v : Frac
  inst : Nat
  geom : Nat
  prim : Nat
  front : Bool
  deriving DecidableEq, Repr

/-- A hit precedes another by the hit order key (R230). -/
def Hit.before (a b : Hit) : Bool :=
  a.t.lt b.t || (a.t.same b.t && (decide (a.inst < b.inst) || (a.inst == b.inst &&
    (decide (a.geom < b.geom) || (a.geom == b.geom && decide (a.prim < b.prim))))))

/-- The triangle test: t, u, v and whether it is a front face before FLIP (R229). -/
def triangle (r : RayAt) (a b c : Vec3) (tmin tc : Ext) : Option (Frac × Frac × Frac × Bool) :=
  let e1 := b.sub a
  let e2 := c.sub a
  let n := e1.cross e2
  let nd := n.dot r.d
  if n.isZero || nd.isZero then none
  else
    let t := (n.dot (a.sub r.o)).div nd
    let p := (r.o.add (Vec3.scale t r.d)).sub a
    let nn := n.dot n
    let u := ((p.cross e2).dot n).div nn
    let v := ((e1.cross p).dot n).div nn
    if 0 ≤ u.num && 0 ≤ v.num && (u.add v).le (Frac.ofInt 1) && tmin.le (.fin t) && (Ext.fin t).le tc
    then some (t, u, v, decide (nd.num < 0)) else none

/-- The fixed part of a ray: what it is tested against, and the versions its fetches must not precede (R233). -/
structure RayJob where
  floors : Floors
  space : Nat
  seg : Segs
  /-- SPACE of the structure. -/
  kind : Nat
  mask : Nat
  cullb : Bool
  cullf : Bool
  /-- The first hit not culled ends it. -/
  any : Bool
  tmin : Ext
  deriving DecidableEq, Repr

/-- What a traversal has found so far. -/
structure RayRun where
  tc : Ext
  best : Option Hit
  /-- It stopped at an occluder. -/
  stopped : Bool
  ended : Option RayEnd
  /-- Addresses fetched, the one that ended the ray among them. -/
  used : List Nat
  deriving DecidableEq, Repr

/-- Test one triangle of a leaf and take a hit that is not culled (R229, R230). -/
def RayRun.test (j : RayJob) (r : RayAt) (geom : Nat) (nocull : Bool) (prim : Nat) (abc : Option (Vec3 × Vec3 × Vec3))
    (run : RayRun) : RayRun :=
  if run.stopped || run.ended.isSome then run
  else match abc with
  | none => { run with ended := some .unstated }
  | some (a, b, c) =>
    match triangle r a b c j.tmin run.tc with
    | none => run
    | some (t, u, v, front0) =>
      let front := front0 != r.flip
      if !(nocull || r.nocull) && ((front && j.cullf) || (!front && j.cullb)) then run
      else if j.any then { run with stopped := true }
      else
        let h : Hit := ⟨t, u, v, r.inst, geom, prim, front⟩
        match run.best with
        | none => { run with best := some h, tc := .fin t }
        | some b0 => if h.before b0 then { run with best := some h, tc := .fin t } else run

/-- Vertex k of a leaf (R226). -/
def vertex (x k : Nat) : Option Vec3 := vecOf (nodeWord x (3 * k)) (nodeWord x (3 * k + 1)) (nodeWord x (3 * k + 2))

/-- Three vertices of a leaf. -/
def corners (x i j k : Nat) : Option (Vec3 × Vec3 × Vec3) :=
  match vertex x i, vertex x j, vertex x k with
  | some a, some b, some c => some (a, b, c)
  | some _, some _, none => none
  | some _, none, _ => none
  | none, _, _ => none

/-- A leaf: triangle 0, then triangle 1 where it is present (R226, R230). -/
def RayRun.leaf (j : RayJob) (r : RayAt) (x : Nat) (run : RayRun) : RayRun :=
  let g := bits x (32 * 13) 32
  if bits g 26 6 != 0 || bits x (8 * 0x38) 64 != 0 then { run with ended := some malformedEnd }
  else
    let prim := bits x (32 * 12) 32
    let nocull := g.testBit 25
    let run1 := run.test j r (bits g 0 24) nocull prim (corners x 0 1 2)
    if g.testBit 24 then run1.test j r (bits g 0 24) nocull ((prim + 1) % 2 ^ 32) (corners x 2 1 3) else run1

/-- One component of XFORM times a vector, rounded once; the translation is added where `w` holds (R229). -/
def xformRow (x row : Nat) (v : Vec3) (w : Bool) : Option Frac :=
  match vecOf (nodeWord x (4 * row)) (nodeWord x (4 * row + 1)) (nodeWord x (4 * row + 2)), (val32 (nodeWord x (4 * row + 3))).frac with
  | some m, some t => (val32 ((m.dot v).add (if w then t else Frac.ofInt 0)).rne).frac
  | some _, none => none
  | none, _ => none

/-- The ray in object space (R229). -/
def RayAt.enter (r : RayAt) (x : Nat) : Option RayAt :=
  let i := bits x (32 * 14) 32
  match xformRow x 0 r.o true, xformRow x 1 r.o true, xformRow x 2 r.o true with
  | some a, some b, some c =>
    match xformRow x 0 r.d false, xformRow x 1 r.d false, xformRow x 2 r.d false with
    | some d, some e, some f => some ⟨⟨a, b, c⟩, ⟨d, e, f⟩, bits i 0 24, i.testBit 24, i.testBit 25, true⟩
    | some _, some _, none => none
    | some _, none, _ => none
    | none, _, _ => none
  | some _, some _, none => none
  | some _, none, _ => none
  | none, _, _ => none

/-- Insert a child by its entry order key: (te, index) (R230). -/
def insertChild (te : Ext) (c : Nat) : List (Ext × Nat) → List (Ext × Nat)
  | [] => [(te, c)]
  | (u, d) :: l => if te.lt u then (te, c) :: (u, d) :: l else (u, d) :: insertChild te c l

/-- The children of an internal node that are hit, least key first; none where a bound is not finite. -/
def hitChildren (j : RayJob) (r : RayAt) (tc : Ext) (x : Nat) : Option (List (Ext × Nat)) :=
  (List.range 8).foldl (fun acc c => match acc with
    | none => none
    | some l =>
      if childType x c = 0 || Nat.land (childMask x c) j.mask = 0 then some l
      else match boxHit x c r j.tmin tc with
        | none => none
        | some none => some l
        | some (some te) => some (insertChild te c l)) (some [])

/-- The deepest path of internal nodes (R230). -/
def rayDepth : Nat := 64

/-- Visit a node: its type (1 internal, 2 leaf, 3 instance), its address, its entry parameter and the internal nodes above
it on the path (R230).  The stack of R230 is this recursion: a child's whole subtree is visited before its next sibling.  A child at a
misaligned address is MALFORMED only when it is visited (R225), and what makes a node MALFORMED by its place is found before it is fetched
(R230; both DESIGN CHOICE, log entry 90). -/
def State.visit (s : State) (j : RayJob) : Nat → Nat → RayAt → Nat → Ext → Nat → RayRun → RayRun
  | 0, _, _, _, _, _, run => { run with ended := some malformedEnd }
  | fuel + 1, type, r, addr, te, depth, run =>
    if run.stopped || run.ended.isSome || run.tc.lt te then run
    else if type = 1 && rayDepth ≤ depth then { run with ended := some malformedEnd }
    else if (type = 1 && addr % 128 != 0) || (type = 3 && r.below) then { run with ended := some malformedEnd }
    else match s.rayFetch j.floors j.space j.seg j.kind addr (if type = 1 then 128 else 64) with
      | .error e => { run with ended := some e, used := if e.fetched then addr :: run.used else run.used }
      | .ok x =>
        let run := { run with used := addr :: run.used }
        if type = 2 then run.leaf j r x
        else if type = 3 then
          if bits x (32 * 14 + 26) 6 != 0 || bits x (32 * 15) 32 != 0 || bits x (8 * 0x30) 64 % 128 != 0
          then { run with ended := some malformedEnd }
          else match r.enter x with
            | none => { run with ended := some .unstated }
            | some r2 => s.visit j fuel 1 r2 (bits x (8 * 0x30) 64) te depth run
        else if !nodeOk x then { run with ended := some malformedEnd }
        else match hitChildren j r run.tc x with
          | none => { run with ended := some .unstated }
          | some cs => cs.foldl (fun q c => s.visit j fuel (childType x c.2) r (childAddr x c.2) c.1 (depth + 1) q) run

/-! ### Rays and their results -/

/-- The direction of a lane's record (R227). -/
def rayDir (rc : Bool) (w : List Word) : List Word :=
  (List.range 3).map (fun k => if rc then (fsub (nth 0 w (4 + k)) (nth 0 w k)).1 else nth 0 w (4 + k))

/-- The ray of a lane's record, or how it ends at once (R227). -/
def rayOf (rc : Bool) (w : List Word) : Except RayEnd (RayAt × Ext × Ext) :=
  let f := fun k => nth 0 w k
  let d := rayDir rc w
  let zero := d.all (fun x => (val32 x).isZero)
  let badPoint := (List.range 3).any (fun k => (val32 (f k)).isInf || (rc && (val32 (f (4 + k))).isInf))
  if w.any (fun x => (val32 x).isNan) || badPoint || zero || (val32 (f 7)).lt (val32 (f 3)) then .error (.status 4 0)
  else match vecOf (f 0) (f 1) (f 2), vecOf (nth 0 d 0) (nth 0 d 1) (nth 0 d 2), (val32 (f 3)).ext, (val32 (f 7)).ext with
    | some o, some v, some lo, some hi => .ok (⟨o, v, 0xFFFFFFFF, false, false, false⟩, lo, hi)
    | some _, some _, some _, none => .error .unstated
    | some _, some _, none, _ => .error .unstated
    | some _, none, _, _ => .error .unstated
    | none, _, _, _ => .error .unstated

/-- The status word (R231). -/
def statusWord (st tag code : Nat) : Word := BitVec.ofNat 32 (st + tag * 256 + code * 65536)

/-- The squared length of b − a, rounded once (R231). -/
def lengthSq (w : List Word) : Word :=
  match vecOf (nth 0 w 0) (nth 0 w 1) (nth 0 w 2), vecOf (nth 0 w 4) (nth 0 w 5) (nth 0 w 6) with
  | some a, some b => ((b.sub a).dot (b.sub a)).rne
  | some _, none => 0
  | none, _ => 0

/-- The record of TRACEV or TRACERC with a visibility (R231). -/
def shadowRecord (rc : Bool) (v : Word) (tag : Nat) (w : List Word) : List Word :=
  let d := rayDir rc w
  if rc then [v, lengthSq w, nth 0 d 0, nth 0 d 1, nth 0 d 2, 0, 0, statusWord 0 tag 0] else [v, 0, 0, 0, 0, 0, 0, statusWord 0 tag 0]
/-- The record of a miss (R231). -/
def missRecord (tag : Nat) : List Word := [0x7F800000, 0xFFFFFFFF, 0xFFFFFFFF, 0, 0, 0xFFFFFFFF, 0, statusWord 0 tag 0]
/-- The record of a ray that ended early: words 0–6 are 0 (R232). -/
def earlyRecord (st code tag : Nat) : List Word := [0, 0, 0, 0, 0, 0, 0, statusWord st tag code]

/-- The ends that R232's table allows to a ray that has fetched. -/
def earlyEnds : List (Nat × Nat) := [(1, 0x0A), (2, 0x04), (2, 0x06), (2, 0x07), (3, 0)]

/-- The record of a ray whose numbers the spec does not carry on with: one that R231 and R232 allow its instruction, with the words they fix;
the rest is open. -/
def State.openRecord (s : State) (any rc : Bool) (tag i : Nat) (w : List Word) : List Word :=
  let f := fun k => Config.freeWord (512 * s.fresh + 8 * i + k)
  let c := (f 7).toNat
  let e := nth (0, 0) earlyEnds (c / 4 % 5)
  if c % 2 = 1 then earlyRecord e.1 e.2 tag
  else if any then shadowRecord rc (f 0 &&& 1) tag w
  else if c / 2 % 2 = 0 then missRecord tag
  else [f 0, f 1, f 2, f 3, f 4, f 5, if c / 4 % 2 = 0 then 1 else 2, statusWord 0 tag 0]

/-- A result record whose ray ended early (R232). -/
def State.endRecord (s : State) (any rc : Bool) (tag i : Nat) (w : List Word) : RayEnd → List Word
  | .status st code => earlyRecord st code tag
  | .unstated => s.openRecord any rc tag i w

/-- The record of a finished ray (R231). -/
def RayRun.record (run : RayRun) (any rc : Bool) (tag : Nat) (w : List Word) : List Word :=
  if any then shadowRecord rc (if run.stopped then 0 else 1) tag w
  else match run.best with
    | none => missRecord tag
    | some h => [h.t.rne, BitVec.ofNat 32 h.prim, BitVec.ofNat 32 h.inst, h.u.rne, h.v.rne, BitVec.ofNat 32 h.geom,
        if h.front then 1 else 2, statusWord 0 tag 0]

/-- Traverse a structure with a ray (R230). -/
def State.trace (s : State) (j : RayJob) (root : Nat) (r : RayAt) (tmax : Ext) : RayRun :=
  s.visit j 131 1 r root j.tmin 0 ⟨tmax, none, false, none, []⟩

/-- The result record of one ray, and the addresses it fetched; `i` numbers its open values. -/
def State.rayRecord (s : State) (fl : Floors) (space : Nat) (seg : Segs) (desc : Desc) (any rc : Bool) (mask flags tag i : Nat)
    (w : List Word) : List Word × List Nat :=
  match rayOf rc w with
  | .error e => (s.endRecord any rc tag i w e, [])
  | .ok (r, lo, hi) =>
    let j : RayJob := ⟨fl, space, seg, Desc.space desc, mask, flags.testBit 0, flags.testBit 1, any, lo⟩
    let run := s.trace j (Desc.base desc) r hi
    match run.ended with
    | some e => (s.endRecord any rc tag i w e, run.used)
    | none => (run.record any rc tag w, run.used)

/-- The records of a request's lanes as words. -/
def RayReq.words (r : RayReq) (i : Nat) : List Word := (r.entry.record i).map Prod.fst

/-- The state with the counter of free values `n` further on. -/
def State.ahead (s : State) (n : Nat) : State := { s with fresh := s.fresh + n }

/-- The oldest request of a group for a queue is answered by records lane by lane, with the addresses each fetched, once their ways are open
(R322, R327): the walker's marks stand, and lines that held an error no fetch had met are marked (R189, R232, R354). -/
def State.answerWith (s : State) (k q : Nat) (one : State → RayReq → Nat → List Word × List Nat) : State :=
  match takeRequest q (s.grp k).rays with
  | none => s
  | some (r, _) =>
    let x := fun i => one ((s.withErrors s.strikes).ahead i) r i
    let used := distinct ((lanesOf (s.grp k).width r.entry.mask).flatMap (fun i => (x i).2))
    if !used.all (s.fetchOpen k .ray (s.spaceOf k)) then s
    else
      let t := used.foldl (fun t va => t.engineTouch (s.spaceOf k) va .read) (s.meetErrors (s.spaceOf k) used)
      (t.answer k q (fun _ i => (x i).1)).ahead 64

/-- RAY_REQUEST: the ray unit answers the oldest request of a group for q0 or q2 (R189, R230). -/
def execRayRequest (g q : Nat) : Meaning := fun s =>
  .next (if q = 0 || q = 2 then s.answerWith g q (fun t r i =>
    t.rayRecord r.floors (s.spaceOf g) r.seg r.desc (q == 2) r.rc r.mask r.flags r.tag i (r.words i)) else s)

end Sys2Proof.Machine
end

