-- ==== Sys2Proof/Machine/Sha.lean ====
section
/-!
DEFINITION.  SHA-256, which the firmware check, EXTEND and the attestation compute (R441, R444, R445; FIPS 180-4).
-/

namespace Sys2Proof.Machine

/-- The round constants. -/
def shaK : List Word :=
  [0x428a2f98, 0x71374491, 0xb5c0fbcf, 0xe9b5dba5, 0x3956c25b, 0x59f111f1, 0x923f82a4, 0xab1c5ed5] ++
  [0xd807aa98, 0x12835b01, 0x243185be, 0x550c7dc3, 0x72be5d74, 0x80deb1fe, 0x9bdc06a7, 0xc19bf174] ++
  [0xe49b69c1, 0xefbe4786, 0x0fc19dc6, 0x240ca1cc, 0x2de92c6f, 0x4a7484aa, 0x5cb0a9dc, 0x76f988da] ++
  [0x983e5152, 0xa831c66d, 0xb00327c8, 0xbf597fc7, 0xc6e00bf3, 0xd5a79147, 0x06ca6351, 0x14292967] ++
  [0x27b70a85, 0x2e1b2138, 0x4d2c6dfc, 0x53380d13, 0x650a7354, 0x766a0abb, 0x81c2c92e, 0x92722c85] ++
  [0xa2bfe8a1, 0xa81a664b, 0xc24b8b70, 0xc76c51a3, 0xd192e819, 0xd6990624, 0xf40e3585, 0x106aa070] ++
  [0x19a4c116, 0x1e376c08, 0x2748774c, 0x34b0bcb5, 0x391c0cb3, 0x4ed8aa4a, 0x5b9cca4f, 0x682e6ff3] ++
  [0x748f82ee, 0x78a5636f, 0x84c87814, 0x8cc70208, 0x90befffa, 0xa4506ceb, 0xbef9a3f7, 0xc67178f2]

/-- The initial hash value. -/
def shaInit : List Word :=
  [0x6a09e667, 0xbb67ae85, 0x3c6ef372, 0xa54ff53a, 0x510e527f, 0x9b05688c, 0x1f83d9ab, 0x5be0cd19]

def shaS0 (x : Word) : Word := x.rotateRight 2 ^^^ x.rotateRight 13 ^^^ x.rotateRight 22
def shaS1 (x : Word) : Word := x.rotateRight 6 ^^^ x.rotateRight 11 ^^^ x.rotateRight 25
def shaG0 (x : Word) : Word := x.rotateRight 7 ^^^ x.rotateRight 18 ^^^ (x >>> 3)
def shaG1 (x : Word) : Word := x.rotateRight 17 ^^^ x.rotateRight 19 ^^^ (x >>> 10)

/-- The message schedule, `n` further words, newest first. -/
def shaExpand : Nat → List Word → List Word
  | 0, l => l
  | n + 1, l => shaExpand n ((shaG1 (nth 0 l 1) + nth 0 l 6 + shaG0 (nth 0 l 14) + nth 0 l 15) :: l)

/-- One round. -/
def shaRound (h : List Word) (kw : Word × Word) : List Word :=
  let a := nth 0 h 0
  let b := nth 0 h 1
  let c := nth 0 h 2
  let e := nth 0 h 4
  let f := nth 0 h 5
  let g := nth 0 h 6
  let t1 := nth 0 h 7 + shaS1 e + ((e &&& f) ^^^ (~~~e &&& g)) + kw.1 + kw.2
  let t2 := shaS0 a + ((a &&& b) ^^^ (a &&& c) ^^^ (b &&& c))
  [t1 + t2, a, b, c, nth 0 h 3 + t1, e, f, g]

/-- The hash of one block of 16 words added to a hash value. -/
def shaBlock (h : List Word) (m : List Word) : List Word :=
  let w := (shaExpand 48 m.reverse).reverse
  ((shaK.zip w).foldl shaRound h).zipWith (· + ·) h

/-- Big-endian words of bytes. -/
def beWords : List Byte → List Word
  | a :: b :: c :: d :: l =>
    BitVec.ofNat 32 (a.toNat * 16777216 + b.toNat * 65536 + c.toNat * 256 + d.toNat) :: beWords l
  | _ => []

/-- The bytes of a big-endian word. -/
def beBytes (w : Word) : List Byte := [w.extractLsb' 24 8, w.extractLsb' 16 8, w.extractLsb' 8 8, w.extractLsb' 0 8]

/-- A message with its padding: a one bit, zeros, and its length in bits in 8 bytes. -/
def shaPad (m : List Byte) : List Byte :=
  m ++ 0x80 :: (List.replicate ((119 - m.length % 64) % 64) 0
    ++ beBytes (BitVec.ofNat 32 (8 * m.length / 2 ^ 32)) ++ beBytes (BitVec.ofNat 32 (8 * m.length)))

/-- Hash so many blocks of a padded message. -/
def shaBlocks : Nat → List Word → List Byte → List Word
  | 0, h, _ => h
  | n + 1, h, m => shaBlocks n (shaBlock h (beWords (m.take 64))) (m.drop 64)

/-- SHA-256. -/
def sha256 (m : List Byte) : List Byte := (shaBlocks ((shaPad m).length / 64) shaInit (shaPad m)).flatMap beBytes

end Sys2Proof.Machine
end

