-- ==== Sys2Proof/Machine/Ecdsa.lean ====
section
/-!
DEFINITION.  ECDSA over the curve P-256, by which the ROM checks a firmware image and the module signs a report (R441, R444, R445; FIPS
186-4 and SEC 1, which the rules name).
-/

namespace Sys2Proof.Machine

/-- The prime of P-256's field, the order of its group, its coefficient b (a is −3) and its base point. -/
def curveP : Nat := 0xffffffff00000001000000000000000000000000ffffffffffffffffffffffff
def curveN : Nat := 0xffffffff00000000ffffffffffffffffbce6faada7179e84f3b9cac2fc632551
def curveB : Nat := 0x5ac635d8aa3a93e7b3ebbd55769886bc651d06b0cc53b0f63bce3c3e27d2604b
def curveG : Nat × Nat :=
  (0x6b17d1f2e12c4247f8bce6e563a440f277037d812deb33a0f4a13945d898c296,
   0x4fe342e2fe1a7f9b8ee7eb4a7c0f9e162bce33576b315ececbb6406837bf51f5)

/-- A power modulo m of an exponent of at most so many bits. -/
def powMod (m : Nat) : Nat → Nat → Nat → Nat
  | 0, _, _ => 1
  | f + 1, a, e => (if e % 2 = 1 then a else 1) * powMod m f (a * a % m) (e / 2) % m
/-- The inverse modulo a prime of 256 bits. -/
def invMod (m a : Nat) : Nat := powMod m 256 (a % m) (m - 2)

/-- A difference in the field. -/
def fieldSub (a b : Nat) : Nat := (a + (curveP - b % curveP)) % curveP

/-- The third point on a line of a slope through two points, mirrored. -/
def chord (l : Nat) (a b : Nat × Nat) : Nat × Nat :=
  let x := fieldSub (l * l) (a.1 + b.1)
  (x, fieldSub (l * fieldSub a.1 x) a.2)

/-- The sum of two points; none is the point at infinity. -/
def curveAdd : Option (Nat × Nat) → Option (Nat × Nat) → Option (Nat × Nat)
  | none, q => q
  | some a, none => some a
  | some a, some b =>
    if a.1 ≠ b.1 then some (chord (fieldSub b.2 a.2 * invMod curveP (fieldSub b.1 a.1) % curveP) a b)
    else if (a.2 + b.2) % curveP = 0 then none
    else some (chord (fieldSub (3 * a.1 * a.1) 3 * invMod curveP (2 * a.2) % curveP) a b)

/-- A multiple of a point by a number of at most so many bits. -/
def curveMul : Nat → Nat → Option (Nat × Nat) → Option (Nat × Nat)
  | 0, _, _ => none
  | f + 1, k, q => curveAdd (if k % 2 = 1 then q else none) (curveMul f (k / 2) (curveAdd q q))

/-- A point lies on the curve. -/
def onCurve (q : Nat × Nat) : Bool :=
  decide (q.1 < curveP) && decide (q.2 < curveP) && (q.2 * q.2 + 3 * q.1) % curveP == (q.1 * q.1 * q.1 + curveB) % curveP

/-- The number of a big-endian byte string, and the 32 bytes of one. -/
def beNat (l : List Byte) : Nat := l.foldl (fun n b => 256 * n + b.toNat) 0
def be32 (x : Nat) : List Byte := (List.range 32).map (fun j => BitVec.ofNat 8 (x / 256 ^ (31 - j)))

/-- A point of two coordinates of 32 bytes, or a signature's r and s. -/
def bePair (l : List Byte) : Nat × Nat := (beNat (l.take 32), beNat ((l.drop 32).take 32))

/-- A signature of a message's SHA-256 digest verifies under a public key. -/
def ecdsaVerifies (key msg sig : List Byte) : Bool :=
  let q := bePair key
  let r := (bePair sig).1
  let w := invMod curveN (bePair sig).2
  let at_ := curveAdd (curveMul 256 (beNat (sha256 msg) * w % curveN) (some curveG)) (curveMul 256 (r * w % curveN) (some q))
  onCurve q && decide (0 < r) && decide (r < curveN) && decide (0 < (bePair sig).2) && decide ((bePair sig).2 < curveN)
    && at_.any (fun p => p.1 % curveN == r)

/-- The signature of a message under a private key with a nonce, as r and s of 32 bytes; none where r or s is 0. -/
def ecdsaWith (d : Nat) (msg : List Byte) (k : Nat) : Option (List Byte) :=
  match curveMul 256 k (some curveG) with
  | none => none
  | some p =>
    let r := p.1 % curveN
    let x := invMod curveN k * (beNat (sha256 msg) + r * d) % curveN
    if r = 0 || x = 0 then none else some (be32 r ++ be32 x)

/-- A signature under a private key: of a free nonce, or of one of those after it where that gives none. -/
def ecdsaSign (d : Nat) (msg : List Byte) (nonce : Nat) : List Byte :=
  ((List.range 8).findSome? (fun j => ecdsaWith d msg ((nonce + j) % (curveN - 1) + 1))).getD []

end Sys2Proof.Machine
end

