-- ==== Sys2Proof/Machine/Narrow.lean ====
section
/-!
DEFINITION.  Narrow conversions, block scales, dot products and TERN (R81, R113 to R121).
-/

namespace Sys2Proof.Machine

/-- emax of R81; E8M0 has none and reads 0. -/
def QFmt.emax : QFmt → Int
  | .f16 => 15 | .bf16 => 127 | .e4m3 => 8 | .e5m2 => 15 | .s8 => 6 | .n8 => 7 | .s4 => 2 | .e8m0 => 0 | .t5 => 6

/-- The value of an E8M0 byte (R67). -/
def e8m0Value (b : Nat) : FNum := if b = 255 then .nan else .fin false 1 ((b : Int) - 127)

/-- Rounding to E8M0 (R116). -/
def e8m0Round (mode : RMode) (w : Nat) (sat : Bool) (x : FNum) : Nat × Flags :=
  match x with
  | .nan => (255, 0)
  | .inf _ => if sat then (254, flagIX) else (255, flagNV)
  | .fin _ m e =>
    if m = 0 then (0, flagNV)
    else
      let l := log2Of m e
      if l < -127 then (0, flagUF ||| flagIX)
      else
        let (n, inexact) := roundSteps mode w false m e l
        let l := if n = 2 then l + 1 else l
        if 127 < l then (if sat then 254 else 255, flagOF ||| flagIX) else ((l + 127).toNat, ixIf inexact)

/-- The encoding of an integer in `n` bits, two's complement. -/
def intCode (n : Nat) (v : Int) : Nat := (v % (2 ^ n : Nat)).toNat

/-- The encoding of a value in a narrow format, and the flags (R71 to R76, R115, R116). -/
def QFmt.encode (f : QFmt) (mode : RMode) (w : Nat) (sat : Bool) (x : FNum) : Nat × Flags :=
  match f with
  | .f16 => fp16.round mode w sat x
  | .bf16 => bf16.round mode w sat x
  | .e4m3 => e4m3.round mode w sat x
  | .e5m2 => e5m2.round mode w sat x
  | .s8 => let (v, fl) := toIntRange mode w (-128) 127 x; (intCode 8 v, fl)
  | .n8 => let (v, fl) := toIntRange mode w 0 255 x; (intCode 8 v, fl)
  | .s4 => let (v, fl) := toIntRange mode w (-8) 7 x; (intCode 4 v, fl)
  | .e8m0 => e8m0Round mode w sat x
  | .t5 => let (v, fl) := toIntRange mode w (-121) 121 x; (t5Encode v, fl)

/-- The value of an element (R63 to R70, R117). -/
def QFmt.value (f : QFmt) (e : Nat) : FNum :=
  match f with
  | .f16 => fp16.value e
  | .bf16 => bf16.value e
  | .e4m3 => e4m3.value e
  | .e5m2 => e5m2.value e
  | .s8 => .ofInt (sext e 8)
  | .n8 => .ofInt e
  | .s4 => .ofInt (sext e 4)
  | .e8m0 => e8m0Value e
  | .t5 => .ofInt (t5Value e)

/-- A word with one element replaced (R115). -/
def insertElem (c : Word) (pos width e : Nat) : Word :=
  BitVec.ofNat 32 (bits c.toNat 0 (pos * width) + bits e 0 width * 2 ^ (pos * width)
    + c.toNat / 2 ^ (pos * width + width) * 2 ^ (pos * width + width))

/-- QCVT of one lane (R115, R116). -/
def qcvtLane (f : QFmt) (mode : RMode) (sat : Bool) (pos : Nat) (w a b c : Word) : Word × Flags :=
  let sc := bits b.toNat 0 8
  let x := if sc = 255 then FNum.nan else (val32 a).scale (127 - (sc : Int))
  let (e, fl) := QFmt.encode f mode w.toNat sat x
  (insertElem c pos (QFmt.width f) e, fl)

/-- The element that QWIDEN reads (R117). -/
def qElem (f : QFmt) (pos : Nat) (a : Word) : Nat := bits a.toNat (pos * QFmt.width f) (QFmt.width f)

/-- QWIDEN of one lane whose element is no bad trit byte (R117).  An infinite element that SAT clamps raises IX as R77 says, at a scale
of 127 too, where R117 says that no flag is raised (DESIGN CHOICE, log entry 49). -/
def qwidenLane (f : QFmt) (mode : RMode) (sat : Bool) (pos : Nat) (a b : Word) : Word × Flags :=
  let sc := bits b.toNat 0 8
  let v := QFmt.value f (qElem f pos a)
  if v.isNan || sc == 255 then (0x7FC00000, 0)
  else
    let (n, fl) := fp32.round mode 0 sat (v.scale ((sc : Int) - 127))
    (BitVec.ofNat 32 n, fl)

/-! ### Block scales -/

/-- Positions 2k and 2k + 1 of a level summed (R81). -/
def sumPairs : List Word → List Word
  | [] => []
  | [a] => [a]
  | a :: b :: r => (fadd a b).1 :: sumPairs r

/-- The pairwise sum tree of `levels` levels. -/
def sumTree : Nat → List Word → List Word
  | 0, l => l
  | n + 1, l => sumTree n (sumPairs l)

/-- The squared error t_j of one element under a candidate (R81). -/
def scaleErr (f : QFmt) (e : Int) (x : Word) : Word :=
  let q := QFmt.value f (QFmt.encode f .rne 0 true ((val32 x).scale (-e))).1
  let d := (rne32 (((val32 x).add (q.scale e).neg).1)).1
  (fmul d d).1

/-- err(e) of R81. -/
def scaleTotal (f : QFmt) (e : Int) (xs : List Word) : Word :=
  nth 0 (sumTree 5 (xs.map (scaleErr f e))) 0

/-- The larger magnitude. -/
def FNum.maxAbs (a b : FNum) : FNum := if a.abs.lt b.abs then b.abs else a.abs

/-- QSCALE of one lane's 32 values (R81, R118). -/
def qscaleLane (f : QFmt) (xs : List Word) : Word :=
  let vs := xs.map val32
  if vs.any (fun v => v.isNan || v.isInf) then 255
  else
    let amax := vs.foldl FNum.maxAbs (.fin false 0 0)
    if amax.isZero then 127
    else
      let e0 := amax.exponent - QFmt.emax f
      let c0 := clampInt (-127) 127 e0
      let c1 := clampInt (-127) 127 (e0 + 1)
      let c2 := clampInt (-127) 127 (e0 - 1)
      let t0 := val32 (scaleTotal f c0 xs)
      let t1 := val32 (scaleTotal f c1 xs)
      let t2 := val32 (scaleTotal f c2 xs)
      let (b, t) := if t1.lt t0 then (c1, t1) else (c0, t0)
      let b := if t2.lt t then c2 else b
      wordOfInt (127 + b)

/-! ### Dot products -/

/-- The functions of DOT (R120). -/
inductive DotFn where
  | s8 | n8 | sn8 | s4 | bf | h | e4 | e5 | t5
  deriving DecidableEq, Repr

/-- Element `k` of width `w` of a word. -/
def elemOf (a : Word) (w k : Nat) : Nat := bits a.toNat (w * k) w

/-- The exact integer sum of products (R120). -/
def dotInt (n w : Nat) (fa fb : Nat → Int) (a b : Word) : Int :=
  (List.range n).foldl (fun acc k => acc + fa (elemOf a w k) * fb (elemOf b w k)) 0

/-- The exact sum of c and the products, and whether an invalid operation arose (R120). -/
def dotFloat (f : Fmt) (n w : Nat) (a b : Word) (c : FNum) : FNum × Bool :=
  (List.range n).foldl (fun (acc : FNum × Bool) k =>
    let (p, nv1) := (f.value (elemOf a w k)).mul (f.value (elemOf b w k))
    let (x, nv2) := acc.1.add p
    (x, acc.2 || nv1 || nv2)) (c, false)

/-- Whether an element of either operand is NaN. -/
def dotNan (f : Fmt) (n w : Nat) (a b : Word) : Bool :=
  (List.range n).any (fun k => (f.value (elemOf a w k)).isNan || (f.value (elemOf b w k)).isNan)

/-- A floating-point DOT of one lane (R120). -/
def dotF (f : Fmt) (n w : Nat) (a b c : Word) : Word × Flags :=
  if (val32 c).isNan || dotNan f n w a b then (0x7FC00000, 0)
  else
    let (x, nv) := dotFloat f n w a b (val32 c)
    if nv then (0x7FC00000, flagNV) else rne32 x

/-- An integer DOT of one lane (R120). -/
def dotI (n w : Nat) (fa fb : Nat → Int) (a b c : Word) : Word × Flags :=
  (wordOfInt ((c.toNat : Int) + dotInt n w fa fb a b), 0)

/-- DOT of one lane (R120). -/
def dotLane (fn : DotFn) (a b c : Word) : Word × Flags :=
  match fn with
  | .s8 => dotI 4 8 (fun x => sext x 8) (fun x => sext x 8) a b c
  | .n8 => dotI 4 8 (fun x => (x : Int)) (fun x => (x : Int)) a b c
  | .sn8 => dotI 4 8 (fun x => sext x 8) (fun x => (x : Int)) a b c
  | .s4 => dotI 8 4 (fun x => sext x 4) (fun x => sext x 4) a b c
  | .bf => dotF bf16 2 16 a b c
  | .h => dotF fp16 2 16 a b c
  | .e4 => dotF e4m3 4 8 a b c
  | .e5 => dotF e5m2 4 8 a b c
  | .t5 => dotI 4 8 t5Value (fun x => sext x 8) a b c

/-- The trit TERN shifts in, and its flag (R121). -/
def ternTrit (a b : Word) : Int × Flags :=
  let x := val32 a
  let y := val32 b
  if x.isNan || y.isNan then (0, flagNV)
  else if y.abs.lt x then (1, 0)
  else if x.lt y.abs.neg then (-1, 0)
  else (0, 0)

/-- TERN of one lane (R121).  A code 0b10 in c is carried along as R121's floor(c / 4) has it, though R112 says that no instruction writes
it (DESIGN CHOICE, log entry 78). -/
def ternLane (a b c : Word) : Word × Flags :=
  let (t, fl) := ternTrit a b
  (BitVec.ofNat 32 (c.toNat / 4 + tritCode t * 1073741824), fl)

end Sys2Proof.Machine
end

