-- ==== Sys2Proof/Machine/Tun.lean ====
section
/-!
DEFINITION.  The Tun ternary array (R196 to R223).
-/

namespace Sys2Proof.Machine

/-! ### Reserving the array -/

/-- The Tun of the unit's core. -/
def State.myTun (s : State) : Tun := (s.core s.myTeam.core).tun
/-- Change a core's Tun. -/
def State.onTun (s : State) (core : Nat) (f : Tun → Tun) : State := s.setCore core { s.core core with tun := f (s.core core).tun }

/-- The array is free (R197). -/
def Tun.free (t : Tun) : Bool := t.owner.isNone && t.leaving.isNone
/-- It is held for another team (R198). -/
def Tun.heldFrom (t : Tun) (team : Nat) : Bool := t.heldTo.isSome && t.order.head? != some team

/-- A released array is held for the first team of its request order, and is to be cleared before its next grant (R198). -/
def Tun.release (t : Tun) (now : Nat) : Tun :=
  { t with owner := none, leaving := none, dirty := true, heldTo := if t.order.isEmpty then none else some (now + 4096) }

/-- A team's reservation ends: at once where none of its commands run, else with the last of them (R197). -/
def Tun.giveUp (t : Tun) (team now : Nat) : Tun :=
  if t.owner ≠ some team then t
  else if t.queue.isEmpty then t.release now
  else { t with owner := none, leaving := some team }

/-- A team leaves the request order (R198); a hold for it ends, and none for the next team follows (DESIGN CHOICE, log entry 89). -/
def Tun.leaveOrder (t : Tun) (team : Nat) : Tun :=
  { t with order := t.order.filter (· != team), heldTo := if t.order.head? = some team then none else t.heldTo }

/-- A free array is granted to a team; the clear takes 256 cycles (R198). -/
def Tun.grant (t : Tun) (team now : Nat) : Tun :=
  let u := t.leaveOrder team
  { u with owner := some team, heldTo := none, dirty := false, clearTo := if t.dirty then some (now + 256) else t.clearTo }

/-- Enter a team in the request order, once. -/
def Tun.enterOrder (t : Tun) (team : Nat) : Tun := if t.order.contains team then t else { t with order := t.order ++ [team] }

/-- ARES (R197, R198). -/
def execAres (d : Pred) : Meaning :=
  issue (scalarNeed [] []) noCheck 0 (fun s =>
    let team := s.me.team
    let core := s.myTeam.core
    let t := s.myTun
    let ok := t.owner == some team || (t.free && !t.heldFrom team)
    let u := if t.owner = some team then t else if ok then t.grant team s.now else t.enterOrder team
    (s.effect.onTun core (fun _ => u)).predResult d.toNat (fun _ => ok))

/-- AREL (R197). -/
def execArel : Meaning :=
  issue (scalarNeed [] []) noCheck 0 (fun s => s.effect.onTun s.myTeam.core (fun t => t.giveUp s.me.team s.now))

/-! ### The operands of a command -/

/-- OPC of the operations (R200). -/
def opLdw : Nat := 0
def opMm : Nat := 1
def opGmm : Nat := 2
def opDrn : Nat := 3
def opZero : Nat := 4
def opBdiag : Nat := 5

/-- Row bytes of an operand (R201). -/
def tunRowBytes (op : Nat) (t5 : Bool) (d : Desc) : Nat :=
  if op = opLdw && !t5 then 52 else if op = opDrn then 256 * fmtBytes (Desc.fmt d) else 256

/-- The pitch of an operand (R201). -/
def tunPitch (op : Nat) (t5 : Bool) (d : Desc) : Nat :=
  if Desc.spitch d = 0 then roundUp 16 (tunRowBytes op t5 d) else Desc.spitch d

/-- The format an operand must have (R201). -/
def tunFormat (op : Nat) (t5 : Bool) (f : Nat) : Bool :=
  if op = opLdw then f == (if t5 then 8 else fmtTrit)
  else if op = opDrn then [0, 1, 3, 4, 5, 6, 7].contains f
  else f == 1

/-- Scalars of the coordinate group (R200). -/
def tunScalars (op : Nat) : Nat := if op = opZero then 0 else if op = opDrn then 6 else if op = opGmm then 2 else 1

/-- The fields of the drain control word (R213). -/
def drnNG (w : Word) : Nat := bits w.toNat 0 4
def drnBias (w : Word) : Bool := w.getLsbD 4
def drnSa (w : Word) : Bool := w.getLsbD 5
def drnScat (w : Word) : Bool := w.getLsbD 6
def drnAmax (w : Word) : Bool := w.getLsbD 7
def drnSat (w : Word) : Bool := w.getLsbD 8
def drnClr (w : Word) : Bool := w.getLsbD 9
/-- A reserved bit or value is set (R213). -/
def drnBad (w : Word) : Bool := bits w.toNat 10 22 != 0 || decide (8 < drnNG w)

/-- Weight scales in the parameter block. -/
def drnScales (w : Word) : Nat := 256 / 2 ^ drnNG w
/-- Words of the parameter block (R213). -/
def drnWords (w : Word) (m : Nat) : Nat := drnScales w + (if drnBias w then 256 else 0) + if drnSa w then m else 0

/-- A TUN instruction's fields. -/
structure TunOp where
  op : Nat
  tid : Nat
  cs : Nat
  tok : Reg
  bank : Nat
  /-- M; 0 for LDW. -/
  m : Nat
  row : Nat
  t5 : Bool
  acc : Bool
  /-- TID2 of a GMM, TID3 of a DRN. -/
  list : Nat
  deriving DecidableEq, Repr

/-- The coordinate group as far as the file goes. -/
def TunOp.scalars (o : TunOp) : List (Nat × Nat) :=
  if o.op = opZero then [] else [(o.cs, min (tunScalars o.op) (128 - o.cs))]

/-- The slots that an operation uses, in the order of the fields (R175, R200). -/
def TunOp.slots (o : TunOp) (s : State) : List SlotUse :=
  let list : SlotUse := ⟨o.list, true, false, [1], fun _ => true, fun _ => 0⟩
  if o.op = opZero then []
  else
    ⟨o.tid, o.op != opDrn, o.op == opDrn, [0], fun d => tunFormat o.op o.t5 (Desc.fmt d), fun _ => o.cs + tunScalars o.op⟩ ::
      (if o.op = opGmm || (o.op = opDrn && drnScat (s.rs (o.cs + 1))) then [list] else [])

/-- Scratch footprints that are known at issue: offset and bytes (R202). -/
def TunOp.footprints (o : TunOp) (s : State) : List (Nat × Nat) :=
  let p := tunPitch o.op o.t5 (s.descOf o.tid)
  let off := (s.rs o.cs).toNat
  let w := s.rs (o.cs + 1)
  if o.op = opLdw then [(off, 256 * p)]
  else if o.op = opMm || o.op = opBdiag then [(off, o.m * p)]
  else if o.op = opDrn then
    (if drnScat w then [] else [(off, o.m * p)]) ++ [((s.rs (o.cs + 2)).toNat, 4 * drnWords w o.m)]
  else []

/-- Scratch offsets that are read at issue. -/
def TunOp.offsets (o : TunOp) (s : State) : List Word :=
  if o.op = opZero then [] else s.rs o.cs :: (if o.op = opDrn then [s.rs (o.cs + 2)] else [])

/-- The checks of R202 under PRIV, in their order. -/
def TunOp.check (o : TunOp) (s : State) : Option Cause :=
  firstSome [
    if s.myTun.owner ≠ some s.me.team then some (s.cause 0x0C 0 0 s.lead) else none,
    s.slotCause (o.slots s),
    (((o.offsets s).filter (fun w => w.toNat % 16 ≠ 0)).head?).map (fun w => s.cause 0x05 w 0 s.lead),
    (((o.footprints s).filter (fun f => decide (s.pre.seg.sl.toNat < f.1 + f.2))).head?).map
      (fun f => s.cause 0x04 (BitVec.ofNat 32 f.1) 0 s.lead),
    if o.op = opDrn && drnBad (s.rs (o.cs + 1)) then some s.illegal else none]

/-- Commands the array's queue holds (R203). -/
def tunCapacity : Nat := 16

/-- The command of a TUN instruction (R202, R203). -/
def TunOp.cmd (o : TunOp) (s : State) : Cmd :=
  let args := (List.range (tunScalars o.op)).map (fun k => s.rs (o.cs + k))
  let list := if o.op = opGmm || (o.op = opDrn && drnScat (nth 0 args 1)) then s.descOf o.list else []
  { s.command 2 o.tok o.op args (if o.op = opZero then [] else s.descOf o.tid) list with
    bank := o.bank, m := o.m, row := o.row, t5 := o.t5, acc := o.acc, since := 0 }

/-- Issue a TUN command. -/
def tun (o : TunOp) : Meaning :=
  bulk (fun _ => o.scalars) o.check o.tok (fun s => decide (s.myTun.queue.length < tunCapacity)) o.cmd
    (fun c s => s.onTun s.myTeam.core (fun t => { t with queue := t.queue ++ [c] }))

/-- TUN.LDW (R200, R207). -/
def execTunLdw (tid : Tid) (cs tok : Reg) (bank t5 : Bool) : Meaning :=
  tun ⟨opLdw, tid.toNat, cs.toNat, tok, bank.toNat, 0, 0, t5, false, 0⟩
/-- TUN.MM (R200, R209). -/
def execTunMm (tid : Tid) (cs tok : Reg) (bank : Bool) (m1 row : BitVec 7) (t5 acc : Bool) : Meaning :=
  tun ⟨opMm, tid.toNat, cs.toNat, tok, bank.toNat, m1.toNat + 1, row.toNat, t5, acc, 0⟩
/-- TUN.GMM (R200, R211). -/
def execTunGmm (tid : Tid) (cs tok : Reg) (bank : Bool) (m1 row : BitVec 7) (t5 acc : Bool) (tid2 : Tid) : Meaning :=
  tun ⟨opGmm, tid.toNat, cs.toNat, tok, bank.toNat, m1.toNat + 1, row.toNat, t5, acc, tid2.toNat⟩
/-- TUN.DRN (R200, R213). -/
def execTunDrn (tid : Tid) (cs tok : Reg) (m1 row : BitVec 7) (tid3 : Tid) : Meaning :=
  tun ⟨opDrn, tid.toNat, cs.toNat, tok, 0, m1.toNat + 1, row.toNat, false, false, tid3.toNat⟩
/-- TUN.ZERO (R200, R216). -/
def execTunZero (tok : Reg) (m1 row : BitVec 7) : Meaning :=
  tun ⟨opZero, 0, 0, tok, 0, m1.toNat + 1, row.toNat, false, false, 0⟩
/-- TUN.BDIAG (R200, R217). -/
def execTunBdiag (tid : Tid) (cs tok : Reg) (bank : Bool) (m1 row : BitVec 7) (acc : Bool) : Meaning :=
  privileged (tun ⟨opBdiag, tid.toNat, cs.toNat, tok, bank.toNat, m1.toNat + 1, row.toNat, false, acc, 0⟩)

/-! ### Banks and accumulators -/

/-- The bank of a number. -/
def Tun.bankOf (t : Tun) (b : Nat) : Bank := if b = 0 then t.bank0 else t.bank1
/-- Replace a bank. -/
def Tun.setBank (t : Tun) (b : Nat) (x : Bank) : Tun := if b = 0 then { t with bank0 := x } else { t with bank1 := x }

/-- The lowest trit of a weight (R70). -/
def lowTrit (w : Int) : Int := (w + 1) % 3 - 1
/-- Trit p of a weight. -/
def weightTrit (w : Int) : Nat → Int
  | 0 => lowTrit w
  | p + 1 => weightTrit ((w - lowTrit w) / 3) p

/-- The plane mask of weights: bit p where some trit p is not 0 (R196). -/
def planeMask (cells : FMap Int) : BitVec 5 :=
  BitVec.ofNat 5 ((List.range 5).foldl (fun m p => if cells.any (fun c => weightTrit c.2 p != 0) then m + 2 ^ p else m) 0)

/-- An accumulator. -/
def Tun.accAt (t : Tun) (row n : Nat) : BitVec 48 := fget 0 t.acc (256 * row + n)

/-- Products of a row's values with a bank's cells, by column; `f` is the factor of a weight at k and n (R209, R217). -/
def Bank.products (b : Bank) (x : List Int) (f : Nat → Nat → Int → Int) : FMap Int :=
  b.cells.foldl (fun r c =>
    let n := c.1 / 256
    let k := c.1 % 256
    fset 0 r n (fget 0 r n + f k n c.2 * nth 0 x k)) []

/-- The factor of a weight in a command (R209, R217). -/
def Cmd.factor (c : Cmd) (k n : Nat) (w : Int) : Int :=
  if c.op = opBdiag then (if k / 16 = n / 16 then lowTrit w else 0) else w

/-- Accumulate a row of values (R209). -/
def Tun.accumulate (t : Tun) (c : Cmd) (m : Nat) (x : List Int) (bad : Bool) : Tun :=
  let row := c.row + m
  let r := (t.bankOf c.bank).products x c.factor
  { t with
    acc := (List.range 256).foldl (fun a n =>
      fset 0 a (256 * row + n) ((if c.acc then t.accAt row n else 0) + BitVec.ofInt 48 (fget 0 r n))) t.acc
    rowBad := fset false t.rowBad row ((c.acc && fget false t.rowBad row) || bad) }

/-- Clear an accumulator row and its poison bit. -/
def Tun.zeroRow (t : Tun) (row : Nat) : Tun :=
  { t with acc := t.acc.filter (fun e => e.1 / 256 != row), rowBad := fset false t.rowBad row false }

/-! ### Scratch rows -/

/-- The pitch of a command's operand. -/
def Cmd.tunPitch (c : Cmd) : Nat := Machine.tunPitch c.op c.t5 c.desc
/-- Words of a row's data. -/
def Cmd.tunWords (c : Cmd) : Nat := tunRowBytes c.op c.t5 c.desc / 4

/-- The words of a scratch row's footprint. -/
def Cmd.tunFootprint (c : Cmd) (j : Nat) : List Nat :=
  (List.range (c.tunPitch / 4)).map (fun u => ((nth 0 c.args 0).toNat + j * c.tunPitch) / 4 + u)

/-- The scratchpad word that holds word u of a row (R180, R201). -/
def Cmd.tunWordAt (c : Cmd) (j u : Nat) : Nat :=
  ((nth 0 c.args 0).toNat + j * c.tunPitch + rotated (Desc.skew c.desc) j (4 * u)) / 4

/-- A row's words with their marks. -/
def Cmd.tunRow (c : Cmd) (t : Team) (j : Nat) : List (Word × Bool) :=
  (List.range c.tunWords).map (fun u => (t.word (c.tunWordAt j u), t.bad (c.tunWordAt j u)))

/-- Bytes of words, as numbers. -/
def wordBytes (ws : List Word) : List Nat := ws.flatMap (fun w => (List.range 4).map (fun k => bits w.toNat (8 * k) 8))

/-- A command takes its rows' places from a list (R211, R215). -/
def Cmd.listed (c : Cmd) : Bool := c.op == opGmm || (c.op == opDrn && drnScat (nth 0 c.args 1))

/-- The list position of a row. -/
def Cmd.listPos (c : Cmd) (m : Nat) : Int := (nth 0 c.args (if c.op = opGmm then 1 else 3)).toInt + m

/-- Which scratch row a command's row m is: its number, none for a row of zeros or a dropped one, or a fault; the list entry of a row is
read once (R211, R215). -/
def State.tunPlace (s : State) (c : Cmd) (m : Nat) : Except Nat (Option Nat) :=
  let inside := fun e => decide ((nth 0 c.args 0).toNat + (e + 1) * c.tunPitch ≤ c.seg.sl.toNat)
  if c.op = opZero then .ok none
  else if c.op = opLdw then .ok (some m)
  else if c.listed then
    match (ffind c.entries m).getD (s.listEntry c c.desc2 (c.listPos m)) with
    | .outside => .ok none
    | .fails f => .error f
    | .entry e =>
      if e = 0xFFFFFFFF || (c.op = opGmm && Desc.dim c.desc 1 ≤ e) then .ok none
      else if inside e then .ok (some e) else .error 4
  else .ok (some m)

/-- Scratchpad words of the list entry of a row. -/
def Cmd.tunListWords (c : Cmd) (m : Nat) : List Nat := if c.listed then listWords c.desc2 (c.listPos m) else []

/-! ### The order of scratch accesses -/

/-- Two ranges of scratchpad bytes meet. -/
def rangesMeet (a b : Nat × Nat) : Bool := decide (a.1 < b.1 + b.2) && decide (b.1 < a.1 + a.2)

/-- The bytes of a row's place, unknown (none) while its list entry has not been read. -/
def Cmd.rowSpan (c : Cmd) (m : Nat) : Option (List (Nat × Nat)) :=
  let at_ := fun j => [((nth 0 c.args 0).toNat + j * c.tunPitch, c.tunPitch)]
  if c.op = opZero then some []
  else if !c.listed then some (at_ m)
  else (ffind c.entries m).map (fun e => match e with
    | .entry j => at_ j
    | .outside => []
    | .fails _ => [])

/-- The bytes of the list entry that a row reads in the scratchpad. -/
def Cmd.entrySpan (c : Cmd) (m : Nat) : List (Nat × Nat) := (c.tunListWords m).map (fun w => (4 * w, 4))

/-- Bytes, or an unknown place, meet bytes. -/
def spansMeet (a : Option (List (Nat × Nat))) (b : List (Nat × Nat)) : Bool :=
  match a with
  | none => !b.isEmpty
  | some l => l.any (fun x => b.any (rangesMeet x))

/-- Rows of a command. -/
def Cmd.tunRows (c : Cmd) : Nat := if c.op = opLdw then 256 else c.m

/-- An earlier command has yet to write bytes that a later one reads, or to read bytes that it writes (R203): `reads` and `writes` are
the later one's. -/
def Cmd.holdsUp (d : Cmd) (reads writes : List (Nat × Nat)) : Bool :=
  (List.range d.tunRows).any (fun m => decide (d.done ≤ m)
    && spansMeet (d.rowSpan m) (if d.op = opDrn then reads else writes))
  || (List.range d.tunRows).any (fun m => decide (d.done ≤ m) && (d.entrySpan m).any (fun x => writes.any (rangesMeet x)))

/-- The commands issued before one that have not completed. -/
def State.tunBefore (s : State) (core : Nat) (c : Cmd) : List Cmd := (s.core core).tun.queue.takeWhile (fun d => d.id != c.id)

/-- Every earlier command is done with the bytes that a command is about to use, so that the results are those of running the commands
one at a time (R203). -/
def State.tunTurn (s : State) (core : Nat) (c : Cmd) (reads writes : List (Nat × Nat)) : Bool :=
  (s.tunBefore core c).all (fun d => !d.holdsUp reads writes)

/-- The packet of a list entry's read finds its way open, where the list lies in memory and the entry has not been read (R322, R327). -/
def State.listOpen (s : State) (c : Cmd) (m : Nat) : Bool :=
  !c.listed || (ffind c.entries m).isSome || Desc.space c.desc2 == 2
    || s.cmdOpen c .tun (vaOfInt ((Desc.base c.desc2 : Int) + 4 * c.listPos m))

/-- Row m of a command may go on as far as the earlier commands' scratch accesses let it: its list entry first, then its place. -/
def State.rowTurn (s : State) (core : Nat) (c : Cmd) (m : Nat) : Bool :=
  s.tunTurn core c (c.entrySpan m) [] && s.listOpen c m &&
    (match c.rowSpan m with
      | none => true
      | some l => if c.op = opDrn then s.tunTurn core c [] l else s.tunTurn core c l [])

/-- The list entry of row m is read (R211, R215). -/
def State.tunEntry (s : State) (c : Cmd) (m : Nat) : State × Cmd :=
  if !c.listed || (ffind c.entries m).isSome then (s, c)
  else
    let l := s.landWords c.group listPath false (c.tunListWords m)
    ((l.listTouch c c.desc2 (c.listPos m)).spent, { c with entries := fins c.entries m (l.listEntry c c.desc2 (c.listPos m)) })

/-- The tags let a row go on: full to be read, empty to be written (R205). -/
def State.tunReady (s : State) (c : Cmd) (m : Nat) : Bool :=
  if !Desc.tagf c.desc || c.op = opZero then true
  else match s.tunPlace c m with
    | .error _ => true
    | .ok none => true
    | .ok (some j) => (c.tunFootprint j).all (fun w => (s.team c.team).full w == (c.op != opDrn))

/-! ### Draining -/

/-- A parameter word with its mark. -/
def Cmd.param (c : Cmd) (i : Nat) : Word × Bool := nth (0, false) c.block i

/-- The chain of R214 for one element: t3 and whether a parameter it uses is poisoned. -/
def Cmd.drain (c : Cmd) (a : BitVec 48) (m n : Nat) : Word × Bool :=
  let w := nth 0 c.args 1
  let sw := c.param (n / 2 ^ drnNG w)
  let sa := c.param (drnScales w + (if drnBias w then 256 else 0) + m)
  let b := c.param (drnScales w + n)
  let t1 := (fmul (rne32 (FNum.ofInt a.toInt)).1 sw.1).1
  let t2 := if drnSa w then (fmul t1 sa.1).1 else t1
  let t3 := if drnBias w then (fadd t2 b.1).1 else t2
  (t3, sw.2 || (drnSa w && sa.2) || (drnBias w && b.2))

/-- The output code of t3; with SAT an infinity gives ±maxf in every floating-point format (R72, R214). -/
def drnCode (f : Nat) (sat : Bool) (x : Word) : Nat :=
  if f = 5 then (if sat && x &&& 0x7FFFFFFF = 0x7F800000 then (x - 1).toNat else x.toNat)
  else if f = 4 then (bf16.round .rne 0 sat (val32 x)).1
  else if f = 3 then (fp16.round .rne 0 sat (val32 x)).1
  else if f = 6 then (e4m3.round .rne 0 sat (val32 x)).1
  else if f = 7 then (e5m2.round .rne 0 sat (val32 x)).1
  else if f = 1 then intCode 8 (toIntRange .rne 0 (-128) 127 (val32 x)).1
  else intCode 8 (toIntRange .rne 0 0 255 (val32 x)).1

/-- The words of an output row, with marks, from its elements t3 with theirs. -/
def drnRowWords (f : Nat) (sat : Bool) (es : List (Word × Bool)) : List (Word × Bool) :=
  let n := fmtBytes f
  let per := 4 / n
  (List.range (64 * n)).map (fun u =>
    let g := (es.drop (per * u)).take per
    (BitVec.ofNat 32 ((mapFrom (fun k (e : Word × Bool) => drnCode f sat e.1 * 2 ^ (8 * n * k)) 0 g).foldl (· + ·) 0), g.any Prod.snd))

/-- The amax with one more element. -/
def amaxOf (a : Option Word) (x : Word) : Option Word := some (maxaWord (a.getD 0) x)

/-- Drain row m of a command to its place (R214, R215). -/
def State.drainRow (s : State) (core : Nat) (c : Cmd) (m : Nat) : State × Cmd :=
  let t := (s.core core).tun
  let row := c.row + m
  let w := nth 0 c.args 1
  let bad := fget false t.rowBad row
  let s1 := if drnClr w then s.onTun core (fun t => t.zeroRow row) else s
  match s.tunPlace c m with
  | .error f => (s1, c.note f m)
  | .ok none => (s1, c)
  | .ok (some j) =>
    let es := (List.range 256).map (fun n => c.drain (t.accAt row n) m n)
    let es := es.map (fun e => (e.1, e.2 || bad))
    let ws := drnRowWords (Desc.fmt c.desc) (drnSat w) es
    let s2 := (mapFrom (fun u (e : Word × Bool) => (c.tunWordAt j u, e)) 0 ws).foldl
      (fun x e => x.fogWord c 2 e.1 15 e.2.1 e.2.2 (Desc.tagf c.desc)) s1
    let s3 := if Desc.tagf c.desc then (c.tunFootprint j).foldl (fun x e => x.tagWord c.team e true) s2 else s2
    let c1 := { c with amax := (es.filter (fun e => !e.2)).foldl (fun a e => amaxOf a e.1) c.amax }
    (s3, if es.any Prod.snd then c1.note 0x0A m else c1)

/-- The amax report: one MAXA at the address's home slice, dropped as a reduction on a marked sector (R215, R278). -/
def State.amaxReport (s : State) (c : Cmd) : State × Cmd :=
  let a := (pairVal (nth 0 c.args 4) (nth 0 c.args 5)).toNat
  if !Segs.covers c.seg 0 a 4 then (s, c.note 4 256)
  else if a % 4 ≠ 0 then (s, c.note 5 256)
  else match s.access c.space a .read 0 with
    | .error f => (s, c.note f 256)
    | .ok l =>
      if !pteW l.entry then (s, c.note 7 256)
      else if pteHost l.entry then (s, c.note (if pteSys l.entry then 9 else 8) 256)
      else
        let key := s.keyOf c.space l a
        let t := ((s.touch c.space l true).reduceAt (s.cmdAgent c) key 4 (maxaWord (s.wordAt key) (c.amax.getD 0)).toNat).1
        (t, t.noteParts c (cellsOf key 0 4))

/-! ### Running a command -/

/-- Row m of a product (R209, R211). -/
def State.productRow (s : State) (core : Nat) (c : Cmd) (m : Nat) : State × Cmd :=
  match s.tunPlace c m with
  | .error f => (s, c.note f m)
  | .ok none => (s.onTun core (fun t => t.accumulate c m [] false), c)
  | .ok (some j) =>
    let ws := c.tunRow (s.team c.team) j
    let x := (wordBytes (ws.map Prod.fst)).map (fun b => sext b 8)
    let s1 := s.onTun core (fun t => t.accumulate c m x (ws.any Prod.snd))
    (if Desc.tagf c.desc then (c.tunFootprint j).foldl (fun y e => y.tagWord c.team e false) s1 else s1, c)

/-- Row n of a load is read and kept with the command (R207). -/
def State.loadRow (s : State) (c : Cmd) (n : Nat) : State × Cmd :=
  let ws := c.tunRow (s.team c.team) n
  let s1 := if Desc.tagf c.desc then (c.tunFootprint n).foldl (fun y e => y.tagWord c.team e false) s else s
  (s1, { c with block := c.block ++ ws })

/-- One row of a command, once its tags are ready: the engines' words it meets are settled first (R183, R204). -/
def State.tunStep (s : State) (core : Nat) (c : Cmd) : State × Cmd :=
  let m := c.done
  let s1 := match s.tunPlace c m with
    | .error _ => s
    | .ok none => s
    | .ok (some j) => if c.op = opDrn then s else (s.landWords c.group 2 (Desc.tagf c.desc) (c.tunFootprint j)).spent
  let (s2, d) :=
    if c.op = opLdw then s1.loadRow c m
    else if c.op = opDrn then s1.drainRow core c m
    else if c.op = opZero then (s1.onTun core (fun t => t.zeroRow (c.row + m)), c)
    else s1.productRow core c m
  (s2, { d with done := m + 1 })

/-- Rows of a command while they are ready and it is their turn, `n` at most. -/
def State.tunSteps (s : State) (core : Nat) (c : Cmd) : Nat → State × Cmd
  | 0 => (s, c)
  | n + 1 =>
    if c.tunRows ≤ c.done || !s.rowTurn core c c.done then (s, c)
    else
      let (s0, c0) := s.tunEntry c c.done
      if !s0.rowTurn core c0 c.done || !s0.tunReady c0 c.done then (s0, c0)
      else
        let (t, d) := s0.tunStep core c0
        t.tunSteps core d n

/-- The lowest bad byte or poisoned word of loaded rows: its code and index (R206, R208). -/
def Cmd.ldwFault (c : Cmd) : Option (Nat × Nat) :=
  let per := c.tunWords
  let bad := (mapFrom (fun i (e : Word × Bool) =>
    let at_ := i / per * 256 + 4 * (i % per)
    if e.2 then some (0x0A, at_) else (badTritByte e.1 4).map (fun k => (0x0B, at_ + k))) 0 c.block).filterMap (fun f => f)
  bad.head?

/-- The weights of loaded rows (R207): key 256 · n + k. -/
def Cmd.weights (c : Cmd) : FMap Int :=
  let per := c.tunWords
  ((List.range 256).flatMap (fun n =>
    let bs := wordBytes (((c.block.drop (per * n)).take per).map Prod.fst)
    (List.range 256).map (fun k =>
      (256 * n + k, if c.t5 then t5Value (nth 0 bs k) else digitTrit (tritByteDigit (nth 0 bs (k / 5)) (k % 5)))))).filter
    (fun e => e.2 != 0)

/-- The bank after a load, or its poison (R207, R208). -/
def Bank.load (b : Bank) (c : Cmd) : Bank :=
  match c.ldwFault with
  | some (code, _) => { b with poison := some code }
  | none => ⟨c.weights, c.t5, planeMask c.weights, none⟩

/-- Replace a command of a Tun's queue. -/
def Tun.setCmd (t : Tun) (c : Cmd) : Tun := { t with queue := t.queue.map (fun d => if d.id = c.id then c else d) }

/-- A command leaves the queue; with the last one of a leaving team the array is free (R197). -/
def Tun.drop (t : Tun) (c : Cmd) : Tun := { t with queue := t.queue.filter (fun d => d.id != c.id) }

/-- A command ends: its token is written (R206). -/
def State.tunFinish (s : State) (core : Nat) (c : Cmd) : State := (s.onTun core (fun t => t.drop c)).finish c 2

/-- The last changes of a command whose rows are done, then its end. -/
def State.tunEnd (s : State) (core : Nat) (c : Cmd) : State :=
  if c.op = opLdw then
    let d := match c.ldwFault with
      | some f => c.note f.1 f.2
      | none => c
    (s.onTun core (fun t => t.setBank c.bank ((t.bankOf c.bank).load c))).tunFinish core d
  else if c.op = opDrn && drnAmax (nth 0 c.args 1) then
    if !s.cmdOpen c .tun (pairVal (nth 0 c.args 4) (nth 0 c.args 5)).toNat then s.onTun core (fun t => t.setCmd c)
    else
      let (t, d) := s.amaxReport c
      t.tunFinish core d
  else s.tunFinish core c

/-- Cycles a command has waited for tags while its team was resident (R205). -/
def Cmd.tagWait (c : Cmd) (now : Nat) : Nat := c.waited + if c.since = 0 then 0 else now + 1 - c.since

/-- A command goes on for some of its ready rows, freely chosen; one that finds its row's tags not ready waits from now (R205). -/
def State.tunAdvance (s0 : State) (core : Nat) (c0 : Cmd) : State :=
  let now := s0.cycle (coreDie core)
  if c0.done < c0.tunRows && !s0.rowTurn core c0 c0.done then s0
  else
    let (s, c) := if c0.done < c0.tunRows then s0.tunEntry c0 c0.done else (s0, c0)
    if c.done < c.tunRows && !s.rowTurn core c c.done then s.onTun core (fun t => t.setCmd c)
    else if c.done < c.tunRows && !s.tunReady c c.done then
      s.onTun core (fun t => t.setCmd { c with since := if c.since = 0 then now + 1 else c.since })
    else
      let n := 1 + s.choice % (c.tunRows - c.done)
      let (t, d) := s.spent.tunSteps core { c with waited := c.tagWait now, since := 0 } (if c.done < c.tunRows then n else 0)
      if d.tunRows ≤ d.done then t.tunEnd core d else t.onTun core (fun x => x.setCmd d)

/-! ### The array's own steps -/

/-- The port a command runs on (R203). -/
def Cmd.port (c : Cmd) : Nat := if c.op = opLdw then 0 else if c.op = opDrn || c.op = opZero then 2 else 1

/-- A command names a bank. -/
def Cmd.hasBank (c : Cmd) : Bool := c.op == opLdw || c.port == 1

/-- Two commands conflict (R203). -/
def Cmd.conflicts (a b : Cmd) : Bool :=
  (a.hasBank && b.hasBank && a.bank == b.bank && (a.op == opLdw || b.op == opLdw))
    || (a.op != opLdw && b.op != opLdw && decide (a.row < b.row + b.m) && decide (b.row < a.row + a.m))

/-- The n-th command of a queue may start (R198, R203). -/
def Tun.mayStart (t : Tun) (n : Nat) : Bool :=
  match t.queue[n]? with
  | none => false
  | some c => !c.started && t.clearTo.isNone
      && (t.queue.take n).all (fun d => d.started && d.port != c.port && !c.conflicts d)

/-- Why a product is refused whole when it starts (R209, R217).  Of a poisoned bank whose T5 bit also differs, the spec does not say which is
reported: the poison is (DESIGN CHOICE, log entry 89). -/
def Tun.refuses (t : Tun) (c : Cmd) : Option Nat :=
  let b := t.bankOf c.bank
  if c.port ≠ 1 then none
  else match b.poison with
    | some p => some p
    | none => if c.op != opBdiag && c.t5 != b.t5 then some 1 else none

/-- A team's commands run: it is resident, not stopped and not halted. -/
def State.runs (s : State) (team : Nat) : Bool := s.alive team && !(s.team team).halted

/-- A command starts: a drain reads its parameter block, a product that is refused has no rows to do (R203, R209, R213). -/
def State.tunStart (s : State) (core : Nat) (c : Cmd) : State :=
  let d := { c with started := true }
  if c.op = opDrn then
    let first := (nth 0 c.args 2).toNat / 4
    let ws := (List.range (drnWords (nth 0 c.args 1) c.m)).map (fun u => first + u)
    let t := s.landWords c.group 2 false ws
    let u := t.team c.team
    t.onTun core (fun x => x.setCmd { d with block := ws.map (fun w => (u.word w, u.bad w)) })
  else match (s.core core).tun.refuses c with
    | some f => s.onTun core (fun x => x.setCmd { d with fault := some (f, 0), done := c.m })
    | none => s.onTun core (fun x => x.setCmd d)

/-- TUN_COMMAND_START (R203). -/
def execTunCommandStart (core n : Nat) : Meaning := fun s =>
  match (s.core core).tun.queue[n]? with
  | none => .next s
  | some c => if (s.core core).tun.mayStart n && s.runs c.team then .next (s.tunStart core c) else .next s

/-- A halted team's command still goes on: a load that has begun while its rows are ready, and a command whose rows are
all done (R220). -/
def State.tunGoesOn (s : State) (c : Cmd) : Bool :=
  s.alive c.team && (!(s.team c.team).halted || decide (c.tunRows ≤ c.done)
    || (c.op == opLdw && decide (0 < c.done) && s.tunReady c c.done && s.rowTurn (s.team c.team).core c c.done))

/-- TUN_COMMAND_COMPLETE: a started command goes on, to its completion or a piece of the way; one of a stopped team ends
without a token (R199, R206). -/
def execTunCommandComplete (core n : Nat) : Meaning := fun s =>
  match (s.core core).tun.queue[n]? with
  | none => .next s
  | some c =>
    if (ffind s.teams c.team).isNone || (s.team c.team).dead then .next (s.onTun core (fun t => t.drop c))
    else if c.started && s.tunGoesOn c then .next (s.tunAdvance core c)
    else .next s

/-- A command's tag waits have lasted 2^30 cycles (R205). -/
def Cmd.overWait (c : Cmd) (now : Nat) : Bool := c.started && c.since != 0 && decide (2 ^ 30 ≤ c.tagWait now)

/-- TUN_TAG_WAIT_LIMIT (R205): what was done stands, and nothing more is written. -/
def execTunTagWaitLimit (core n : Nat) : Meaning := fun s =>
  match (s.core core).tun.queue[n]? with
  | none => .next s
  | some c =>
    if c.overWait (s.cycle (coreDie core)) && s.runs c.team then .next (s.tunFinish core { c with fault := some (0x11, c.done) }) else .next s

/-- ARRAY_RELEASE: the last command of a leaving team has completed (R197). -/
def execArrayRelease (core : Nat) : Meaning := fun s =>
  .next (s.onTun core (fun t => if t.leaving.isSome && t.queue.isEmpty then t.release (s.cycle (coreDie core)) else t))

/-- Banks, accumulators and poison at the values of R196. -/
def Tun.cleared (t : Tun) : Tun := { t with bank0 := Bank.clear, bank1 := Bank.clear, acc := [], rowBad := [], clearTo := none }

/-- ARRAY_CLEAR: 256 cycles after a grant (R198). -/
def execArrayClear (core : Nat) : Meaning := fun s =>
  .next (s.onTun core (fun t => match t.clearTo with
    | none => t
    | some c => if c ≤ s.cycle (coreDie core) then t.cleared else t))

/-- ARRAY_HOLD_EXPIRE: the first team of the order has not reserved the array in 4,096 cycles (R198); no hold for the next team follows
(DESIGN CHOICE, log entry 89). -/
def execArrayHoldExpire (core : Nat) : Meaning := fun s =>
  .next (s.onTun core (fun t => match t.heldTo with
    | none => t
    | some c => if c ≤ s.cycle (coreDie core) then { t with order := t.order.tail, heldTo := none } else t))

/-- TUN_ECC_ERROR: an uncorrectable error in a bank word, or with `acc` in an accumulator word of a row (R218, R451). -/
def execTunEccError (core : Nat) (acc : Bool) (r : Nat) : Meaning := fun s =>
  let t := s.onTun core (fun t =>
    if acc then { t with rowBad := fset false t.rowBad (r % 128) true }
    else t.setBank (r % 2) { t.bankOf (r % 2) with poison := some 0x0A })
  .next (t.logRas (coreDie core) 4 false core 0)

end Sys2Proof.Machine
end

