-- ==== Sys2Proof/Machine/Place.lean ====
section
/-!
DEFINITION.  Room on a core, and the start of a group and of a team (R9, R12, R24, R149 to R157, R349).
-/

namespace Sys2Proof.Machine

/-! ### The slot record -/

/-- The fields of a slot record (R339), read as a descriptor's bytes. -/
def Exec.field (e : Exec) (off n : Nat) : Nat := Desc.field e.record off n
def Exec.priority (e : Exec) : Nat := e.field 0x11 1
def Exec.det (e : Exec) : Nat := e.field 0x12 1
def Exec.shape (e : Exec) : Nat := e.field 0x14 2
def Exec.pool (e : Exec) : Nat := e.field 0x16 1
def Exec.ctl (e : Exec) : Nat := e.field 0x17 1
def Exec.producers (e : Exec) : Nat := bits (e.field 0x18 4) 0 6
def Exec.budgetP (e : Exec) : Nat := bits (e.field 0x18 4) 8 8
def Exec.budgetC (e : Exec) : Nat := bits (e.field 0x18 4) 16 8
def Exec.grid (e : Exec) : Nat := e.field 0x1C 4
def Exec.scratch (e : Exec) : Nat := e.field 0x20 4
def Exec.args (e : Exec) : Nat := e.field 0x24 1
def Exec.as (e : Exec) : Nat := e.field 0x25 1
def Exec.argv (e : Exec) (k : Nat) : Word := BitVec.ofNat 32 (e.field (0xB0 + 4 * k) 4)

/-- Groups of `w` lanes in a team of `l` lanes (R153). -/
def groupsOf (l w : Nat) : Nat := (l + w - 1) / w

/-- Groups of a team of an execution. -/
def Exec.groups (e : Exec) : Nat := groupsOf e.shape e.width

/-- The register budget of group j of a team (R155). -/
def Exec.budget (e : Exec) (j : Nat) : Nat := if j < e.producers then e.budgetP else e.budgetC

/-! ### The pool -/

/-- Vector registers for each datapath lane in a pool split class (R150). -/
def poolRegs (c : Nat) : Nat := 64 * nth 0 [24, 24, 16, 16, 12, 32, 40, 14] c
/-- Bytes of scratchpad in a pool split class (R150). -/
def poolScratch (c : Nat) : Nat := 65536 * nth 0 [0, 8, 16, 24, 32, 8, 0, 32] c

/-- A place of a group on a core: partition, first datapath lane, group slot, and what it takes there (R24, R249). -/
structure Place where
  part : Nat
  off : Nat
  slot : Nat
  width : Nat
  budget : Nat
  deriving DecidableEq, Repr

/-- The registers taken on a datapath lane of a partition. -/
def takenAt (ps : List Place) (part lane : Nat) : Nat :=
  ps.foldl (fun n p => if p.part = part && decide (p.off ≤ lane) && decide (lane < p.off + p.width) then n + p.budget else n) 0

/-- The lowest group slot free in a partition: the spec says only that a slot is assigned at placement (R249), and neither which one nor which
partition and offset (DESIGN CHOICE, log entry 91). -/
def freeSlot (ps : List Place) (part : Nat) : Option Nat :=
  (List.range 16).find? (fun n => !ps.any (fun p => p.part == part && p.slot == n))

/-- The places of a core for a width: partition and offset, in order. -/
def placesFor (w : Nat) : List (Nat × Nat) :=
  (List.range 4).flatMap (fun p => (List.range (64 / w)).map (fun k => (p, k * w)))

/-- A group of a width and budget at a place, where there is room (R152). -/
def tryPlace (regs w b : Nat) (ps : List Place) (at_ : Nat × Nat) : Option Place :=
  if (List.range w).all (fun l => decide (takenAt ps at_.1 (at_.2 + l) + b ≤ regs)) && decide (ps.length < 64)
  then (freeSlot ps at_.1).map (fun n => ⟨at_.1, at_.2, n, w, b⟩) else none

/-- Places for groups of one width, one after another, if any choice of places fits them all (R152): groups of equal
budget take places in rising order, which loses no choice.  `from_` is the first place the next group may take, and
`last` the budget of the group before it. -/
def placeAll (regs w : Nat) : List Nat → Nat → Nat → List Place → Option (List Place)
  | [], _, _, _ => some []
  | b :: bs, from_, last, ps =>
    let first := if b = last then from_ else 0
    ((List.range (placesFor w).length).drop first).findSome? (fun i =>
      match tryPlace regs w b ps (nth (0, 0) (placesFor w) i) with
      | none => none
      | some p => (placeAll regs w bs i b (ps ++ [p])).map (fun l => p :: l))

/-- The teams on a core. -/
def State.resident (s : State) (core : Nat) : List Nat :=
  (s.teams.filter (fun e => e.2.core == core && !e.2.saved)).map Prod.fst

/-- The place that a group holds. -/
def Group.place (g : Group) : Place := ⟨g.part, g.offset, g.slot, g.width, g.budget⟩

/-- The places that the groups of some teams hold: every group of a team resides until the team completes (R153). -/
def State.placesOf (s : State) (teams : List Nat) : List Place :=
  (s.groups.filter (fun e => teams.contains e.2.team)).map (fun e => e.2.place)

/-- The places that a core's groups hold. -/
def State.taken (s : State) (core : Nat) : List Place := s.placesOf (s.resident core)

/-- Bytes of scratchpad that a team takes: SCRATCH of its launch, none for callables (R157, R363). -/
def State.scratchUse (s : State) (tk : Nat) : Nat := if (s.team tk).callable then 0 else (s.exec (s.team tk).exec).scratch

/-- Scratchpad ranges that a core's teams hold: offset and bytes. -/
def State.scratchTaken (s : State) (core : Nat) : List (Nat × Nat) :=
  (s.resident core).map (fun t => ((s.team t).sb, s.scratchUse t))

/-- The lowest offset at which a team's scratchpad lies free of the others, or the end of what they take (log entry 75). -/
def scratchPlace (taken : List (Nat × Nat)) (limit n : Nat) : Nat :=
  ((0 :: taken.map (fun r => r.1 + r.2)).find? (fun o =>
    decide (o + n ≤ limit) && taken.all (fun r => decide (o + n ≤ r.1) || decide (r.1 + r.2 ≤ o)))).getD
    (taken.foldl (fun m r => m + r.2) 0)

/-- What a team asks of a core: class, scratchpad, width and budgets of its groups. -/
structure Ask where
  pool : Nat
  scratch : Nat
  width : Nat
  budgets : List Nat
  deriving DecidableEq, Repr

/-- The places for a team beside the places and scratchpad already taken, where it fits (R152). -/
def Ask.fit (a : Ask) (teams : Nat) (taken : List Place) (used : Nat) : Option (List Place) :=
  if teams < 16 && decide (used + a.scratch ≤ poolScratch a.pool) then placeAll (poolRegs a.pool) a.width a.budgets 0 0 taken
  else none

/-- A team of a class may be placed on a core: the core is not one that failed its self-test, is not draining for another
class, and its split is that class or none (R151, R349, R450). -/
def State.takes (s : State) (core pool : Nat) : Bool :=
  let c := s.core core
  (match c.split with
    | none => true
    | some p => p == pool)
  && (match c.drain with
    | none => true
    | some p => p == pool)
  && !fget false (s.die (coreDie core)).corestat (core / 16 % 16 * 6 + core % 16)

/-- The cores of a die, in order of COREID. -/
def coresOf (die : Nat) : List Nat := (List.range 16).flatMap (fun c => (List.range 6).map (fun k => 256 * die + 16 * c + k))

/-- The places for a team on a core. -/
def State.fitOn (s : State) (core : Nat) (a : Ask) : Option (List Place) :=
  let teams := ((s.resident core).filter (fun t => !(s.team t).callable)).length
  if s.takes core a.pool then a.fit teams (s.taken core) ((s.scratchTaken core).foldl (fun m r => m + r.2) 0) else none

/-- A team could be placed on an empty core of its class (R152). -/
def Ask.possible (a : Ask) : Bool := (a.fit 0 [] 0).isSome

/-- What a team of an execution asks. -/
def Exec.ask (e : Exec) : Ask := ⟨e.pool, e.scratch, e.width, (List.range e.groups).map e.budget⟩

/-! ### Groups -/

/-- The segments of a launch; the scratch offset is from placement (R157). -/
def Exec.segs (e : Exec) (sb : Nat) : Segs :=
  { cb := BitVec.ofNat 64 (e.field 0x00 8), cl := BitVec.ofNat 64 (e.field 0x08 4), gb := BitVec.ofNat 64 (e.field 0x28 8),
    gl := BitVec.ofNat 64 (e.field 0x30 8), sb := BitVec.ofNat 32 sb, sl := BitVec.ofNat 32 e.scratch,
    pb := BitVec.ofNat 64 (e.field 0x48 8), pl := BitVec.ofNat 32 (e.field 0x50 4), kb := BitVec.ofNat 64 (e.field 0x38 8),
    kl := BitVec.ofNat 64 (e.field 0x40 8) }

/-- The scalars a launch loads: ARGV into s0 … (R12, R349). -/
def Exec.scalars (e : Exec) : FMap Word := (List.range (min 8 e.args)).foldl (fun m k => fset 0 m k (e.argv k)) []

/-- The lanes of a group at its start: those at or beyond the launched count are ABSENT (R9, R11). -/
def startLanes (w present : Nat) : List Lane := (List.range w).map (fun i => if i < present then Lane.start else Lane.blank)

/-- A group at its start (R9, R12, R13, R157, R251, R349). -/
def Exec.group (e : Exec) (team j : Nat) (p : Place) (sb present stamp : Nat) : Group :=
  { Group.blank with
    team := team
    index := j
    width := p.width
    s := e.scalars
    lanes := startLanes p.width present
    csr := { Csrs.start with
      role := if j < e.producers then 0 else 1
      autow := e.autow
      tvec := BitVec.ofNat 32 (e.field 0x0C 4) &&& 0xFFFFFFFC
      prio := BitVec.ofNat 5 e.priority }
    seg := e.segs sb
    budget := p.budget
    stamp := stamp
    part := p.part
    slot := p.slot
    offset := p.off }

/-- A group enters, with its view renewed at system scope (R302). -/
def State.addGroup (s : State) (k : Nat) (g : Group) : State := (s.setGrp k g).renew k .sys

/-- The groups of a new team enter, one for each place. -/
def State.addGroups (s : State) (e : Exec) (team core sb : Nat) (ps : List Place) : State :=
  (mapFrom (fun j p => (j, p)) 0 ps).foldl (fun t q =>
    t.addGroup (groupKey team q.1)
      (e.group team q.1 q.2 sb (e.shape - q.1 * e.width) (s.cycle (coreDie core)))) s

/-- A team of an execution at its start (R153, R154). -/
def Exec.team (e : Exec) (ek core : Nat) (teamId : Word) : Team :=
  { Team.blank with
    exec := ek
    core := core
    teamId := teamId
    lanes := e.shape
    width := e.width
    groups := e.groups
    tensors := e.tensors
    age := e.age }

/-- A team is placed on a core: it enters with its groups, and a core of no class takes the team's (R151, R349). -/
def State.placeTeam (s : State) (ek core : Nat) (teamId : Word) (ps : List Place) : State :=
  let e := s.exec ek
  let key := s.nextKey
  let sb := scratchPlace (s.scratchTaken core) (poolScratch e.pool) e.scratch
  let s1 := s.setCore core { s.core core with split := some e.pool, drain := none }
  let s2 := { s1.setTeam key { e.team ek core teamId with sb := sb } with nextKey := key + 1 }
  let s3 := s2.addGroups e key core sb ps
  s3.setExec ek { s3.exec ek with teams := (s3.exec ek).teams ++ [key], ran := (s3.exec ek).ran ++ [key] }

/-- Remove a team and its groups from the machine. -/
def State.dropTeam (s : State) (team : Nat) : State :=
  { s with teams := fdel s.teams team, groups := s.groups.filter (fun e => e.2.team != team) }

end Sys2Proof.Machine
end

