-- ==== Sys2Proof/Machine/Slices.lean ====
section
/-!
DEFINITION.  What happens to accesses on their way: store buffers, home slices, reduction buffers, staging, the ticket
unit, and atomics to the host (R278 to R281, R288 to R296, R300 to R315).
-/

namespace Sys2Proof.Machine

/-! ### Store requests -/

/-- A later request of a group that may join its n-th before that leaves: a relaxed one to the same line and of the same path, under
the same fences, with no request between them to one of its bytes; a release takes one of the same bytes (R280, R307). -/
def Group.joins (g : Group) (n m : Nat) : Bool :=
  match (g.stores.drop n).head?, (g.stores.drop m).head? with
  | some r, some q => decide (n < m) && !r.sent && !q.sent && q.release.isNone && !q.uncached && !r.uncached && q.rsvs == r.rsvs && q.cum == r.cum
      && q.cells.all (fun c => r.cells.all (fun d => c.1 / 128 == d.1 / 128))
      && (r.release.isNone || q.cells.map Prod.fst == r.cells.map Prod.fst)
      && ((g.stores.take m).drop (n + 1)).all (fun x => !x.meets q)
  | some _, none => false
  | none, some _ => false
  | none, none => false

/-- The first request that may join a group's n-th. -/
def Group.joiner (g : Group) (n : Nat) : Option Nat := (List.range g.stores.length).find? (g.joins n)

/-- The request that joins the n-th is merged into it: the later bytes stand, and one write goes (R280, R307). -/
def Group.merge (g : Group) (n m : Nat) : Group :=
  match (g.stores.drop m).head? with
  | none => g
  | some q => { g with stores := (modNth g.stores n (fun r => { r with cells := r.cells ++ q.cells })).take m ++ g.stores.drop (m + 1) }

/-- STORE_REQUEST_SEND (R280, R305, R307): the request leaves, or a later one that may join it is merged into it before it does,
freely. -/
def execStoreRequestSend (g n : Nat) : Meaning := fun s =>
  match (s.grp g).joiner n with
  | none => .next (s.sendStore g n)
  | some m => .next (if s.choice % 2 = 0 then s.spent.sendStore g n else s.spent.onGrp g (fun x => x.merge n m))

/-- The sector of a key is marked poisoned. -/
def State.markSector (s : State) (key : Nat) : State := if isHost key then s else { s with marks := fset false s.marks (key / 32) true }

/-- L2_ECC_ERROR: an uncorrectable error marks the sector of a key and logs a RAS record (R278). -/
def State.sectorError (s : State) (key : Nat) : State :=
  if isHost key then s
  else (s.markSector key).logRas (keyDie key) 2 false (16 * (sliceOn key / 16) + sliceOn key % 16)
    (key % 2 ^ 37)

/-- Corrected errors of a die are counted (R278, R327, R451). -/
def State.corrected (s : State) (d : Nat) : State := s.reports d (fun x => { x with cecount := bump x.cecount })

/-- What the slice's own error control finds as it takes an access of a key (R278), or what is corrected on the way (R327). -/
def State.sliceEcc (s : State) (key : Nat) : Ecc → State
  | .none => s
  | .corrected => if isHost key then s else s.corrected (keyDie key)
  | .lost => s.sectorError key
  | .flitCorrected => if isHost key then s else s.corrected (keyDie key)
  | .flitLost => s

/-- An uncorrectable error in the payload of a write: its sector is delivered marked poisoned, with one RAS record (R327). -/
def State.spoilWrite (s : State) (key : Nat) (e : Ecc) : State :=
  if e = .flitLost && !isHost key then (s.markSector key).logRas (keyDie key) 3 false (sliceOn key) (key % 2 ^ 37) else s

/-- A byte of a request in whose sector an error is found: of any of its sectors, freely (R278, R327). -/
def State.hitKey (s : State) (r : Request) : Nat :=
  let ks := (distinct (r.cells.map (fun (c : Host.Cell) => c.1 / 32))).map (32 * ·)
  nth 0 ks (s.choice % max 1 ks.length)

/-- SLICE_APPLY (R279), once the request's way is open (R327); an error may be found in a sector or in the packet (R278, R327).  With no
such group it is the error in the payload of another agent's write, to the sector of byte `n`. -/
def execSliceApply (g n : Nat) (ecc : Ecc) : Meaning := fun s =>
  if (ffind s.groups g).isNone then .next (s.spoilWrite n ecc)
  else match ((s.grp g).stores.drop n).head? with
  | none => .next s
  | some r =>
    let key := s.hitKey r
    if !s.mayApply g n || !s.wayTo g (((s.grp g).requestKey n).getD 0) r.plane then .next s
    else .next (((s.sliceEcc key ecc).applyStore g n).spoilWrite key ecc).spent

/-- The n-th request of a group is acknowledged, and WSEQ takes its number (R281). -/
def State.ackStore (s : State) (k n : Nat) : State :=
  let g := s.grp k
  match (g.stores.drop n).head? with
  | none => s
  | some r => match r.applied with
    | none => s
    | some q =>
      if r.acked then s
      else s.setGrp k (({ g with
        stores := modNth g.stores n (fun r => { r with acked := true })
        csr := { g.csr with wseq := q } } : Group).dropDone)

/-- WRITE_ACK (R281), once its way is open (R327) and the acknowledgements that were sent before it on that way are there (R323). -/
def execWriteAck (g n : Nat) : Meaning := fun s =>
  match ((s.grp g).stores.drop n).head? with
  | none => .next s
  | some r => .next (if s.wayBack g (((s.grp g).requestKey n).getD 0) r.plane && !s.ackOvertakes g r then s.ackStore g n else s)

/-! ### Publication and views -/

/-- Versions of a part up to one of them are published to an agent, as an event of that version's writer (R300, R455). -/
def State.publishPart (s : State) (p n : Nat) (a : Agent) : State :=
  let x := s.part p
  if n = 0 || x.count < n then s
  else s.publish (x.ver n).owner (.agent a) [(p, n)]

/-- What the error control of a read's packet does to the group that it comes back to (R327). -/
def State.spoilRead (s : State) (g key : Nat) : Ecc → State
  | .none => s | .corrected => s | .lost => s
  | .flitCorrected => s.corrected (s.dieOf g)
  | .flitLost => (s.onGrp g (fun x => { x with spoilt := fset false x.spoilt (key / 32) true })).logRas (s.dieOf g) 3 false
      (s.team (s.grp g).team).core (key % 2 ^ 37)

/-- A cached translation maps an address to a key of device memory (R353). -/
def Cached.maps (c : Cached) (key : Nat) : Bool :=
  let pa := homePa (pteHome c.leaf) (pteGran c.leaf) key
  !pteHost c.leaf && homeKey (pteHome c.leaf) (pteGran c.leaf) pa == key && decide (ptePa c.leaf ≤ pa) && decide (pa < ptePa c.leaf + c.size)

/-- The plane of a group's read of a key: by the physical address of the page through which its launch reaches it (R319). -/
def State.readPlane (s : State) (g key : Nat) : Nat :=
  let space := (s.exec (s.team (s.grp g).team).exec).as
  entryPlane (((s.tlb.find? (fun c => (c.space == space || pteG c.leaf) && c.maps key)).map Cached.leaf).getD 0) key

/-- The packets that bring the sector of a key to readers that are no groups are spoilt from now on, or no longer (R327). -/
def State.spoilOthers (s : State) (key : Nat) (e : Ecc) : State :=
  let t := { s with spoilt := fset false s.spoilt (key / 32) (decide (e = .flitLost)) }
  if e = .flitLost && !isHost key then t.logRas (keyDie key) 3 false (sliceOn key) (key % 2 ^ 37) else t

/-- SLICE_READ: a home slice serves a read of the part that holds a key for a group (R279, R306); an error may be found in its sector
(R278) or in the packet of the response (R327).  With no such group it serves the engines, the hosts and die C. -/
def execSliceRead (g key : Nat) (ecc : Ecc) : Meaning := fun s =>
  let t := if ecc = .flitCorrected then s else s.sliceEcc key ecc
  if (ffind s.groups g).isNone then .next (t.spoilOthers key ecc)
  else if !s.wayTo g key (s.readPlane g key) || !s.wayBack g key (s.readPlane g key) then .next s
  else .next ((t.publishPart (key / 8) (t.part (key / 8)).count (t.agent g)).spoilRead g key ecc)

/-- SPONTANEOUS_PUBLISH: the device publishes an applied write to a group (R300). -/
def execSpontaneousPublish (part upTo g : Nat) : Meaning := fun s => .next (s.publishPart part upTo (s.agent g))

/-- VIEW_RENEWAL: a group's view is renewed at package scope (R303). -/
def execViewRenewal (g : Nat) : Meaning := fun s =>
  if (ffind s.groups g).isSome then .next (s.renew g .pkg) else .next s

/-! ### Fast-mode reductions -/

/-- REDUCTION_DRAIN (R288). -/
def execReductionDrain (core n : Nat) (ok : Bool) : Meaning := fun s => .next (s.drainRed core n ok)

/-! ### Staging and the ticket unit -/

/-- Executions that one chain of successors joins: the first of them. -/
def State.chainTopFrom (s : State) : Nat → Nat → Nat
  | 0, k => k
  | n + 1, k => match (s.exec k).parent with
    | none => k
    | some p => s.chainTopFrom n p
def State.chainTop (s : State) (k : Nat) : Nat := s.chainTopFrom s.execs.length k

/-- A team of an index in a chain of executions has not completed: it is pending, or it is there (R291). -/
def State.teamOpen (s : State) (ek t : Nat) : Bool :=
  s.execs.any (fun e => s.chainTop e.1 == s.chainTop ek &&
    (e.2.pendA.contains t || e.2.pendB.contains t ||
      s.teams.any (fun q => q.2.exec == e.1 && q.2.teamId.toNat == t && !q.2.callable)))

/-- The most entries that one issue stages: four parts for each of 64 lanes. -/
def stageMost : Nat := 256

/-- A partition's reduction buffer has no room for another issue, or its team is being saved, so that staged entries of the team spill
(R289, R292, R293). -/
def State.mustSpill (s : State) (team : Nat) : Bool :=
  (ffind s.teams team).isSome && ((s.team team).halted ||
    (List.range 4).any (fun p => decide (redCapacity < s.bufferLoad (s.team team).core p + stageMost)))

/-- The first staged entry of a team and an execution that has not been spilled. -/
def Exec.firstUnspilled (e : Exec) (ek t : Nat) : Option RedEntry :=
  (e.staged.find? (fun q => q.1 == t && q.2.exec == ek && q.2.spill.isNone)).map Prod.snd

/-- A team has a staged entry to spill, and its launch can still spill. -/
def State.toSpill (s : State) (team : Nat) : Bool :=
  let t := s.team team
  (s.exec t.exec).spillFault.isNone && ((s.exec (s.detRoot t.exec)).firstUnspilled t.exec t.teamId.toNat).isSome

/-- Mark the first unspilled entry of a list for a team and an execution. -/
def spillFirst (ek t : Nat) (at_ : Nat × Nat) : List (Nat × RedEntry) → List (Nat × RedEntry)
  | [] => []
  | q :: l =>
    if q.1 = t && q.2.exec == ek && q.2.spill.isNone then (q.1, { q.2 with spill := some at_ }) :: l else q :: spillFirst ek t at_ l

/-- Writes that the parts of a spilled entry have had. -/
def State.spillCount (s : State) (key : Nat) : Nat := (List.range 4).foldl (fun n j => n + (s.part (key / 8 + j)).count) 0

/-- The launch of a team cannot spill: what it stages from now on is discarded, and none of its batches is applied (R292). -/
def State.spillFails (s : State) (team code : Nat) : State :=
  let ek := (s.team team).exec
  s.setExec ek { s.exec ek with spillFault := some (code, team) }

/-- One staged entry of a team spills to the staging area of its chain, in a layout that is private to the device (R292). -/
def State.spillOne (s : State) (team : Nat) : State :=
  let t := s.team team
  let root := s.detRoot t.exec
  let e := s.exec root
  let va := e.field 0x58 8 + e.spilled
  if !s.toSpill team then s
  else if 65536 * e.field 0x60 4 < e.spilled + 32 then s.spillFails team 0x15
  else match s.access e.as va .write 0 with
    | .error c => (if c = 6 then s.noteWalk e.as va else s).spillFails team c
    | .ok l =>
      let key := s.keyOf e.as l va
      let x := joinWords ((List.range 8).map (fun j => Config.freeWord (8 * s.fresh + j)))
      let s1 := ((s.touch e.as l true).write .dieC (cellsOf key x 32)).spent
      let e1 := s1.exec root
      s1.setExec root { e1 with
        spilled := e1.spilled + 32
        staged := spillFirst t.exec t.teamId.toNat (key, s1.spillCount key) e1.staged }

/-- STAGING_SPILL: staged entries of a team spill (R292). -/
def execStagingSpill (team : Nat) : Meaning := fun s => .next (if s.mustSpill team then s.spillOne team else s)

/-- An entry read back poisoned or changed is discarded (R292). -/
def State.spillBad (s : State) (e : RedEntry) : Bool :=
  match e.spill with
  | none => false
  | some (key, n) => s.marked key || s.spillCount key != n

/-- The fault record of a fault with no trap (R343). -/
def plainFault (code : Nat) (tval : Word) (fatal : Bool) : FaultRec := ⟨code, tval, 0, 0, 0, 0, 0, fatal⟩

/-- The group that a staged entry came from, where its team is still there. -/
def State.entryGroup (s : State) (team : Nat) (e : RedEntry) : Option Nat :=
  (s.teams.find? (fun t => t.2.exec == e.exec && t.2.teamId.toNat == team && !t.2.callable)).map (fun t => groupKey t.1 e.group)

/-- A fault of a staged entry, by its team and group, with no trap (R343). -/
def State.entryFault (s : State) (team : Nat) (e : RedEntry) (code : Nat) (tval : Word) : State :=
  s.setExec e.exec ((s.exec e.exec).addFault
    { plainFault code tval false with team := BitVec.ofNat 32 team, group := BitVec.ofNat 32 e.group })

/-- The host refuses the FetchAdd of a staged entry: EFAULT of its group, or the fault record where the team has gone (R295, R343; log
entry 70). -/
def State.entryRefused (s : State) (team : Nat) (e : RedEntry) : State :=
  match s.entryGroup team e with
  | some k => s.onGrp k (fun g => g.hostRefused e.time e.lane)
  | none => s.entryFault team e 0x09 (BitVec.ofNat 32 e.lane)

/-- The ticket unit's turn goes to the next team once a team of an index has completed (R291). -/
def State.passTicket (s : State) (ek : Nat) : State :=
  let e := s.exec ek
  if s.teamOpen ek e.ticket || e.staged.any (fun q => q.1 == e.ticket) then s else s.setExec ek { e with ticket := e.ticket + 1 }

/-- A staged entry is applied (R291): a plain store is from now on known to its group, as far as it is there (R293, R301). -/
def State.applyStaged (s : State) (team : Nat) (e : RedEntry) : State :=
  let s1 := (s.applyEntry .dieC e).1
  let vs := s1.latestOf (cellsOf e.addr 0 e.size)
  let s2 := s1.publish .dieC (.scope .pkg) vs
  if e.store then (match s.entryGroup team e with
    | some k => s2.onGrp k (fun g => g.wrote .lane vs)
    | none => s2) else s2

/-- The ticket unit applies the next entry of the team whose turn it is, or passes the turn on; an entry of a launch whose contributions
are discarded goes (R291, R292, R420).  An entry waits for its way (R327).  A FetchAdd that the host refuses changes nothing (R295). -/
def State.ticket (s : State) (ek : Nat) (ok : Bool) : State :=
  let e := s.exec ek
  match e.batches.find? (fun q => q.1 == e.ticket) with
  | none => s.passTicket ek
  | some q =>
    let x := q.2.2
    let s1 := s.setExec ek { e with batches := e.batches.erase q }
    if (s.exec x.exec).discards then s1
    else if !s.waysOpen .dieC (homeEnd x.addr) x.plane then s
    else if s.spillBad x then s1.entryFault q.1 x 0x0A 0
    else if x.host && !x.store && (!ok || s.lost x.addr) then s1.entryRefused q.1 x
    else s1.applyStaged q.1 x

/-! ### Atomics to the host -/

/-- One AtomicOp of a group at its host (R286, R295, R305, R306, R308): its destination's words, what it releases, the view that it
renews, and whether the host refused it. -/
def State.hostAtomic (s : State) (k : Nat) (o : HostOp) (ok : Bool) : State :=
  let old := s.natAt o.addr o.size
  let (new, w) := opx o.fn o.size old o.val.toNat o.cmp.toNat
  let ok := ok && !s.lost o.addr
  let denied := ok && w && o.deny.isSome
  let s1 := if ok && w && !denied then (s.write (s.agent k) (cellsOf o.addr new o.size)).publishFor k o.sets else s
  let vs := s1.latestOf (cellsOf o.addr 0 o.size)
  let s2 := if ok then
      let s2 := vs.foldl (fun t e => t.see k e.1 e.2) s1
      let s3 := if w && !denied then s2.ownWrites k o.time .lane vs else s2
      match Order.scope (if w then o.oss else o.osf) with
      | none => s3
      | some sc => s3.renew k sc
    else s1
  let ds := (natWords o.size (if ok then old else 2 ^ (8 * o.size) - 1)).map (fun x => (x, false))
  s2.onGrp k (fun g =>
    if denied then { g with pend := g.pend ++ o.deny.toList }
    else
      let g1 := g.write (markedDests o.dest ds ++ (match o.seqDest with
        | none => []
        | some d => [⟨d, 0, false⟩]))
      if ok then g1 else g1.hostRefused o.time o.lane)

/-- The host completes the n-th AtomicOp of a group, or refuses it; when the last has come back, the group is held no more (R295). -/
def State.hostAtomicDone (s : State) (k n : Nat) (ok : Bool) : State :=
  match ((s.grp k).hostOps.drop n).head? with
  | none => s
  | some o =>
    (s.hostAtomic k o ok).onGrp k (fun g =>
      let os := g.hostOps.take n ++ g.hostOps.drop (n + 1)
      { g with hostOps := os, hold := if os.isEmpty && g.hold == .hostAtomic then .none else g.hold })

/-- HOST_ATOMIC_COMPLETION: of the oldest AtomicOp of a group, whose answer finds its way open (R295, R327). -/
def execHostAtomicCompletion (g : Nat) (ok : Bool) : Meaning := fun s =>
  .next (if (s.grp g).hostOps.head?.all (fun o => s.wayBack g o.addr (entryPlane 0 o.addr)) then s.hostAtomicDone g 0 ok else s)

end Sys2Proof.Machine
end

