-- ==== Sys2Proof/Machine/Host.lean ====
section
/-!
DEFINITION.  Host ports, event records, semaphores, mailboxes and the flash (R296, R316, R433 to R445).
-/

namespace Sys2Proof.Machine

/-- Change a host port. -/
def State.onPort (s : State) (p : Nat) (f : Port → Port) : State := s.setPort p (f (s.port p))

/-- Every register acts: start-up has reached step 6 and the package is not in recovery mode (R442, R446). -/
def DieC.open_ (c : DieC) : Bool := decide (6 ≤ c.bootstat) && !c.recovery

/-! ### Event records -/

/-- EVCTL.EN and EVCTL.LOGN (R438). -/
def Port.evEn (x : Port) : Bool := x.evctl.getLsbD 31
def Port.logn (x : Port) : Nat := bits x.evctl.toNat 0 4

/-- The key of a bus address of a port (R435). -/
def portKey (p a : Nat) : Nat := hostBase + p * 2 ^ 51 + a % 2 ^ 51

/-- The bytes of words, as cells from a key. -/
def wordCells (key : Nat) (ws : List Word) : List Host.Cell := (mapFrom (fun j (w : Word) => cellsOf (key + 4 * j) w.toNat 4) 0 ws).flatten

/-- Write an event record to one port's area: its number, its type and its fields; an interrupt is owed (R438, R439). -/
def State.eventTo (s : State) (p kind : Nat) (w2 w3 w4 : Word) : State :=
  let x := s.port p
  if !x.evEn then s
  else
    let n := x.evseq + 1
    let key := portKey p (x.evbase.toNat + 32 * (n.toNat % 2 ^ (x.logn + 4)))
    (s.write .dieC (wordCells key [n, BitVec.ofNat 32 kind, w2, w3, w4, 0, 0, 0])).onPort p (fun x => { x with evseq := n, owed := true })

/-- Write an event record to every port whose EN is 1 (R438). -/
def State.event (s : State) (kind : Nat) (w2 w3 w4 : Word) : State := (s.eventTo 0 kind w2 w3 w4).eventTo 1 kind w2 w3 w4

/-- The fields of EVCTL that software writes. -/
def evctlMask : Word := 0x8000FF0F

/-- A write of EVCTL: setting EN from 0 restarts the numbering, and tells a port of a secure-boot refusal it has not heard
of (R438, R442). -/
def State.writeEvctl (s : State) (p : Nat) (v : Word) : State :=
  let rises := v.getLsbD 31 && !(s.port p).evEn
  let t := s.onPort p (fun x => { x with evctl := v &&& evctlMask, evseq := if rises then 0 else x.evseq })
  if rises && s.dieC.refusal != 0 && !fget false s.dieC.told p then
    (t.eventTo p 8 (BitVec.ofNat 32 s.dieC.refusal) 0 0).onC (fun c => { c with told := fset false c.told p true })
  else t

/-- EVCTL_ENABLE (R438). -/
def execEvctlEnable (p : Nat) (v : Word) : Meaning := fun s =>
  if p < 2 && v.getLsbD 31 && !(s.port p).evEn then .next (s.writeEvctl p v) else .next s

/-- MSIX_INTERRUPT: vector 0 is sent after the records (R438). -/
def execMsixInterrupt (p : Nat) : Meaning := fun s =>
  if p < 2 && (s.port p).owed then .next (s.onPort p (fun x => { x with owed := false, sent := x.sent + 1 })) else .next s

/-! ### The window -/

/-- HWCTL.EN and HWCTL.AS (R434). -/
def Port.hwEn (x : Port) : Bool := x.hwctl.getLsbD 31
def Port.hwAs (x : Port) : Nat := bits x.hwctl.toNat 0 8

/-- An access of a host at BAR2: the leaf and the key, or none (R434). -/
def State.window (s : State) (p off : Nat) (acc : Access) : Option (Leaf × Nat) :=
  let x := s.port p
  if !x.hwEn || !s.dieC.open_ then none
  else
    let va := (x.hwbase.toNat + off) % 2 ^ 64
    match s.access x.hwAs va acc 0 with
    | .error _ => none
    | .ok l => some (l, s.keyOf x.hwAs l va)

/-- A request a port can bring: its link is up, it lies in BAR2 and in one 4 KiB block of it (R433, R434), and the way from die C to the
home of its bytes and back is open (R319, R327). -/
def State.mayAsk (s : State) (p off n : Nat) (acc : Access) : Bool :=
  decide (p < 2) && (s.port p).up && decide (0 < n) && decide (off + n ≤ 2 ^ 38) && decide (off % 4096 + n ≤ 4096)
    && (s.window p off acc).all (fun w => s.waysOpen .dieC (homeEnd w.2) (w.1.plane w.2))

/-- The walker's part in a host access (R354, R355). -/
def State.windowTouch (s : State) (p off : Nat) (w : Bool) : State :=
  let x := s.port p
  let va := (x.hwbase.toNat + off) % 2 ^ 64
  if !x.hwEn || !s.dieC.open_ then s
  else match s.access x.hwAs va (if w then .write else .read) 0 with
    | .ok l => s.touch x.hwAs l w
    | .error c => if c = 6 then s.noteWalk x.hwAs va else s

/-- A byte as a host reads it: all ones in a poisoned sector or on a fenced die (R434). -/
def State.hostByte (s : State) (key : Nat) : Byte := if s.tainted key then 0xFF else s.byteAt key

/-- A port reads parts as they stand: the writes it reads are published to it (R300, R316). -/
def State.portReads (s : State) (p : Nat) (ps : List Nat) : State :=
  ps.foldl (fun t q =>
    let x := t.part q
    if x.count = 0 then t else t.publish (x.ver x.count).owner (.agent (.port p)) [(q, x.count)]) s

/-- HOST_READ (R316, R434): the latest write applied. -/
def execHostRead (p off len : Nat) : Meaning := fun s =>
  if !s.mayAsk p off len .read then .next s
  else
    let t := (s.windowTouch p off false).spent
    match s.window p off .read with
    | none => .next { t with reply := ⟨p, [], false, true⟩ }
    | some (_, key) =>
      let ks := (List.range len).map (fun j => key + j)
      .next { t.portReads p (distinct (ks.map (· / 8))) with reply := ⟨p, ks.map s.hostByte, ks.any s.tainted, false⟩ }

/-- The writes that a port has made, part by part (R316). -/
def State.portWrites (s : State) (p : Nat) : Floors :=
  s.parts.foldl (fun f e =>
    let n := maxOf 0 ((mapFrom (fun j (v : Version) => if v.owner = .port p then j + 1 else 0) 0 e.2.versions))
    if n = 0 then f else Floors.raise f e.1 n) []

/-- A write with Relaxed Ordering clear is a release at system scope: it publishes the port's writes so far (R316). -/
def State.portRelease (s : State) (p : Nat) : State :=
  (s.publish (.port p) (.scope .sys) (s.portWrites p)).onPort p (fun x => { x with covered := s.portWrites p })

/-- What is published to a port, part by part: its own writes with Relaxed Ordering set count once a later one has it clear (R300,
R316). -/
def State.portKnown (s : State) (p : Nat) : Floors :=
  s.parts.foldl (fun f e => Floors.raise f e.1 (e.2.upTo (fun q => q.reaches (.port p)))) (s.port p).covered

/-- A host write that is refused is dropped and counted (R434). -/
def State.dropHost (s : State) (p : Nat) : State := s.onPort p (fun x => { x with hdrop := bump x.hdrop })

/-- The host behind a port writes its own memory (R298): the bytes and their versions, at the bus address. -/
def State.ownHostWrite (s : State) (p a : Nat) (data : List Byte) : State :=
  let cs := mapFrom (fun j (b : Byte) => (portKey p (a + j), b)) 0 data
  let olds := (partsOf cs).map (fun q => (q, s.part q))
  (olds.foldl (fun t e => t.version (.port p) false e.2 e.1) (s.poke cs)).wakeLines (distinct (cs.map (fun c => memLine c.1)))

/-- HOST_WRITE: a write at the window, with Relaxed Ordering clear a release at system scope (R316, R328, R434); or, with `p` 2 or 3, a
write of the processors of the host behind port p − 2 to its memory at a bus address (R298). -/
def execHostWrite (p off : Nat) (data : List Byte) (ro : Bool) : Meaning := fun s =>
  if 2 ≤ p then .next (if p < 4 && off + data.length ≤ 2 ^ 51 then s.ownHostWrite (p - 2) off data else s)
  else if !s.mayAsk p off data.length .write then .next s
  else match s.window p off .write with
    | none => .next ((s.windowTouch p off true).spent.dropHost p)
    | some (_, key) =>
      let u := (s.windowTouch p off true).spent.write (.port p) (mapFrom (fun j (b : Byte) => (key + j, b)) 0 data)
      .next (if ro then u else u.portRelease p)

/-- The bytes of a number. -/
def bytesOf (x n : Nat) : List Byte := (cellsOf 0 x n).map Prod.snd

/-- The function of a host AtomicOp: FetchAdd, Swap, CAS (R296). -/
def hostFn (fn : Nat) : AtomFn := if fn = 0 then .add else if fn = 1 then .exch else .cas

/-- An AtomicOp of a port on a leaf: it reads what stands, and one that writes publishes what is published to the port and its own write
(R296, R305). -/
def State.portAtomic (s : State) (p : Nat) (l : Leaf) (key size : Nat) (f : AtomFn) (b c : Dword) : State :=
  let as_ := (s.port p).hwAs
  let r := opx f size (s.natAt key size) b.toNat c.toNat
  let t := (s.touch as_ l r.2).portReads p (partsOf (cellsOf key 0 size))
  if !r.2 then t
  else
    let u := t.write (.port p) (cellsOf key r.1 size)
    u.publish (.port p) (.scope .sys) ((partsOf (cellsOf key 0 size)).foldl (fun g q => Floors.raise g q (u.part q).count) (t.portKnown p))

/-- HOST_ATOMICOP (R296, R434): `fn` 0 FetchAdd, 1 Swap, 2 CAS; `b` the operand and `c` the value compared.  A misaligned
one is malformed and has no effect, and one that is refused has none. -/
def execHostAtomicop (p off size fn : Nat) (b c : Dword) : Meaning := fun s =>
  if !s.mayAsk p off size .both || 2 < fn || !([4, 8, 16].contains size) || off % size ≠ 0 then .next s
  else
    let refuse : State := { s with reply := ⟨p, [], false, true⟩ }
    if size = 16 then .next refuse
    else match s.window p off .both with
      | none => .next { s.windowTouch p off false with reply := ⟨p, [], false, true⟩ }
      | some (l, key) =>
        if !pteSys l.entry then .next refuse
        else if s.tainted key then
          .next { s.touch (s.port p).hwAs l false with reply := ⟨p, List.replicate size 0xFF, true, false⟩ }
        else .next { s.portAtomic p l key size (hostFn fn) b c with reply := ⟨p, bytesOf (s.natAt key size) size, false, false⟩ }

/-! ### Links of the ports -/

/-- HOST_LINK_UP: a port trains from step 1 of start-up on (R433, R446). -/
def execHostLinkUp (p : Nat) : Meaning := fun s =>
  if p < 2 && decide (1 ≤ s.dieC.bootstat) then .next (s.onPort p (fun x => { x with up := true })) else .next s

/-- A request on its way to a port's host. -/
def Request.pendingAt (r : Request) (p : Nat) : Bool := r.sent && r.applied.isNone && r.cells.any (fun c => isHost c.1 && keyPort c.1 == p)

/-- Drop a group's requests on their way to a port (R435). -/
def State.dropPending (s : State) (k p : Nat) : Nat → State
  | 0 => s
  | n + 1 =>
    let g := s.grp k
    match g.stores.findIdx? (fun r => r.pendingAt p) with
    | none => s
    | some i =>
      let t := s.setGrp k (({ g with stores := modNth g.stores i (fun r => { r with acked := true, applied := some 0 }) } : Group).dropDone)
      (t.dropHost p).dropPending k p n

/-- A group's AtomicOps at a port complete as refused, oldest first (R295, R435). -/
def State.refusePending (s : State) (k p : Nat) : Nat → State
  | 0 => s
  | n + 1 => match (s.grp k).hostOps.findIdx? (fun o => keyPort o.addr == p) with
    | none => s
    | some i => (s.hostAtomicDone k i false).refusePending k p n

/-- The semaphores that an agent owns (R436): a semaphore holds its owner + 1, or 0 when free. -/
def DieC.owned (c : DieC) (agent : Nat) : List Nat := (List.range 8).filter (fun n => fget 0 c.sems n == agent + 1)

/-- HOST_LINK_DOWN (R435, R436, R438, R439): pending writes are dropped and counted, pending AtomicOps complete as
refused, its semaphores are free, and the other port hears of it. -/
def execHostLinkDown (p : Nat) : Meaning := fun s =>
  if 2 ≤ p || !(s.port p).up then .next s
  else
    let freed := s.dieC.owned p
    let s1 := s.onPort p (fun x => { x with up := false, evctl := x.evctl &&& 0x7FFFFFFF })
    let s2 := s1.groups.foldl (fun t e => t.dropPending e.1 p e.2.stores.length) s1
    let s3 := s2.groups.foldl (fun t e => t.refusePending e.1 p e.2.hostOps.length) s2
    let s4 := s3.onC (fun c => { c with sems := freed.foldl (fun m n => fset 0 m n 0) c.sems })
    .next (s4.event 7 (BitVec.ofNat 32 p) (BitVec.ofNat 32 (freed.foldl (fun m n => m + 2 ^ n) 0)) 0)

/-! ### Semaphores -/

/-- An agent can reach the registers: a port whose link is up, or the management controller (R436). -/
def State.reaches (s : State) (agent : Nat) : Bool := decide (agent = 2) || (decide (agent < 2) && (s.port agent).up)

/-- SEM_READ: a free semaphore becomes the reader's and reads 0; an owned one reads its owner + 1 (R436, R437). -/
def execSemRead (n agent : Nat) : Meaning := fun s =>
  if 8 ≤ n || !s.reaches agent then .next s
  else
    let own := fget 0 s.dieC.sems n
    let t := { s with reply := ⟨agent, bytesOf own 4, false, false⟩ }
    .next (if own = 0 then t.onC (fun c => { c with sems := fset 0 c.sems n (agent + 1) }) else t)

/-- SEM_RELEASE: a write by the owner of its own number frees the semaphore; others are ignored, and so are the reserved bits of the
write (R8, R436). -/
def execSemRelease (n agent : Nat) (v : Word) : Meaning := fun s =>
  if n < 8 && s.reaches agent && bits v.toNat 0 2 == agent && fget 0 s.dieC.sems n == agent + 1 then
    .next (s.onC (fun c => { c with sems := fset 0 c.sems n 0 })) else .next s

/-! ### Mailboxes -/

/-- A write of MBCMD starts a command, where none is under way (R445). -/
def startMailbox (p : Nat) (v : Word) (code : Nat) : Meaning := fun s =>
  if 2 ≤ p || (s.port p).busy || bits v.toNat 0 8 ≠ code then .next s
  else
    let t := s.onPort p (fun x => { x with mbcmd := v &&& 0xFF, busy := true })
    .next (if code = 3 then t.onC (fun c => { c with extending := c.extending ++ [p] }) else t)

/-- GETCERT (R445). -/
def execGetcert (p : Nat) (v : Word) : Meaning := startMailbox p v 1
/-- ATTEST (R445). -/
def execAttest (p : Nat) (v : Word) : Meaning := startMailbox p v 2
/-- EXTEND (R444, R445). -/
def execExtend (p : Nat) (v : Word) : Meaning := startMailbox p v 3

/-- MAILBOX_UNKNOWN: an unknown command completes at once with RESULT 1 and LEN 0 (R445). -/
def execMailboxUnknown (p : Nat) (v : Word) : Meaning := fun s =>
  let code := bits v.toNat 0 8
  if 2 ≤ p || (s.port p).busy || (1 ≤ code && code ≤ 3) then .next s
  else .next (s.onPort p (fun x => { x with mbcmd := v &&& 0xFF, result := 1, len := 0 }))

/-- Bytes of a window. -/
def Port.windowBytes (x : Port) (n : Nat) : List Byte := (List.range n).map (fun j => fget 0 x.window j)
/-- Place bytes in a window from byte 0. -/
def Port.place (x : Port) (bs : List Byte) : Port :=
  { x with window := (mapFrom (fun j (b : Byte) => (j, b)) 0 bs).foldl (fun m e => fset 0 m e.1 e.2) x.window }

/-- A list of bytes cut or filled to a length. -/
def fitBytes (n : Nat) (l : List Byte) : List Byte := (List.range n).map (fun j => nth 0 l j)

/-- The report of ATTEST up to its signature (R445). -/
def DieC.report (c : DieC) (nonce : List Byte) : List Byte :=
  bytesOf 1 4 ++ bytesOf 256 4 ++ nonce ++ (List.range 16).map Config.serialByte ++ (List.range 8).map Config.versionByte
    ++ c.meas0 ++ c.meas1 ++ c.meas2 ++ c.meas3

/-- The device identity's private key (R444). -/
def DieC.identity (c : DieC) : Nat := Config.identityKey c.fuseSecret

/-- What the command under way in a mailbox does when it completes (R444, R445); the nonce of a signature is open. -/
def State.mailbox (s : State) (p : Nat) : State :=
  let x := s.port p
  let done := fun (x : Port) (r n : Nat) => { x with busy := false, result := r, len := n }
  if x.mbcmd = 1 then
    let i := (x.windowBytes 4).foldr (fun b n => b.toNat + 256 * n) 0
    if Config.certCount ≤ i then s.setPort p (done x 2 0)
    else
      let der := (Config.certificate i).take 4096
      s.setPort p (done (x.place der) 0 der.length)
  else if x.mbcmd = 2 then
    let report := s.dieC.report (x.windowBytes 32)
    let sig := fitBytes 64 (ecdsaSign s.dieC.identity report s.choice)
    (s.setPort p (done (x.place (report ++ sig)) 0 256)).spent
  else
    (s.onC (fun c => { c with
      meas2 := sha256 (c.meas2 ++ x.windowBytes 32)
      extending := c.extending.filter (· != p) })).setPort p (done x 0 0)

/-- MAILBOX_DONE (R444, R445): of two EXTENDs the one received first is applied first. -/
def execMailboxDone (p : Nat) : Meaning := fun s =>
  if 2 ≤ p || !(s.port p).busy || ((s.port p).mbcmd == 3 && s.dieC.extending.head? != some p) then .next s
  else .next (s.mailbox p)

/-! ### Flash -/

/-- A byte of the flash. -/
def DieC.flashAt (c : DieC) (o : Nat) : Byte := (ffind c.flash o).getD (Config.flashByte o)

/-- Bytes the flash holds (R443). -/
def flashSize : Nat := 64 * 1024 * 1024

/-- A write of FLCMD starts a command, where none is under way (R443). -/
def startFlash (v : Word) (code : Nat) : Meaning := fun s =>
  if s.dieC.flcmd ≠ 0 || bits v.toNat 0 8 ≠ code then .next s
  else .next (s.onC (fun c => { c with flcmd := code, flat := (c.floff.toNat, c.fllen.toNat) }))

/-- FLASH_ERASE (R443). -/
def execFlashErase (v : Word) : Meaning := startFlash v 1
/-- FLASH_PROGRAM (R443). -/
def execFlashProgram (v : Word) : Meaning := startFlash v 2
/-- FLASH_READ (R443). -/
def execFlashRead (v : Word) : Meaning := startFlash v 3

/-- FLOFF and FLLEN of a command are in range (R443). -/
def flashFits (at_ : Nat × Nat) : Bool :=
  decide (at_.1 % 65536 = 0) && decide (at_.2 % 256 = 0) && decide (256 ≤ at_.2) && decide (at_.2 ≤ 65536)
    && decide (at_.1 + at_.2 ≤ flashSize)

/-- The effect of a flash command that succeeds (R443). -/
def DieC.flashDo (c : DieC) : DieC :=
  let o := c.flat.1
  let n := c.flat.2
  if c.flcmd = 1 then { c with flash := (List.range 65536).foldl (fun m j => fins m (o + j) 0xFF) c.flash }
  else if c.flcmd = 2 then
    { c with flash := (List.range n).foldl (fun m j => fins m (o + j) (c.flashAt (o + j) &&& fget 0 c.flwin j)) c.flash }
  else { c with flwin := (List.range n).foldl (fun m j => fset 0 m j (c.flashAt (o + j))) c.flwin }

/-- FLASH_COMMAND_DONE: BUSY clears and RESULT is set: 1 out of range, 2 where the flash reports a failure (R443). -/
def execFlashCommandDone (ok : Bool) : Meaning := fun s =>
  if s.dieC.flcmd = 0 then .next s
  else .next (s.onC (fun c =>
    if !flashFits c.flat then { c with flcmd := 0, flresult := 1 }
    else if !ok && c.flcmd ≠ 3 then { c with flcmd := 0, flresult := 2 }
    else { c.flashDo with flcmd := 0, flresult := 0 }))

end Sys2Proof.Machine
end

