-- ==== Sys2Proof/Machine/Light.lean ====
section
/-!
DEFINITION.  The light-tree walker (R240 to R242).
-/

namespace Sys2Proof.Machine

/-- The largest FP32 below 1: 1 − 2^−24. -/
def belowOne : Word := 0x3F7FFFFF

/-- A value clamped to 0 … 1 − 2^−24. -/
def clampUnit (u : Word) : Word := fminmax false (fminmax true u 0) belowOne

/-- A walk's node (R240). -/
structure LightNode where
  c : Word × Word × Word
  rad : Word
  pwr : Word
  link : Nat
  deriving DecidableEq, Repr

/-- A word that is NaN or infinite. -/
def notFinite (w : Word) : Bool := (val32 w).isNan || (val32 w).isInf

/-- The node of fetched bytes, tested (R232, R242). -/
def lightNode (x : Nat) : Except RayEnd LightNode :=
  let w := nodeWord x
  let neg := fun (v : Word) => (val32 v).lt (.fin false 0 0)
  if notFinite (w 0) || notFinite (w 1) || notFinite (w 2) || notFinite (w 3) || neg (w 3) || notFinite (w 4) || neg (w 4)
      || bits x (32 * 5 + 31) 1 == 1 || bits x (8 * 0x18) 64 != 0 then .error malformedEnd
  else .ok ⟨(w 0, w 1, w 2), w 3, w 4, (w 5).toNat⟩

/-- den(X) (R242). -/
def LightNode.den (n : LightNode) (p : Word × Word × Word) : Word :=
  let sq := fun c q => (fmul (fsub c q).1 (fsub c q).1).1
  let d := (fadd (fadd (sq n.c.1 p.1) (sq n.c.2.1 p.2.1)).1 (sq n.c.2.2 p.2.2)).1
  fminmax true (fminmax true d (fmul n.rad n.rad).1) 0x00800000

/-- What a walk knows: the current node, u, pdf, and the addresses fetched. -/
structure Walker where
  i : Nat
  node : LightNode
  u : Word
  pdf : Word
  deriving DecidableEq, Repr

/-- The choice between two children (R242): left or right, the factor of pdf, and the next u. -/
def lightStep (exact : Bool) (p : Word × Word × Word) (l r : LightNode) (u : Word) : Bool × Word × Word :=
  let rcp := fun (x : Word) => (sfu exact .rcp x).1
  let a0 := (fmul l.pwr (r.den p)).1
  let b0 := (fmul r.pwr (l.den p)).1
  let s0 := (fadd a0 b0).1
  let flat := (val32 s0).isZero || notFinite s0
  let aL : Word := if flat then 0x3F800000 else a0
  let aR : Word := if flat then 0x3F800000 else b0
  let s : Word := if flat then 0x40000000 else s0
  let t := (fmul u s).1
  let left := (val32 aR).isZero || (!(val32 aL).isZero && (val32 t).lt (val32 aL))
  let q := (fmul (if left then aL else aR) (rcp s)).1
  let v := if left then (fmul t (rcp aL)).1 else (fmul (fsub t aL).1 (rcp aR)).1
  (left, q, if (val32 v).isNan then 0 else clampUnit v)

/-- The fetch of a node. -/
def State.lightFetch (s : State) (space : Nat) (r : RayReq) (i : Nat) : Except RayEnd LightNode :=
  match s.rayFetch r.floors space r.seg (Desc.space r.desc) (Desc.base r.desc + 32 * i) 32 with
  | .error e => .error e
  | .ok x => lightNode x

/-- The walk, at most 64 levels (R242): the light index and pdf, and the nodes fetched. -/
def State.walkLight (s : State) (space : Nat) (r : RayReq) (p : Word × Word × Word) : Nat → Walker → List Nat →
    Except RayEnd (Nat × Word) × List Nat
  | 0, _, used => (.error malformedEnd, used)
  | fuel + 1, w, used =>
    let d := r.desc
    if bits w.node.link 30 2 = 1 then (.ok (bits w.node.link 0 30, w.pdf), used)
    else
      let l := bits w.node.link 0 30
      if l ≤ w.i || Desc.field d 0x10 4 ≤ l + 1 then (.error malformedEnd, used)
      else match s.lightFetch space r l with
        | .error e => (.error e, if e.fetched then l :: used else used)
        | .ok a => match s.lightFetch space r (l + 1) with
          | .error e => (.error e, l :: (if e.fetched then (l + 1) :: used else used))
          | .ok b =>
            let (left, q, u) := lightStep r.exact p a b w.u
            s.walkLight space r p fuel ⟨if left then l else l + 1, if left then a else b, u, (fmul w.pdf q).1⟩ (l :: (l + 1) :: used)

/-- The answer to one walk request: the record and the nodes fetched (R241, R242). -/
def State.lightRecord (s : State) (space : Nat) (r : RayReq) (w : List Word) : List Word × List Nat :=
  let p := (nth 0 w 0, nth 0 w 1, nth 0 w 2)
  let fail := fun (e : RayEnd) => match e with
    | .status st code => earlyRecord st code r.tag
    | .unstated => earlyRecord 3 0 r.tag
  if notFinite p.1 || notFinite p.2.1 || notFinite p.2.2 || (val32 (nth 0 w 3)).isNan then (fail (.status 4 0), [])
  else match s.lightFetch space r 0 with
    | .error e => (fail e, if e.fetched then [0] else [])
    | .ok n => match s.walkLight space r p 64 ⟨0, n, clampUnit (nth 0 w 3), 0x3F800000⟩ [0] with
      | (.error e, used) => (fail e, used)
      | (.ok (light, pdf), used) => ([BitVec.ofNat 32 light, pdf, 0, 0, 0, 0, 0, statusWord 0 r.tag 0], used)

/-- LIGHT_WALK: the walker answers the oldest walk of a group (R242). -/
def execLightWalk (g : Nat) : Meaning := fun s =>
  .next (s.answerWith g 4 (fun t r i =>
    let x := t.lightRecord (s.spaceOf g) r (r.words i)
    (x.1, x.2.map (fun n => Desc.base r.desc + 32 * n))))

end Sys2Proof.Machine
end

