-- ==== Sys2Proof/Machine/Reservoir.lean ====
section
/-!
DEFINITION.  Reservoir records in registers, and their loads and stores (R234 to R239, R358, R359).
-/

namespace Sys2Proof.Machine

/-! ### Arithmetic -/

/-- A weight that is NaN, infinite or below −0 (R236, R237). -/
def badRecordWeight (w : Word) : Bool := notFinite w || (val32 w).lt (.fin false 0 0)

/-- M of a record (R234). -/
def recM (r : List Word) : Nat := bits (nth 0 r 7).toNat 0 16

/-- A record with another M. -/
def withM (r : List Word) (m : Nat) : List Word := setNth r 7 ((nth 0 r 7 &&& 0xFFFF0000) ||| BitVec.ofNat 32 m)

/-- The selection step of UPD and MRG (R236). -/
def rsvSelect (mrg : Bool) (rec c : List Word) (u : Word) : List Word × Flags :=
  let m2 := recM c
  let p := fmul (nth 0 c 5) (nth 0 c 6)
  let q := fmul p.1 (cvtF32N32 .rne (BitVec.ofNat 32 m2)).1
  let w0 := if mrg then q.1 else nth 0 c 4
  let f0 := if mrg then p.2 ||| q.2 else 0
  let w := if badRecordWeight w0 then 0 else w0
  let f1 := f0 ||| nvIf (badRecordWeight w0)
  let ws := fadd (nth 0 rec 4) w
  let t := fmul u ws.1
  let lt := fcmp .lt t.1 w
  let head := if lt.1 then
      [nth 0 c 0, nth 0 c 1, nth 0 c 2, nth 0 c 3, ws.1, nth 0 c 5, nth 0 rec 6,
        nth 0 rec 7 ||| 0x01000000 ||| (if mrg then 0x02000000 else 0)]
    else setNth rec 4 ws.1
  (withM head (min (recM rec + if mrg then m2 else 1) 65535), f1 ||| ws.2 ||| t.2 ||| lt.2)

/-- A correctly rounded quotient (R237). -/
def fdiv (a b : Word) : Word × Flags :=
  let q := (val32 a).div (val32 b)
  let r := rne32 q.1
  (r.1, r.2 ||| nvIf q.2)

/-- NRM (R237). -/
def rsvNormal (rec : List Word) (cap : Word) : List Word × Flags :=
  let p := nth 0 rec 5
  let m := recM rec
  let den := fmul (cvtF32N32 .rne (BitVec.ofNat 32 m)).1 p
  let quo := fdiv (nth 0 rec 4) den.1
  let wf : Word × Flags :=
    if badRecordWeight p || badRecordWeight (nth 0 rec 4) then (0, flagNV)
    else if (val32 p).isZero || m = 0 then (0, 0)
    else (quo.1, den.2 ||| quo.2)
  let mc := bits cap.toNat 0 16
  (withM (setNth rec 6 wf.1) (if mc = 0 then m else min m mc), wf.2)

/-- Eight registers of a lane, as before the unit. -/
def State.eight (s : State) (i a : Nat) : List Word := (List.range 8).map (fun k => s.rv i (a + k))

/-- RSV.UPD and RSV.MRG (R235, R236). -/
def rsvMeaning (mrg : Bool) (d a b : Reg) : Meaning :=
  issue ⟨[(d.toNat, 8), (a.toNat, 8), (b.toNat, 1)], [(d.toNat, 8)], [], []⟩ noCheck 0 (fun s =>
    let r := fun i => rsvSelect mrg (s.eight i d.toNat) (s.eight i a.toNat) (s.rv i b.toNat)
    s.vecResult 0 d.toNat (fun i => (r i).1) (fun i => (r i).2))

/-- RSV.UPD (R236). -/
def execRsvUpd (d a b : Reg) : Meaning := rsvMeaning false d a b
/-- RSV.MRG (R236). -/
def execRsvMrg (d a b : Reg) : Meaning := rsvMeaning true d a b

/-- RSV.NRM (R237). -/
def execRsvNrm (d b : Reg) : Meaning :=
  issue ⟨[(d.toNat, 8), (b.toNat, 1)], [(d.toNat, 8)], [], []⟩ noCheck 0 (fun s =>
    let r := fun i => rsvNormal (s.eight i d.toNat) (s.rv i b.toNat)
    s.vecResult 0 d.toNat (fun i => (r i).1) (fun i => (r i).2))

/-- RSV.CLR (R237). -/
def execRsvClr (d : Reg) : Meaning :=
  issue ⟨[], [(d.toNat, 8)], [], []⟩ noCheck 0 (fun s => s.vecResult 0 d.toNat (fun _ => [0, 0, 0, 0, 0, 0, 0, 0]) (fun _ => 0))

/-! ### The store -/

/-- RSCTL.EN: the store is filling or serving, or will be filled after a write-back (R358). -/
def DieC.rsEnabled (c : DieC) : Bool := c.rsPhase == 1 || c.rsPhase == 2 || c.rsPhase == 4

/-- Accesses wait: the store is being filled, or will be after a write-back (R358). -/
def DieC.rsWaits (c : DieC) : Bool := c.rsPhase == 1 || c.rsPhase == 4

/-- A launch of an address space has a reservoir store (R358). -/
def State.hasStore (s : State) (space : Nat) : Bool := s.dieC.rsEnabled && space == s.dieC.rsNext.rsAs

/-- The backing address of a record, where pixel and layer lie in the store's geometry (R238, R359). -/
def DieC.recordVa (c : DieC) (x y l : Nat) : Option Nat :=
  if c.rsW ≤ x || c.rsH ≤ y || c.rsLayers ≤ l then none
  else some (c.rsBase + 8192 * ((l * c.rsTH + y / 16) * c.rsTW + x / 16) + 32 * (16 * (y % 16) + x % 16))

/-- The record a lane addresses. -/
def State.recordOf (s : State) (i a : Nat) : Option Nat :=
  s.dieC.rsNext.recordVa (bits (s.rv i a).toNat 0 16) (bits (s.rv i a).toNat 16 16) (s.rv i (a + 1)).toNat

/-- The checks of RSV.LD and RSV.ST (R238). -/
def rsvCheck (a : Reg) (acc : Access) (s : State) (i : Nat) : Option Cause :=
  match s.recordOf i a.toNat with
  | none => some (s.cause 0x04 (s.rv i a.toNat) 0 i)
  | some va =>
    if !s.hasStore s.space then some (s.cause 0x04 (s.rv i a.toNat) 0 i)
    else match s.access s.space va acc 0 with
      | .error c => some (s.addrCause c va i)
      | .ok _ => none

/-- The 8-byte parts of a record, as runs. -/
def recordParts (key : Nat) : List (Nat × Nat) := (List.range 4).map (fun n => (key + 8 * n, 8))

/-- A relaxed load of a record, single-copy atomic, by the view of the RSVS path (R239). -/
def State.loadRecord (s : State) (k key j : Nat) : State × Nat :=
  let (t, xs) := s.loadCut k ⟨.rsvs, false, false⟩ (recordParts key) j
  (t, xs.foldr (fun x y => x + 2 ^ 64 * y) 0)

/-- One lane's RSV.LD: eight words with their marks (R238, R239). -/
def State.rsvLoad (s : State) (os : Order) (va i : Nat) : State × List (Word × Bool) :=
  match s.access s.space va .read 0 with
  | .error _ => (s, [])
  | .ok l =>
    let key := s.keyOf s.space l va
    let (t, x) := if Order.atHome os then
        ((List.range 4).foldl (fun t n => t.see s.unit.g (key / 8 + n) (s.part (key / 8 + n)).count) s, s.natAt key 32)
      else s.loadRecord s.unit.g key i
    ((t.touch s.space l false).acquire os, (List.range 8).map (fun k => (BitVec.ofNat 32 (x / 2 ^ (32 * k)), s.reads key)))

/-- The RSV.LD of the ACTIVE lanes, in ascending order. -/
def State.rsvLoads (s : State) (os : Order) (d a : Nat) : List Nat → State × List Dest
  | [] => (s, [])
  | i :: is => match s.recordOf i a with
    | none => s.rsvLoads os d a is
    | some va =>
      let (t, ws) := s.rsvLoad os va i
      let (u, ds) := t.rsvLoads os d a is
      (u, markedDests (vkey i d) ws ++ ds)

/-- The physical runs of the records that the lanes address. -/
def State.recordRuns (s : State) (acc : Access) (a : Nat) : List (Leaf × Nat × Nat) :=
  s.acts.flatMap (fun i => match s.recordOf i a with
    | none => []
    | some va => s.phys acc va 32)

/-- RSV.LD (R238, R239): it waits while the store is being filled. -/
def execRsvLd (la : La) (d a : Reg) (os : Order) : Meaning :=
  issue ⟨[(a.toNat, 2)], [(d.toNat, 8)], [], []⟩ (rsvCheck a .read) la.toNat (fun s =>
    if s.dieC.rsWaits || s.loadWaits .rsvs os (s.recordRuns .read a.toNat) then s.stall
    else
      let (t, ds) := (s.noteReads (fun i => match s.recordOf i a.toNat with
        | none => []
        | some va => linesOf (s.phys .read va 32))).rsvLoads os d.toNat a.toNat s.acts
      (t.unspoil ((s.recordRuns .read a.toNat).map (fun r => r.2.1))).spent.deliver la.toNat ds 0)

/-- RSV.ST (R238, R239): the record of the highest lane stands. -/
def execRsvSt (d a : Reg) (os : Order) : Meaning :=
  issue ⟨[(d.toNat, 8), (a.toNat, 2)], [], [], []⟩ (rsvCheck a .write) 0 (fun s =>
    if s.dieC.rsWaits then s.stall
    else
      let va := fun i => (s.recordOf i a.toNat).getD 0
      let t := s.effect.requests (Order.scope os) true 32 va (fun i => s.storeData i d.toNat 8)
      (t.touchAll (s.acts.flatMap (fun i => s.storeLeaves (va i) 32))).spent)

end Sys2Proof.Machine
end

