-- ==== Sys2Proof/Machine/Store.lean ====
section
/-!
DEFINITION.  The reservoir store: it is enabled and filled, disabled and written back (R358, R359).
-/

namespace Sys2Proof.Machine

/-- The fields of RSCTL as a write stores them: WINMB at most 32, reserved bits 0 (R358). -/
def rsctlStored (v : Word) : Word :=
  let w := v &&& 0x3F0FFF01
  if 32 < bits w.toNat 24 6 then (w &&& 0x000FFF01) ||| 0x20000000 else w

/-- RSDIM and RSBASE pass the checks of a write that sets EN (R358). -/
def DieC.rsCheck (c : DieC) : Bool :=
  let n := c.rsNext
  decide (16 ≤ n.rsW) && decide (n.rsW ≤ 16384) && decide (16 ≤ n.rsH) && decide (n.rsH ≤ 16384) && decide (c.rsbase.toNat % 65536 = 0)

/-- Tiles of the backing area that a die owns, across (R359). -/
def DieC.rsAcross (c : DieC) (die : Nat) : Nat := if die = 0 then c.rsTA else c.rsTW - c.rsTA

/-- The offset in the backing area of a tile by its die and local index (R359). -/
def DieC.rsOff (c : DieC) (die l : Nat) : Nat :=
  let n := c.rsAcross die
  8192 * (l / n * c.rsTW + (l % n + if die = 0 then 0 else c.rsTA))

/-- The lines of the backing area that a die owns: die, local index and line. -/
def DieC.rsOwned (c : DieC) (d : Nat) : List (Nat × Nat × Nat) :=
  (List.range (c.rsLayers * c.rsTH * c.rsAcross d)).flatMap (fun l => (List.range 64).map (fun j => (d, l, j)))
/-- All lines of the backing area. -/
def DieC.rsLines (c : DieC) : List (Nat × Nat × Nat) := c.rsOwned 0 ++ c.rsOwned 1

/-- The address of a line in the backing area. -/
def DieC.rsVa (c : DieC) (x : Nat × Nat × Nat) : Nat := c.rsBase + c.rsOff x.1 x.2.1 + 128 * x.2.2

/-- The leaf of a line's page, where it translates and lies in device memory. -/
def State.rsLeaf (s : State) (x : Nat × Nat × Nat) : Option Leaf :=
  match s.walk s.dieC.rsAs (s.dieC.rsVa x) with
  | .leaf l => if pteHost l.entry then none else some l
  | .absent => none
  | .bad _ => none
  | .poisoned _ => none

/-- Where a line lies while the store is off: by its page's HOME and IGRAN (R353). -/
def State.rsBacking (s : State) (x : Nat × Nat × Nat) : Option Nat := (s.rsLeaf x).map (fun l => l.phys (s.dieC.rsVa x))

/-- Where a line lies while the store is on: in the window, or in the memory of its tile's owning die (R359). -/
def State.rsHeld (s : State) (x : Nat × Nat × Nat) : Option Nat :=
  if s.dieC.rsInWindow x.2.1 then some (windowKey x.1 x.2.1 (128 * x.2.2))
  else (s.rsLeaf x).map (fun l => s.dieC.backingKey l (s.dieC.rsVa x) (s.dieC.rsVa x - s.dieC.rsBase))

/-- A read of a line translates. -/
def State.rsReads (s : State) (x : Nat × Nat × Nat) : Bool :=
  match s.access s.dieC.rsAs (s.dieC.rsVa x) .read 0 with
  | .ok _ => true
  | .error _ => false

/-- A line of 128 bytes takes what stood at a key, or zeros, with the marks of its sectors: it is at once what every agent reads, and it
wakes the spins that read the line at either place (R19). -/
def State.copyLine (s old : State) (from_ : Option Nat) (to_ : Nat) : State :=
  let cs := (List.range 128).map (fun i => (to_ + i, match from_ with
    | none => 0
    | some k => old.byteAt (k + i)))
  let bad := fun (j : Nat) => match from_ with
    | none => false
    | some k => old.marked (k + 32 * j)
  let t := { s with marks := (List.range 4).foldl (fun m j => fset false m (to_ / 32 + j) false) s.marks }
  let u := t.poke (t.effective cs)
  let gone := fun (p : Nat) => decide (to_ / 8 ≤ p) && decide (p < to_ / 8 + 16)
  (({ u with marks := (List.range 4).foldl (fun m j => fset false m (to_ / 32 + j) (bad j)) u.marks } : State).forget gone).wakeLines
    (distinct (memLine to_ :: (from_.map memLine).toList))

/-- Fill one line as the store takes force: from where it lay before, so that the records written there are served (R358).  A poisoned
line of the window is recorded (R451). -/
def State.fillLine (old s : State) (x : Nat × Nat × Nat) : State :=
  let from_ := if old.rsReads x then old.rsBacking x else none
  let win := old.dieC.rsInWindow x.2.1
  match old.rsHeld x with
  | none => s
  | some to_ =>
    if from_ = some to_ || (from_.isNone && !win) then s
    else
      let t := s.copyLine old from_ to_
      match from_ with
      | none => t
      | some k =>
        if win && (List.range 4).any (fun j => old.marked (k + 32 * j)) then t.logRas x.1 2 false (sliceOn k) (k % 2 ^ 37) else t

/-- Write one line back to where its page's HOME puts it. -/
def State.backLine (old s : State) (x : Nat × Nat × Nat) : State :=
  match old.rsBacking x, old.rsHeld x with
  | some to_, some k => if k = to_ then s else s.copyLine old (some k) to_
  | some _, none => s
  | none, some _ => s
  | none, none => s

/-- The registers take force, and every line goes to the home that the store gives it, the window's among them (R358, R359). -/
def State.fillStore (s : State) : State :=
  let t := s.onC (fun c => { c.rsNext with rsPhase := 1 })
  t.dieC.rsLines.foldl (State.fillLine t) t

/-- A write of RSCTL that sets EN (R358): the write is refused and EN reads 0, or the store is filled, after a write-back that is
under way. -/
def State.enableStore (s : State) (v : Word) : State :=
  let t := s.onC (fun c => { c with rsctl := rsctlStored v })
  if !t.dieC.rsCheck then t.onC (fun c => { c with rsctl := rsctlStored v &&& 0xFFFFFFFE })
  else if s.dieC.rsPhase = 3 then t.onC (fun c => { c with rsPhase := 4 })
  else t.fillStore

/-- RSCTL_ENABLE (R358). -/
def execRsctlEnable (v : Word) : Meaning := fun s =>
  if s.dieC.open_ && !s.dieC.rsEnabled && v.getLsbD 0 then .next (s.enableStore v) else .next s

/-- RESERVOIR_FILL_DONE: the accesses that wait are served from now on (R358). -/
def execReservoirFillDone : Meaning := fun s =>
  if s.dieC.rsPhase = 1 then .next (s.onC (fun c => { c with rsPhase := 2 })) else .next s

/-- RSCTL_DISABLE: EN reads 0 at once and the other fields are stored; the registers that were in force serve until the write-back has
ended (R358). -/
def execRsctlDisable (v : Word) : Meaning := fun s =>
  if s.dieC.open_ && s.dieC.rsEnabled && !v.getLsbD 0 then
    .next (s.onC (fun c => { c with rsctl := rsctlStored v, rsPhase := 3 }))
  else .next s

/-- An RSV.ST or a write to the window is on its way, or a command waits in a Sparge queue: what the write-back waits for (R358). -/
def State.rsBusy (s : State) : Bool :=
  s.groups.any (fun e => e.2.stores.any (fun r => r.applied.isNone && (r.rsvs || r.cells.any (fun c => isWindow c.1))))
    || s.sparges.any (fun e => !e.2.queue.isEmpty)

/-- RESERVOIR_WRITEBACK_DONE: the lines are written back; where EN has been set again, the fill begins (R358). -/
def execReservoirWritebackDone : Meaning := fun s =>
  if (s.dieC.rsPhase = 3 || s.dieC.rsPhase = 4) && !s.rsBusy then
    let t := s.dieC.rsLines.foldl (State.backLine s) s
    .next (if s.dieC.rsPhase = 4 then t.fillStore else t.onC (fun c => { c with rsPhase := 0 }))
  else .next s

end Sys2Proof.Machine
end

