-- ==== Sys2Proof/Machine/Grist.lean ====
section
/-!
DEFINITION.  Engine parameter records, and Grist, the key sorter (R357, R372, R373).
-/

namespace Sys2Proof.Machine

/-! ### Parameter records -/

/-- The lowest reason for which a slot fails as an engine's parameter record of a type (R175, R357): `form` is demanded of
the record alone; `later` is demanded of it with those of its argument scalars that lie in the file (log entry 58). -/
def State.recordReason (s : State) (tid etype : Nat) (form later : Desc → Bool) (past : Nat) : Option Nat :=
  match s.myTeam.slot tid with
  | none => some 1
  | some d =>
    if !Desc.allows d s.me.csr.role.toNat false then some 2
    else if Desc.kind d ≠ 5 || Desc.field d 4 1 ≠ etype then some 3
    else if !form d || !later d then some 4
    else if 128 < past then some 6
    else none

/-- The same, as a cause. -/
def State.recordCause (s : State) (tid etype : Nat) (form later : Desc → Bool) (past : Nat) : Option Cause :=
  (s.recordReason tid etype form later past).map (s.tensorId tid)

/-- Argument scalars as far as the file goes. -/
def argRun (ar n : Nat) : List (Nat × Nat) := [(ar, min n (128 - ar))]

/-- Two areas of bytes overlap. -/
def overlaps (a b : Nat × Nat) : Bool := decide (a.1 < b.1 + b.2) && decide (b.1 < a.1 + a.2) && decide (0 < a.2) && decide (0 < b.2)

/-- Some area of a list overlaps a later one. -/
def anyOverlap : List (Nat × Nat) → Bool
  | [] => false
  | a :: l => l.any (overlaps a) || anyOverlap l

/-! ### The record of a sort -/

/-- The fields of the record (R372). -/
def gK64 (d : Desc) : Bool := (Desc.field d 4 4).testBit 8
def gSeg (d : Desc) : Bool := (Desc.field d 4 4).testBit 9
def gBits (d : Desc) : Nat := bits (Desc.field d 4 4) 16 6
def gKeySize (d : Desc) : Nat := if gK64 d then 8 else 4
def gKin (d : Desc) : Nat := Desc.field d 0x08 8
def gVin (d : Desc) : Nat := Desc.field d 0x10 8
def gKout (d : Desc) : Nat := Desc.field d 0x18 8
def gVout (d : Desc) : Nat := Desc.field d 0x20 8
def gTmp (d : Desc) : Nat := Desc.field d 0x28 8
def gSegl (d : Desc) : Nat := Desc.field d 0x30 8

/-- The areas a sort of n pairs and k segments uses: the two inputs, the two outputs, then TMP and the segment list. -/
def gAreas (d : Desc) (n k : Nat) : List (Nat × Nat) :=
  let ks := gKeySize d
  [(gKin d, n * ks), (gVin d, n * 4), (gKout d, n * ks), (gVout d, n * 4), (gTmp d, n * (ks + 4))]
    ++ (if gSeg d then [(gSegl d, 4 * k)] else [])

/-- No two areas overlap but KOUT = KIN and VOUT = VIN (R372). -/
def gApart (d : Desc) (n k : Nat) : Bool :=
  let l := gAreas d n k
  let drop := (if gKout d = gKin d then [2] else []) ++ (if gVout d = gVin d then [3] else [])
  !anyOverlap ((mapFrom (fun i a => (i, a)) 0 l).filter (fun e => !drop.contains e.1) |>.map Prod.snd)

/-- The demands of reason 4 on the record (R357, R372). -/
def gristFields (d : Desc) : Bool :=
  let c := Desc.field d 4 4
  let ks := gKeySize d
  bits c 10 6 == 0 && bits c 22 10 == 0 && Desc.field d 0x38 72 == 0 && (gK64 d || decide (gBits d ≤ 32))
    && decide (gKin d % ks = 0) && decide (gKout d % ks = 0) && decide (gVin d % 4 = 0) && decide (gVout d % 4 = 0)
    && decide (gTmp d % 8 = 0) && (!gSeg d || decide (gSegl d % 4 = 0))

/-- The demands of reason 4 on the record with its arguments (R372). -/
def gristForm (n k : Nat) (d : Desc) : Bool :=
  decide (n ≤ 2 ^ 30) && (!gSeg d || (decide (1 ≤ k) && decide (k ≤ 2 ^ 24)))
    && (gAreas d n k).all (fun a => decide (a.1 + a.2 ≤ 2 ^ 56)) && gApart d n k

/-- The segment count of a GRIST; where its scalar is past the file, one that no demand fails for (R175; log entry 58). -/
def State.gristSegs (s : State) (ar : Nat) : Nat := if ar < 127 then (s.rs (ar + 1)).toNat else 1

/-! ### GRIST -/

/-- Argument scalars of a GRIST: two where the record has SEG (R372). -/
def State.gristArgs (s : State) (tid : Nat) : Nat := if gSeg (s.descOf tid) then 2 else 1

/-- The segments of a command. -/
def Cmd.gristN (c : Cmd) : Nat := (nth 0 c.args 0).toNat
def Cmd.gristK (c : Cmd) : Nat := (nth 0 c.args 1).toNat

/-- Commands the sorter queues (R372). -/
def gristCapacity : Nat := 64

/-- GRIST (R372). -/
def execGrist (tid : Tid) (ar tok : Reg) : Meaning :=
  bulk (fun s => argRun ar.toNat (s.gristArgs tid.toNat))
    (fun s => s.recordCause tid.toNat 2 gristFields (gristForm (s.rs ar.toNat).toNat (s.gristSegs ar.toNat))
      (ar.toNat + s.gristArgs tid.toNat)) tok
    (fun s => decide ((s.die (s.dieOf s.unit.g)).grist.length < gristCapacity))
    (fun s => s.command 7 tok 2 [s.rs ar.toNat, s.rs (ar.toNat + 1)] (s.descOf tid.toNat) [])
    (fun c s =>
      let d := s.dieOf s.unit.g
      s.setDie d { s.die d with grist := (s.die d).grist ++ [c] })

/-! ### Sorting -/

/-- A pair of a sort: its input position, its key, its value and the value's mark. -/
structure Pair where
  place : Nat
  key : Nat
  val : Word
  poison : Bool
  deriving DecidableEq, Repr

/-- The bits of a key that order it (R373). -/
def sortKey (kb key : Nat) : Nat := if kb = 0 then key else bits key 0 kb

/-- Insert a pair after those whose key is not above its own. -/
def insertPair (kb : Nat) (p : Pair) : List Pair → List Pair
  | [] => [p]
  | q :: l => if sortKey kb p.key < sortKey kb q.key then p :: q :: l else q :: insertPair kb p l

/-- Pairs in ascending order, equal keys in their input order (R373). -/
def sortPairs (kb : Nat) (l : List Pair) : List Pair := l.foldl (fun acc p => insertPair kb p acc) []

/-- The output of a sort: each segment sorted; `starts` holds the first position of each (R373). -/
def sortSegments (kb : Nat) : List Nat → List Pair → List Pair
  | [], _ => []
  | [_], l => sortPairs kb l
  | a :: b :: rest, l => sortPairs kb (l.take (b - a)) ++ sortSegments kb (b :: rest) (l.drop (b - a))

/-- The lowest entry that breaks a list of segment starts (R373). -/
def badStart (n : Nat) : Nat → Nat → List Nat → Option Nat
  | _, _, [] => none
  | k, prev, x :: l => if (k = 0 && x ≠ 0) || x < prev || n < x then some k else badStart n (k + 1) x l

/-- The pairs of a command that could read them all, from its block: per pair the key words, then the value (R373). -/
def Cmd.pairs (c : Cmd) : List Pair :=
  let w := gKeySize c.desc / 4
  (List.range c.gristN).map (fun i =>
    let k := (List.range w).map (fun j => (nth (0, false) c.block ((w + 1) * i + j)).1)
    let v := nth (0, false) c.block ((w + 1) * i + w)
    ⟨i, joinWords k, v.1, v.2⟩)

/-- The sorted pairs of a command. -/
def Cmd.sorted (c : Cmd) : List Pair :=
  sortSegments (gBits c.desc) (if gSeg c.desc then c.desc2.map BitVec.toNat else [0]) c.pairs

/-- The words of the inputs, those that could be read, with their marks. -/
def Cmd.inputs (c : Cmd) : List (Word × Bool) := c.block

/-! ### Reads and writes of the sorter -/

/-- An engine's read of input data at an address of a command. -/
def State.gristGet (s : State) (c : Cmd) (va n : Nat) : Got :=
  s.cmdRead c (Segs.covers c.seg (Desc.space c.desc) va n) va n

/-- Read pair i: the words of its key and of its value where they can be read, and what fault it meets (R373). -/
def State.gristPair (s : State) (c : Cmd) (i : Nat) : State × Cmd :=
  let ks := gKeySize c.desc
  let ka := gKin c.desc + i * ks
  let va := gVin c.desc + i * 4
  let k := s.gristGet c ka ks
  let v := s.gristGet c va 4
  let words := if k.fault.isSome then [] else (List.range (ks / 4)).map (fun j => (BitVec.ofNat 32 (bits k.val (32 * j) 32), k.bad))
  let value := if v.fault.isSome then [] else [(BitVec.ofNat 32 v.val, v.bad)]
  let c1 := { c with block := c.block ++ words ++ value }
  let c2 := match k.fault with
    | some f => c1.note f i
    | none => if k.bad then c1.note 0x0A i else c1
  ((s.engineTouch c.space ka .read).engineTouch c.space va .read, match v.fault with
    | some f => c2.note f i
    | none => c2)

/-- Read segment start k. -/
def State.gristStartAt (s : State) (c : Cmd) (k : Nat) : State × Cmd :=
  let a := gSegl c.desc + 4 * k
  let g := s.gristGet c a 4
  let c1 := { c with desc2 := c.desc2 ++ [BitVec.ofNat 32 g.val] }
  (s.engineTouch c.space a .read, match g.fault with
    | some f => c1.note f k
    | none => if g.bad then c1.note 0x0A k else c1)

/-- Write one word of an output or TMP, or note why not. -/
def State.gristPut (s : State) (c : Cmd) (va i n x : Nat) (bad : Bool) : State × Cmd :=
  match s.engineAt c.space (Segs.covers c.seg 0 va n) va .write with
  | .error f => (s, c.note f i)
  | .ok _ => s.cmdWrite c va n x bad

/-- A word of an area, left as it is or replaced by a word of some input, freely (R373). -/
def State.gristStray (s : State) (c : Cmd) (va i : Nat) : State × Cmd :=
  let n := c.inputs.length
  let pick := s.choice
  let t := s.spent
  if pick % (n + 1) = n then (t, c)
  else
    let w := nth (0, false) c.inputs (pick % (n + 1))
    let (u, d) := t.gristPut c va i 4 w.1.toNat w.2
    (u, { c with writes := d.writes })

/-- The words of an area of `n` bytes strays reach. -/
def State.gristStrays (s : State) (c : Cmd) (va n : Nat) : State × Cmd :=
  (List.range (n / 4)).foldl (fun p u => p.1.gristStray p.2 (va + 4 * u) u) (s, c)

/-- Write output position p of a sort (R373). -/
def State.gristOut (s : State) (c : Cmd) (p : Nat) : State × Cmd :=
  let ks := gKeySize c.desc
  let x := nth ⟨p, 0, 0, false⟩ c.sorted p
  let (s1, c1) := s.gristPut c (gKout c.desc + p * ks) x.place ks x.key false
  s1.gristPut c1 (gVout c.desc + p * 4) x.place 4 x.val.toNat x.poison

/-- The sorter touches TMP: each position's bytes must be writable; their words are strays (R373). -/
def State.gristTmp (s : State) (c : Cmd) : State × Cmd :=
  let per := gKeySize c.desc + 4
  (List.range (c.gristN * per / 4)).foldl (fun p u =>
    let va := gTmp c.desc + 4 * u
    match p.1.engineAt c.space (Segs.covers c.seg 0 va 4) va .write with
    | .error f => (p.1, p.2.note f (4 * u / per))
    | .ok _ => p.1.gristStray p.2 va (4 * u / per)) (s, c)

/-- Read all of a sort's input, and look at TMP; a broken list of starts is RESOURCE, and nothing more is read or written (R373). -/
def State.gristRead (s : State) (c : Cmd) : State × Cmd :=
  let (s1, c1) := if gSeg c.desc then (List.range c.gristK).foldl (fun p k => p.1.gristStartAt p.2 k) (s, c) else (s, c)
  match (if gSeg c.desc && c1.fault.isNone then badStart c.gristN 0 0 (c1.desc2.map BitVec.toNat) else none) with
  | some k => (s1, { c1 with fault := some (0x15, k) })
  | none =>
    let (s2, c2) := (List.range c.gristN).foldl (fun p i => p.1.gristPair p.2 i) (s1, c1)
    s2.gristTmp c2

/-- Replace a sort of a die's sorter. -/
def State.setGrist (s : State) (die : Nat) (c : Cmd) : State :=
  s.setDie die { s.die die with grist := (s.die die).grist.map (fun d => if d.id = c.id then c else d) }
/-- A sort leaves the sorter. -/
def State.dropGrist (s : State) (die : Nat) (c : Cmd) : State :=
  s.setDie die { s.die die with grist := (s.die die).grist.filter (fun d => d.id != c.id) }

/-- After a fault the outputs hold old words or words of the input (R373). -/
def State.gristSpoil (s : State) (c : Cmd) : State × Cmd :=
  let (s1, c1) := s.gristStrays c (gKout c.desc) (c.gristN * gKeySize c.desc)
  s1.gristStrays c1 (gVout c.desc) (c.gristN * 4)

/-- The faults of output position p, noted and nothing written (R373). -/
def State.gristLook (s : State) (c : Cmd) (p : Nat) : Cmd :=
  let ks := gKeySize c.desc
  let x := nth ⟨p, 0, 0, false⟩ c.sorted p
  let look := fun (c : Cmd) (va n : Nat) => match s.engineAt c.space (Segs.covers c.seg 0 va n) va .write with
    | .error f => c.note f x.place
    | .ok _ => c
  look (look c (gKout c.desc + p * ks) ks) (gVout c.desc + p * 4) 4

/-- The sorter goes on with a command whose input is read: some output positions, freely chosen; once one of them has faulted, those
that are left are looked at for a lower input position, and the areas are left as R373 says. -/
def State.gristAdvance (s : State) (die : Nat) (c : Cmd) : State :=
  if c.fault.isSome then
    let (t, d) := s.gristSpoil c
    (t.dropGrist die d).finish d 7
  else
    let left := c.gristN - c.done
    let n := if left = 0 then 0 else 1 + s.choice % left
    let (t, d) := (List.range n).foldl (fun p j => p.1.gristOut p.2 (c.done + j)) (s.spent, c)
    let e := { d with done := c.done + n }
    if e.fault.isSome then t.setGrist die ((List.range (e.gristN - e.done)).foldl (fun c j => t.gristLook c (e.done + j)) e)
    else if e.gristN ≤ e.done then (t.dropGrist die e).finish e 7 else t.setGrist die e

/-- The team of a command is there and not stopped, resident or saved (R274). -/
def State.lives (s : State) (team : Nat) : Bool :=
  match ffind s.teams team with
  | none => false
  | some t => !t.dead

/-- GRIST_START: the oldest sort of a die's sorter starts and reads its input (R373). -/
def execGristStart (die : Nat) : Meaning := fun s =>
  match (s.die die).grist with
  | [] => .next s
  | c :: _ =>
    if c.started || !s.lives c.team then .next s
    else
      let (t, d) := s.gristRead { c with started := true }
      .next (t.setGrist die d)

/-- GRIST_COMPLETE: the sorter goes on with its oldest sort, to its completion or a piece of the way (R373); one of a
stopped team ends without a token. -/
def execGristComplete (die : Nat) : Meaning := fun s =>
  match (s.die die).grist with
  | [] => .next s
  | c :: _ =>
    if !s.lives c.team then .next (s.dropGrist die c)
    else if c.started then .next (s.gristAdvance die c) else .next s

end Sys2Proof.Machine
end

