-- ==== Sys2Proof/Machine/Slots.lean ====
section
/-!
DEFINITION.  The launch slot table: its records, their checks, the width of a launch and the die of a team (R26, R135,
R152, R153, R156, R172, R338 to R341, R345, R348, R357, R366, R369, R456).
-/

namespace Sys2Proof.Machine

/-! ### The table -/

/-- x is at or after y (R341). -/
def atOrAfter (x y : Word) : Bool := decide ((x - y).toNat < 2 ^ 31)

/-- Slots of the table: SLOTCNT + 1 (R338). -/
def DieC.slotCount (c : DieC) : Nat := bits c.dispctl.toNat 16 12 + 1
/-- DISPCTL.EN, of a package that runs (R338, R447). -/
def State.dispatches (s : State) : Bool := s.dieC.dispctl.getLsbD 0 && s.dieC.open_ && !s.dieC.stopped
/-- DISPCTL.PREDIST (R338). -/
def DieC.predist (c : DieC) : Nat := bits c.dispctl.toNat 4 4

/-- The physical address of a slot's record, read by HOME of SLOTBASE (R338, R353). -/
def DieC.slotPa (c : DieC) (k : Nat) : Nat := bits c.slotbase.toNat 20 44 * 2 ^ 20 + 256 * k
/-- HOME and IGRAN of SLOTBASE. -/
def DieC.slotHome (c : DieC) : Nat := bits c.slotbase.toNat 9 2
def DieC.slotGran (c : DieC) : Nat := bits c.slotbase.toNat 11 2
/-- The key of a slot's record. -/
def State.slotKey (s : State) (k : Nat) : Nat := homeKey s.dieC.slotHome s.dieC.slotGran (s.dieC.slotPa k)
/-- The record lies in device memory. -/
def State.slotThere (s : State) (k : Nat) : Bool := decide (s.dieC.slotPa k + 256 ≤ homeSize s.dieC.slotHome)
/-- The way from die C to the home of a slot's record and back is open (R319, R327). -/
def State.slotOpen (s : State) (k : Nat) : Bool := s.waysOpen .dieC (homeEnd (s.slotKey k)) (planeOf (s.dieC.slotPa k))
/-- A word of a slot's record, as its home slice holds it (R340, R345). -/
def State.slotWord (s : State) (k off : Nat) : Word := s.wordAt (s.slotKey k + off)
/-- The dispatcher writes a word of a slot's record. -/
def State.putSlot (s : State) (k off : Nat) (w : Word) : State := s.write .dieC (cellsOf (s.slotKey k + off) w.toNat 4)
/-- The 64 words of a record. -/
def State.slotRecord (s : State) (k : Nat) : List Word := (List.range 64).map (fun j => s.slotWord k (4 * j))

/-- Offsets of the counters and of STATE (R339). -/
def offReq : Nat := 0xD0
def offAck : Nat := 0xD4
def offDone : Nat := 0xD8
def offState : Nat := 0xDC
/-- CTL.VALID and CTL.DEVL as they stand (R339). -/
def State.slotValid (s : State) (k : Nat) : Bool := (s.slotWord k 0x14).getLsbD 24
def State.slotDevl (s : State) (k : Nat) : Bool := (s.slotWord k 0x14).getLsbD 26

/-! ### Predecessors and STATE -/

/-- An enabled PRED entry of a slot: slot, REL and count (R339, R345). -/
structure Predecessor where
  slot : Nat
  rel : Bool
  count : Word
  deriving DecidableEq, Repr

/-- The enabled PRED entries of a slot. -/
def State.preds (s : State) (k : Nat) : List Predecessor :=
  (List.range 4).filterMap (fun j =>
    let w := s.slotWord k (0x70 + 8 * j)
    if w.getLsbD 15 then some ⟨bits w.toNat 0 12, w.getLsbD 12, s.slotWord k (0x74 + 8 * j)⟩ else none)

/-- An entry names a slot above SLOTCNT (R345). -/
def State.predBad (s : State) (k : Nat) : Bool := (s.preds k).any (fun p => decide (s.dieC.slotCount ≤ p.slot))

/-- The entries hold for an execution (R345). -/
def State.predsHold (s : State) (k : Nat) (num : Word) : Bool :=
  (s.preds k).all (fun p => atOrAfter (s.slotWord p.slot offDone) (if p.rel then p.count + num - 1 else p.count))

/-- An execution of a slot and number is there and not complete. -/
def State.running (s : State) (k : Nat) (num : Word) : Bool :=
  s.execs.any (fun e => e.2.slot == k && e.2.num == num && !e.2.complete)

/-- The number of the next execution of a slot to start (R342). -/
def State.nextNum (s : State) (k : Nat) : Word := s.slotWord k offDone + 1

/-- The next execution of a slot is accepted and has not started. -/
def State.owes (s : State) (k : Nat) : Bool := atOrAfter (s.slotWord k offAck) (s.nextNum k) && !s.running k (s.nextNum k)

/-- STATE of a slot as things stand (R339, R341, R345). -/
def State.stateOf (s : State) (k : Nat) : Word :=
  if fget false s.dieC.stalled k then 3
  else if s.execs.any (fun e => e.2.slot == k && !e.2.complete) then 2
  else if s.owes k && !s.predsHold k (s.nextNum k) then 1
  else 0

/-- The dispatcher writes STATE where it has changed. -/
def State.restate (s : State) (k : Nat) : State :=
  if s.slotWord k offState = s.stateOf k then s else s.putSlot k offState (s.stateOf k)

/-! ### The fields and their checks -/

/-- The fields of a record, further to those of `Exec` (R339). -/
def Exec.widthField (e : Exec) : Nat := e.field 0x10 1
def Exec.spread (e : Exec) : Bool := (e.ctl).testBit 1
def Exec.stagingBase (e : Exec) : Nat := e.field 0x58 8
def Exec.stagingSize (e : Exec) : Nat := 65536 * e.field 0x60 4
def Exec.ctxn (e : Exec) : Nat := e.field 0x64 4
def Exec.context (e : Exec) : Nat := e.field 0x68 8
/-- Bytes of a context block (R350). -/
def blockBytes : Nat := 2 ^ 22
/-- Descriptor t is named by TENSORS. -/
def Exec.names (e : Exec) (t : Nat) : Bool := (e.field 0xA8 8).testBit t
/-- The SUCCESSORS entry of an index 1–7: its slot, where EN is 1. -/
def Exec.successor (e : Exec) (n : Nat) : Option Nat :=
  let w := e.field (0x90 + 2 * (n - 1)) 2
  if w.testBit 15 then some (w % 4096) else none

/-- Reserved fields and bits are 0 (R339). -/
def Exec.reservedOk (e : Exec) : Bool :=
  e.field 0x26 2 == 0 && e.field 0x54 4 == 0 && e.field 0x9E 2 == 0 && decide (e.ctl / 8 = 0) && e.field 0x1B 1 == 0
    && (List.range 4).all (fun j => let w := e.field (0x70 + 8 * j) 4; bits w 13 2 == 0 && w / 65536 == 0)
    && (List.range 7).all (fun j => bits (e.field (0x90 + 2 * j) 2) 12 3 == 0)

/-- A segment's base and limit are in range (R157, R258). -/
def segOk (base limit : Nat) : Bool := decide (base ≤ limit) && decide (limit ≤ 2 ^ 56)

/-- The fields are in their ranges (R339); GRID of a successor is not read (R346). -/
def Exec.rangesOk (e : Exec) : Bool :=
  decide (e.field 0x00 8 % 4096 = 0) && decide (12 ≤ e.field 0x08 4) && decide (e.field 0x0C 4 % 4 = 0)
    && decide (e.widthField ≤ 4) && decide (e.priority ≤ 21) && decide (e.det ≤ 2) && decide (e.field 0x13 1 ≤ 2)
    && decide (1 ≤ e.shape) && decide (e.shape ≤ 1024) && decide (e.pool ≤ 7)
    && (e.parent.isSome || (decide (1 ≤ e.grid) && decide (e.grid ≤ 2 ^ 24))) && decide (e.scratch % 65536 = 0) && decide (e.scratch ≤ 2048 * 1024)
    && decide (e.args ≤ 8) && segOk (e.field 0x28 8) (e.field 0x30 8) && segOk (e.field 0x38 8) (e.field 0x40 8)
    && decide (e.field 0x50 4 % 32 = 0) && decide (e.stagingBase % 65536 = 0) && decide (e.ctxn ≤ 2 ^ 16)
    && decide (e.context % 65536 = 0)

/-- A register budget is legal (R155, R156). -/
def budgetOk (b : Nat) : Bool := decide (8 ≤ b) && decide (b ≤ 128) && decide (b % 8 = 0)

/-- The staging area meets neither the global nor the constant segment (R292). -/
def Exec.stagingOk (e : Exec) : Bool :=
  let lo := e.stagingBase
  let n := e.stagingSize
  let apart := fun (b l : Nat) => n == 0 || decide (lo + n ≤ b) || decide (l ≤ lo) || decide (l ≤ b)
  apart (e.field 0x28 8) (e.field 0x30 8) && apart (e.field 0x38 8) (e.field 0x40 8)

/-- The first page from an address to an end that does not translate with an access: the fault code, and an address in it; `fuel` counts
pages of 4 KiB. -/
def State.pagesOk (s : State) (space : Nat) (acc : Access) (end_ : Nat) : Nat → Nat → Option (Nat × Nat)
  | 0, _ => none
  | fuel + 1, va =>
    if end_ ≤ va then none
    else match s.access space va acc 0 with
      | .error c => some (c, va)
      | .ok l => s.pagesOk space acc end_ fuel (l.va + l.size)

/-- The fault code of a page of a context block that does not translate with an access, and an address in it (R340, R350, R355). -/
def State.contextFault (s : State) (e : Exec) (acc : Access) (from_ n : Nat) : Option (Nat × Nat) :=
  s.pagesOk e.as acc (from_ + n) (n / 4096 + 1) from_

/-- What a walk that fails reports, where an access failed so (R355). -/
def State.noteFault (s : State) (e : Exec) (f : Option (Nat × Nat)) : State :=
  match f with
  | some (6, va) => s.noteWalk e.as va
  | some _ => s
  | none => s

/-- The context area translates as readable and writable (R340). -/
def State.contextOk (s : State) (e : Exec) : Bool :=
  e.ctxn == 0 || (s.contextFault e .both e.context (e.ctxn * blockBytes)).isNone

/-! ### Raster records -/

/-- The raster record that makes an execution a raster execution (R366). -/
def Exec.rasterDesc (e : Exec) : Option Desc :=
  match (if e.names 63 then fget none e.tensors 63 else none) with
  | none => none
  | some d => if Desc.kind d = 5 && (Desc.field d 4 1 = 3 || Desc.field d 4 1 = 4) then some d else none

/-- The execution bins, or runs fragments (R366). -/
def Exec.bins (e : Exec) : Bool := match e.rasterDesc with
  | none => false
  | some d => Desc.field d 4 1 == 3
def Exec.fragments (e : Exec) : Bool := match e.rasterDesc with
  | none => false
  | some d => Desc.field d 4 1 == 4

/-- Fields of a raster record (R366). -/
def rSplat (d : Desc) : Bool := (Desc.field d 4 4).testBit 8
def rPrim (d : Desc) : Nat := Desc.field d 0x08 8
def rCount (d : Desc) : Nat := Desc.field d 0x10 4
def rW (d : Desc) : Nat := Desc.field d 0x14 2
def rH (d : Desc) : Nat := Desc.field d 0x16 2
def rKeys (d : Desc) : Nat := Desc.field d 0x18 8
def rVals (d : Desc) : Nat := Desc.field d 0x20 8
def rKcap (d : Desc) : Nat := Desc.field d 0x28 4
def rTmoff (d : Desc) : Nat := Desc.field d 0x2C 4
def rCnt (d : Desc) : Nat := Desc.field d 0x30 8
/-- Tiles of 32 × 32 across (R367). -/
def rTW (d : Desc) : Nat := (rW d + 31) / 32
def rTH (d : Desc) : Nat := (rH d + 31) / 32

/-- A raster record's reserved bits are 0 and its fields in range (R357, R366). -/
def rasterOk (d : Desc) : Bool :=
  Desc.field d 4 4 / 512 == 0 && decide (1 ≤ rW d) && decide (rW d ≤ 16384) && decide (1 ≤ rH d) && decide (rH d ≤ 16384)
    && Desc.field d 0x38 72 == 0
    && (if Desc.field d 4 1 = 3 then decide (rCount d ≤ 2 ^ 28) && Desc.field d 0x2C 4 == 0
        else Desc.field d 0x28 4 == 0 && decide (rTmoff d % 4096 = 0))

/-- Groups of a fragment team that are resident at once (R369). -/
def Exec.batchesAtOnce (e : Exec) : Nat := e.shape / e.width

/-- What a team of an execution asks of a core: for a fragment team, places for the batches it runs at once (R152, R369). -/
def Exec.asks (e : Exec) : Ask :=
  if e.fragments then
    ⟨e.pool, e.scratch, e.width, List.replicate e.batchesAtOnce (if e.producers = 0 then e.budgetC else max e.budgetP e.budgetC)⟩
  else e.ask

/-! ### The width of a launch -/

/-- The width that a code of WIDTH names. -/
def widthNamed (c : Nat) : Nat := 8 * 2 ^ c

/-- The least legal width from one on that gives a team no more than 32 groups (R26). -/
def raiseWidth (lanes w : Nat) : Nat := ([8, 16, 32, 64].find? (fun x => decide (w ≤ x) && decide (groupsOf lanes x ≤ 32))).getD 64

/-- F: the mean of the recorded fractions (R26). -/
def WidthEntry.mean (h : WidthEntry) : Frac :=
  (h.seen.foldl (fun a f => a.add ⟨f.1, f.2⟩) (Frac.ofInt 0)).mul ⟨1, h.seen.length⟩

/-- The width that the recorded fractions suggest (R26). -/
def WidthEntry.suggests (h : WidthEntry) : Nat :=
  let w := if h.mean.lt ⟨2, 5⟩ then h.width / 2 else if (Frac.mk 9 10).lt h.mean then 2 * h.width else h.width
  min 64 (max 8 w)

/-- The code segment base that the history table is looked up with (R26). -/
def Exec.codeBase (e : Exec) : Dword := BitVec.ofNat 64 (e.field 0x00 8)

/-- The width of AUTO on a die, and the die with the table's use noted (R26). -/
def Die.autoWidth (d : Die) (e : Exec) : Die × Nat :=
  if e.det ≠ 0 || 1 ≤ e.producers then (d, raiseWidth e.shape 32)
  else match d.history.find? (fun h => h.code == e.codeBase) with
    | none => (d, raiseWidth e.shape 32)
    | some h => ({ d with history := h :: d.history.filter (fun x => x.code != e.codeBase) }, raiseWidth e.shape h.suggests)

/-- A launch's fraction enters the table: the last eight are kept, in 256 entries (R26). -/
def Die.addFraction (d : Die) (e : Exec) : Die :=
  let old := ((d.history.find? (fun h => h.code == e.codeBase)).map WidthEntry.seen).getD []
  let seen := old ++ [(e.actSum, e.issues * e.width)]
  let h : WidthEntry := ⟨e.codeBase, e.width, seen.drop (seen.length - 8)⟩
  { d with history := (h :: d.history.filter (fun x => x.code != e.codeBase)).take 256 }

/-! ### The die of a team -/

/-- A die takes no team: it is fenced, or in reset (R348, R419). -/
def State.dieDown (s : State) (d : Nat) : Bool := decide (s.dieFence d ≠ 0) || decide ((s.die d).state = 3)

/-- The other die. -/
def otherDie (d : Nat) : Nat := if d = 0 then 1 else 0

/-- A die, or the other where it is down and the other is not (R348). -/
def State.upDie (s : State) (d : Nat) : Nat := if s.dieDown d && !s.dieDown (otherDie d) then otherDie d else d

/-- The die a saved team waits on (R350). -/
def State.savedDie (s : State) (t : Team) : Nat := s.upDie (coreDie t.core)

/-- A team waits to resume. -/
def State.waitsToResume (s : State) (t : Team) : Bool := t.saved && !t.dead && !(s.exec t.exec).fenced

/-- Teams pending for a die: new ones, and saved ones (R348 to R350). -/
def State.pendingOn (s : State) (d : Nat) : Nat :=
  s.execs.foldl (fun n e => n + (if d = 0 then e.2.pendA.length else e.2.pendB.length)) 0
    + (s.teams.filter (fun t => s.waitsToResume t.2 && s.savedDie t.2 == d)).length

/-- The die that the first two arguments point to (R348). -/
def State.pointed (s : State) (e : Exec) : Option Nat :=
  if e.args < 2 then none
  else
    let a := (e.argv 0).toNat + (e.argv 1).toNat * 2 ^ 32
    match s.walk e.as a with
    | .leaf l => if pteHost l.entry then none else some (keyDie (s.keyOf e.as l a))
    | .absent => none
    | .bad _ => none
    | .poisoned _ => none

/-- The die of all teams of an execution with SPREAD = 0 (R348). -/
def State.oneDie (s : State) (e : Exec) : Nat :=
  match s.pointed e with
  | some d => d
  | none => if s.pendingOn 1 < s.pendingOn 0 then 1 else 0

/-- The die of a team (R348); `d` is the one die of SPREAD = 0. -/
def State.dieFor (s : State) (e : Exec) (d team : Nat) : Nat := s.upDie (if e.spread then team % 2 else d)

/-! ### Reading a record -/

/-- The descriptor of slot t of an execution's TENSORS: none where its read fails, or it is not accepted (R172, R340). -/
def State.launchDesc (s : State) (e : Exec) (t : Nat) : Option (List Word) :=
  let va := e.field 0xA0 8 + 128 * t
  let got := (Machine.runs 17 va 128).map (fun r => match s.access e.as r.1 .read 0 with
    | .error _ => none
    | .ok l =>
      let key := s.keyOf e.as l r.1
      if s.tainted key then none else some (s.natAt key r.2, r.2))
  if got.any Option.isNone then none
  else
    let x := got.foldr (fun p n => match p with
      | none => n
      | some (v, k) => v + 2 ^ (8 * k) * n) 0
    let ws := (List.range 32).map (fun j => BitVec.ofNat 32 (x / 2 ^ (32 * j)))
    if Desc.accepted ws then some ws else none

/-- The slots that TENSORS names. -/
def Exec.named (e : Exec) : List Nat := (List.range 64).filter e.names

/-- What the reads of a launch's descriptors and of its context area's page tables leave (R340, R354, R355). -/
def State.noteLaunch (s : State) (e : Exec) : State :=
  let t := e.named.foldl (fun t k =>
    (Machine.runs 17 (e.field 0xA0 8 + 128 * k) 128).foldl (fun t r => t.engineTouch e.as r.1 .read) t) s
  if e.ctxn = 0 then t else t.noteFault e (s.contextFault e .both e.context (e.ctxn * blockBytes))

/-- The tensor table of a launch, as far as its descriptors are accepted. -/
def State.launchTable (s : State) (e : Exec) : FMap TensorSlot :=
  e.named.foldl (fun m t => match s.launchDesc e t with
    | none => m
    | some d => fset none m t (some d)) []

/-- RESOURCE at the start of an execution (R152, R153, R156, R292, R340, R345, R369), apart from its predecessors. -/
def State.refusesResource (s : State) (e : Exec) : Bool :=
  !e.reservedOk || !e.rangesOk || !e.stagingOk || !s.contextOk e || !budgetOk e.budgetP || !budgetOk e.budgetC
    || (if e.fragments then
          decide (e.batchesAtOnce = 0) || decide (32 < e.batchesAtOnce) || decide (e.batchesAtOnce < e.producers)
            || decide (e.scratch < rTmoff ((e.rasterDesc).getD []) + 4096)
        else decide (32 < e.groups) || decide (e.groups < e.producers))
    || (!e.bins && !e.asks.possible)

/-- TENSOR_ID at the start of an execution: its TVAL (R172, R357, R366). -/
def State.refusesTensor (s : State) (e : Exec) : Option Nat :=
  match e.named.find? (fun t => (s.launchDesc e t).isNone) with
  | some t => some (256 * t + 5)
  | none => match e.rasterDesc with
    | none => none
    | some d => if rasterOk d then none else some (256 * 63 + 4)

/-- The fault of an execution that is refused at its start: RESOURCE before TENSOR_ID (R340). -/
def State.refuses (s : State) (e : Exec) : Option FaultRec :=
  if s.refusesResource e then some (plainFault 0x15 0 true)
  else (s.refusesTensor e).map (fun v => plainFault 0x14 (BitVec.ofNat 32 v) true)

/-- An execution of a slot with the fields read now (R340). -/
def State.readExec (s : State) (k : Nat) (num : Word) : Exec :=
  let e := { Exec.blank with slot := k, num := num, record := s.slotRecord k, age := s.tick, began := s.tick }
  { e with tensors := s.launchTable e }

end Sys2Proof.Machine
end

