-- ==== Sys2Proof/Machine/Raster.lean ====
section
/-!
DEFINITION.  The tile rasteriser: binning, the coverage of primitives, and the fragments of a tile (R366 to R369).
-/

namespace Sys2Proof.Machine

/-! ### The rasteriser's accesses -/

/-- What follows an access of the rasteriser that does not translate, which the spec leaves open: freely a fault entry with
the access's code, freely fatal. -/
def State.rasterOpen (s : State) (ek code : Nat) : State :=
  let x := s.choice
  let t := if x % 2 = 0 then s else
    s.setExec ek ((s.exec ek).addFault { plainFault code (Config.freeWord (8 * s.fresh)) false with
      tvalh := Config.freeWord (8 * s.fresh + 1), fatal := x.testBit 1 })
  t.spent

/-- Words from an address, as an engine reads them at their home; a word that does not translate or is poisoned is free. -/
def State.rasterWords (s : State) (space va n : Nat) : List Word :=
  (List.range n).map (fun j =>
    let g := s.engineRead space true ((va + 4 * j) % 2 ^ 64) 4
    if g.fault.isSome || g.bad then Config.freeWord (2 ^ 40 * s.fresh + va + 4 * j) else BitVec.ofNat 32 g.val)

/-- The fault of the first of some words that does not translate. -/
def State.rasterFault (s : State) (space va n : Nat) : Option Nat :=
  (List.range n).findSome? (fun j => (s.engineRead space true ((va + 4 * j) % 2 ^ 64) 4).fault)

/-- Read words for an execution: what the walker does, and what a fault leaves open. -/
def State.rasterRead (s : State) (ek va n : Nat) : State × List Word :=
  let space := (s.exec ek).as
  let ws := s.rasterWords space va n
  let t := (List.range n).foldl (fun t j => t.engineTouch space ((va + 4 * j) % 2 ^ 64) .read) s
  match s.rasterFault space va n with
  | none => (t, ws)
  | some c => (t.rasterOpen ek c, ws)

/-- Write `n` bytes for an execution, as an engine of the die of its rasteriser (R299, R366). -/
def State.rasterWrite (s : State) (ek va n x : Nat) : State :=
  let space := (s.exec ek).as
  match s.access space va .write 0 with
  | .error c => (s.engineTouch space va .write).rasterOpen ek c
  | .ok _ => s.engineWrite (.dieEngine (s.upDie (s.exec ek).home)) space va n x false

/-! ### Primitives -/

/-- Words of a primitive (R366). -/
def primWords (splat : Bool) : Nat := if splat then 8 else 12

/-- The values of FP32 words, where none is NaN. -/
def exts (ws : List Word) : Option (List Ext) :=
  ws.foldr (fun w acc => match (val32 w).ext, acc with
    | some e, some l => some (e :: l)
    | some _, none => none
    | none, _ => none) (some [])

/-- The least and the greatest of a list of values. -/
def extBounds : List Ext → Ext × Ext
  | [] => (.pinf, .ninf)
  | e :: l => let b := extBounds l; (e.min b.1, e.max b.2)

/-- c − r and c + r, exact; none where both are infinite. -/
def extAround (c r : Ext) : Option (Ext × Ext) :=
  match c, r with
  | .fin a, .fin b => some (.fin (a.sub b), .fin (a.add b))
  | .fin _, .pinf => some (.ninf, .pinf)
  | .fin _, .ninf => some (.pinf, .ninf)
  | .ninf, .fin _ => some (.ninf, .ninf)
  | .pinf, .fin _ => some (.pinf, .pinf)
  | .ninf, .ninf => none
  | .ninf, .pinf => none
  | .pinf, .ninf => none
  | .pinf, .pinf => none

/-- The box of a primitive: x and y bounds (R367).  `.error true` where the primitive is skipped, `.error false` where its box is
open. -/
def primBox (splat : Bool) (w : List Word) : Except Bool ((Ext × Ext) × (Ext × Ext)) :=
  let f := fun k => nth 0 w k
  if splat then
    match (val32 (f 0)).ext, (val32 (f 1)).ext, (val32 (f 5)).ext, (val32 (f 6)).ext with
    | some cx, some cy, some r, some _ =>
      if r.lt (.fin (Frac.ofInt 0)) then .error true
      else match extAround cx r, extAround cy r with
        | some bx, some by_ => .ok (bx, by_)
        | some _, none => .error false
        | none, _ => .error false
    | some _, some _, some _, none => .error true
    | some _, some _, none, _ => .error true
    | some _, none, _, _ => .error true
    | none, _, _, _ => .error true
  else
    match exts [f 0, f 3, f 6], exts [f 1, f 4, f 7], exts [f 2, f 5, f 8] with
    | some xs, some ys, some _ => .ok (extBounds xs, extBounds ys)
    | some _, some _, none => .error true
    | some _, none, _ => .error true
    | none, _, _ => .error true

/-- The depth of a primitive: a splat's, or the least z of a triangle. -/
def primDepth (splat : Bool) (w : List Word) : Word :=
  if splat then nth 0 w 6 else fminmax false (fminmax false (nth 0 w 2) (nth 0 w 5)) (nth 0 w 8)

/-- The depth key of a depth's bits (R367). -/
def depthKey (w : Word) : Word :=
  let x := if w = 0x80000000 then 0 else w
  if x.getLsbD 31 then ~~~x else x ^^^ 0x80000000

/-- floor(e / 32), cut to a range. -/
def extTile (e : Ext) (lo hi : Int) : Int :=
  match e with
  | .ninf => lo
  | .pinf => hi
  | .fin q => max lo (min hi (q.mul ⟨1, 32⟩).floor)

/-- The tiles that bounds cover in one direction of `n` tiles (R367). -/
def tilesIn (b : Ext × Ext) (n : Nat) : List Nat :=
  let lo := (extTile b.1 0 n).toNat
  let hi := extTile b.2 (-1) ((n : Int) - 1)
  if hi < lo then [] else (List.range (hi.toNat + 1 - lo)).map (fun j => lo + j)

/-- The tiles of a box in row-major order, as ty × TW32 + tx (R367). -/
def tilesOf (d : Desc) (bx by_ : Ext × Ext) : List Nat := (tilesIn by_ (rTH d)).flatMap (fun ty => (tilesIn bx (rTW d)).map (fun tx => ty * rTW d + tx))

/-- The tiles of a primitive; where its box is open, some of the screen's, freely. -/
def State.primTiles (s : State) (d : Desc) (i : Nat) (w : List Word) : List Nat :=
  match primBox (rSplat d) w with
  | .ok b => tilesOf d b.1 b.2
  | .error true => []
  | .error false => (List.range (rTW d * rTH d)).filter (fun t => (Config.freeChoice (2 ^ 40 * s.fresh + i)).testBit t)

/-! ### Binning -/

/-- One entry of binning: its key and value, where its index is below KCAP (R367). -/
def State.binEntry (s : State) (ek : Nat) (d : Desc) (e key i : Nat) : State :=
  if rKcap d ≤ e then s
  else (s.rasterWrite ek ((rKeys d + 8 * e) % 2 ^ 64) 8 key).rasterWrite ek ((rVals d + 4 * e) % 2 ^ 64) 4 i

/-- One primitive of binning: the state, and the entries counted so far. -/
def State.binPrim (ek : Nat) (d : Desc) (p : State × Nat) (i : Nat) : State × Nat :=
  let n := primWords (rSplat d)
  let (t, w) := p.1.rasterRead ek ((rPrim d + 4 * n * i) % 2 ^ 64) n
  let ts := t.primTiles d i w
  let dk := (depthKey (primDepth (rSplat d) w)).toNat
  (ts.foldl (fun q tile => (q.1.binEntry ek d q.2 (tile * 2 ^ 32 + dk) i, q.2 + 1)) (t, p.2))

/-- The whole of a binning execution: entries, then the count; a count above KCAP is recorded (R367). -/
def State.binAll (s : State) (ek : Nat) (d : Desc) : State :=
  let (t, n) := (List.range (rCount d)).foldl (State.binPrim ek d) (s, 0)
  let u := (t.rasterWrite ek (rCnt d) 4 n).spent
  if rKcap d < n then u.setExec ek ((u.exec ek).addFault (plainFault 0x15 (BitVec.ofNat 32 (rKcap d)) false)) else u

/-! ### Coverage -/

/-- The edge function of a → b at a sample: positive on the interior side. -/
def edgeAt (ax ay bx by_ px py : Frac) : Frac := ((bx.sub ax).mul (py.sub ay)).sub ((by_.sub ay).mul (px.sub ax))

/-- The sample is on the interior side of a → b, or on it where it is a top or a left edge (R368). -/
def edgeCovers (ax ay bx by_ px py : Frac) : Bool :=
  let e := edgeAt ax ay bx by_ px py
  let zero := Frac.ofInt 0
  zero.lt e || (e.isZero && (by_.lt ay || (by_.same ay && ax.lt bx)))

/-- A triangle covers a sample (R368). -/
def triangleCovers (v : List Frac) (px py : Frac) : Bool :=
  let f := fun k => nth (Frac.ofInt 0) v k
  let a := edgeAt (f 0) (f 1) (f 2) (f 3) (f 4) (f 5)
  let zero := Frac.ofInt 0
  let three := fun (x0 y0 x1 y1 x2 y2 : Frac) =>
    edgeCovers x0 y0 x1 y1 px py && edgeCovers x1 y1 x2 y2 px py && edgeCovers x2 y2 x0 y0 px py
  if zero.lt a then three (f 0) (f 1) (f 2) (f 3) (f 4) (f 5)
  else if a.lt zero then three (f 0) (f 1) (f 4) (f 5) (f 2) (f 3)
  else false

/-- The rationals of FP32 words, where all are finite. -/
def fracs (ws : List Word) : Option (List Frac) :=
  ws.foldr (fun w acc => match (val32 w).frac, acc with
    | some e, some l => some (e :: l)
    | some _, none => none
    | none, _ => none) (some [])

/-- The sample of a screen coordinate. -/
def sampleAt (x : Nat) : Frac := ⟨2 * x + 1, 2⟩

/-- q of a splat at a screen pixel (R368). -/
def splatQ (w : List Word) (x y : Nat) : Word :=
  let at_ := fun (p : Nat) (c : Word) => (fsub (rne32 (.fin false (2 * p + 1) (-1))).1 c).1
  let m := fun (a b : Word) => (fmul a b).1
  let dx := at_ x (nth 0 w 0)
  let dy := at_ y (nth 0 w 1)
  (fadd (fadd (m (nth 0 w 2) (m dx dx)) (m 0x40000000 (m (nth 0 w 3) (m dx dy)))).1 (m (nth 0 w 4) (m dy dy))).1

/-- Whether a primitive covers the sample of a screen pixel, and its q (R368). -/
def primCovers (splat : Bool) (qcut : Word) (w : List Word) (x y : Nat) : Option Word :=
  if splat then
    let q := splatQ w x y
    let inBox := match (val32 (nth 0 w 0)).ext, (val32 (nth 0 w 1)).ext, (val32 (nth 0 w 5)).ext with
      | some cx, some cy, some r => (match extAround cx r, extAround cy r with
        | some bx, some by_ => bx.1.le (.fin (sampleAt x)) && (Ext.fin (sampleAt x)).le bx.2
            && by_.1.le (.fin (sampleAt y)) && (Ext.fin (sampleAt y)).le by_.2
        | some _, none => Config.rasterCovers w x y
        | none, _ => Config.rasterCovers w x y)
      | some _, some _, none => false
      | some _, none, _ => false
      | none, _, _ => false
    if inBox && (fcmp .le q qcut).1 then some q else none
  else
    let covered := match fracs [nth 0 w 0, nth 0 w 1, nth 0 w 3, nth 0 w 4, nth 0 w 6, nth 0 w 7] with
      | some v => triangleCovers v (sampleAt x) (sampleAt y)
      | none => Config.rasterCovers w x y
    if covered then some 0 else none

/-! ### Fragments -/

/-- The fragments of one key at position `pos` of its tile's run: pixels covered in order, with ranks from those before
(R368). -/
def keyFragments (d : Desc) (tile : Nat) (pos : Nat) (val : Word) (w : List Word) (before : List Fragment) : List Fragment :=
  (List.range 1024).filterMap (fun p =>
    let x := tile % rTW d * 32 + p % 32
    let y := tile / rTW d * 32 + p / 32
    if rW d ≤ x || rH d ≤ y then none
    else (primCovers (rSplat d) (BitVec.ofNat 32 (rCount d)) w x y).map (fun q =>
      ⟨BitVec.ofNat 32 (x + y * 65536), p, val, BitVec.ofNat 32 pos, q, (before.filter (fun f => f.pixel == p)).length⟩))

/-- A key as read: its tile part and its value. -/
structure RasterKey where
  tile : Nat
  val : Word
  deriving DecidableEq, Repr

/-- The keys before the first that is out of order, and that one's index (R368). -/
def orderedKeys : Nat → List RasterKey → List RasterKey × Option Nat
  | _, [] => ([], none)
  | _, [k] => ([k], none)
  | n, a :: b :: ks =>
    if b.tile < a.tile then ([a], some (n + 1))
    else let r := orderedKeys (n + 1) (b :: ks); (a :: r.1, r.2)

/-- The state of reading the runs of keys: finished tiles in order, latest first, and the run under way. -/
structure RunRead where
  tiles : List (Nat × List Fragment)
  tile : Nat
  pos : Nat
  frags : List Fragment
  deriving DecidableEq, Repr

/-- The next key joins the run of its tile, or begins one (R368). -/
def RunRead.add (r : RunRead) (d : Desc) (k : RasterKey) (w : List Word) : RunRead :=
  if r.pos ≠ 0 && r.tile = k.tile then
    { r with pos := r.pos + 1, frags := r.frags ++ keyFragments d k.tile r.pos k.val w r.frags }
  else
    { tiles := if r.pos = 0 then r.tiles else (r.tile, r.frags) :: r.tiles, tile := k.tile, pos := 1
      frags := keyFragments d k.tile 0 k.val w [] }

/-- The tiles of the runs, in order. -/
def RunRead.all (r : RunRead) : List (Nat × List Fragment) := (if r.pos = 0 then r.tiles else (r.tile, r.frags) :: r.tiles).reverse

/-- What a fragment execution reads when it starts: the tiles with their fragments; a key out of order is recorded (R368). -/
def State.readTiles (s : State) (ek : Nat) (d : Desc) : State × List (Nat × List Fragment) :=
  let (s1, cnt) := s.rasterRead ek (rCnt d) 1
  let n := min (nth 0 cnt 0).toNat (2 ^ 28)
  let (s2, keys) := (List.range n).foldl (fun (p : State × List RasterKey) i =>
    let (t, kw) := p.1.rasterRead ek ((rKeys d + 8 * i) % 2 ^ 64) 2
    let (u, vw) := t.rasterRead ek ((rVals d + 4 * i) % 2 ^ 64) 1
    (u, p.2 ++ [⟨(nth 0 kw 1).toNat, nth 0 vw 0⟩])) (s1, [])
  let (good, bad) := orderedKeys 0 keys
  let s3 := match bad with
    | none => s2
    | some i => s2.setExec ek ((s2.exec ek).addFault (plainFault 0x15 (BitVec.ofNat 32 i) false))
  let m := primWords (rSplat d)
  let (s4, r) := good.foldl (fun (p : State × RunRead) k =>
    let (t, w) := p.1.rasterRead ek ((rPrim d + 4 * m * k.val.toNat) % 2 ^ 64) m
    (t, p.2.add d k w)) (s3, ⟨[], 0, 0, []⟩)
  (s4.spent, r.all)

/-! ### Batches -/

/-- A fragment team of a tile (R366, R369, R370). -/
def Team.withTile (t : Team) (e : Exec) (frags : List Fragment) : Team :=
  { t with
    groups := min e.batchesAtOnce ((frags.length + e.width - 1) / e.width)
    tmoff := some (rTmoff ((e.rasterDesc).getD []))
    frags := frags }

/-- Batches of a fragment team. -/
def Team.batches (t : Team) : Nat := (t.frags.length + t.width - 1) / t.width

/-- The lanes of batch k: lane j holds fragment k · w + j (R369). -/
def batchLanes (w k : Nat) (frags : List Fragment) : List Lane :=
  (List.range w).map (fun j => match frags[k * w + j]? with
    | none => Lane.blank
    | some f => { Lane.start with pixel := f.pixel, rank := f.rank, screen := f.screen })

/-- v0 to v4 of the lanes of batch k (R369). -/
def batchRegs (w k : Nat) (frags : List Fragment) : FMap Word :=
  (List.range w).foldl (fun m j => match frags[k * w + j]? with
    | none => m
    | some f => (mapFrom (fun r x => (vkey j r, x)) 0 [f.screen, f.val, f.s, f.q, BitVec.ofNat 32 f.rank]).foldl
        (fun m e => fset 0 m e.1 e.2) m) []

/-- The group of batch k of a fragment team at a place of its core (R369). -/
def Exec.batch (e : Exec) (team : Nat) (t : Team) (k : Nat) (p : Place) (sb stamp : Nat) : Group :=
  { e.group team k { p with budget := e.budget k } sb 0 stamp with
    lanes := batchLanes e.width k t.frags
    v := batchRegs e.width k t.frags }

end Sys2Proof.Machine
end

