-- ==== Sys2Proof/Machine/Launch.lean ====
section
/-!
DEFINITION.  The package dispatcher: acceptance, the start and the completion of executions, LAUNCH, and the end of binning
(R340 to R348, R366, R367).
-/

namespace Sys2Proof.Machine

/-! ### Completion -/

/-- The number of the last version of a part whose writer satisfies a test; 0 where there is none. -/
def Part.lastBy (x : Part) (p : Agent → Bool) : Nat :=
  maxOf 0 (mapFrom (fun j (v : Version) => if p v.owner then j + 1 else 0) 0 x.versions)

/-- The writer is a team of a list, or an engine of a die acting for it. -/
def Agent.ofTeams (ts : List Nat) : Agent → Bool
  | .lane t _ _ => ts.contains t
  | .engine t _ _ => ts.contains t
  | .dieEngine _ => true
  | .dieC => true
  | .port _ => false

/-- Every write of a launch (R308). -/
def State.launchWrites (s : State) (ek : Nat) : Floors :=
  s.parts.foldl (fun f e =>
    let n := e.2.lastBy (Agent.ofTeams (s.exec ek).ran)
    if n = 0 then f else Floors.raise f e.1 n) []

/-- The words of a fault record for an execution (R343). -/
def FaultRec.words (f : FaultRec) (num : Word) : List Word :=
  [num, BitVec.ofNat 32 (f.code % 256 + (if f.fatal then 256 else 0) + 65536), f.tval, f.tvalh, f.lane, f.faddr, f.team, f.group]

/-- Write the fault record of an execution that faulted: whole where FSTAT is 0, else FCOUNT alone (R343). -/
def State.faultOut (s : State) (ek : Nat) : State :=
  let e := s.exec ek
  match e.fault with
  | none => s
  | some f =>
    let old := s.slotWord e.slot 0xE4
    if old = 0 then s.write .dieC (wordCells (s.slotKey e.slot + 0xE0) (f.words e.num))
    else s.putSlot e.slot 0xE4 (BitVec.ofNat 32 (old.toNat % 65536 + min (old.toNat / 65536 + 1) 65535 * 65536))

/-- The highest number j such that every execution up to j has completed, from the last one written (R342). -/
def doneFrom (done : List Word) : Nat → Word → Word
  | 0, j => j
  | n + 1, j => if done.contains (j + 1) then doneFrom done n (j + 1) else j

/-- DONESEQ after an execution has completed: a release at system scope of every write of the executions it covers (R308,
R342). -/
def State.doneOut (s : State) (ek : Nat) : State :=
  let e := s.exec ek
  let mine := s.dieC.early.filter (fun x => x.1 == e.slot)
  let old := s.slotWord e.slot offDone
  let j := doneFrom (e.num :: mine.map (fun x => x.2.1)) (mine.length + 1) old
  if j = old then s.onC (fun c => { c with early := c.early ++ [(e.slot, e.num, s.launchWrites ek)] })
  else
    let t := s.putSlot e.slot offDone j
    let gone := mine.filter (fun x => atOrAfter j x.2.1)
    let w := gone.foldl (fun f x => Floors.join f x.2.2) (t.launchWrites ek)
    (t.publish .dieC (.scope .sys) w).onC (fun c => { c with early := c.early.filter (fun x => !gone.contains x) })

/-- A launch of WIDTH AUTO that completes without fault appends its fraction; a successor does not (R26, R456). -/
def State.noteWidth (s : State) (ek : Nat) : State :=
  let e := s.exec ek
  if e.autow && e.fault.isNone && e.parent.isNone && decide (0 < e.issues) then s.setDie e.home ((s.die e.home).addFraction e)
  else s

/-- The place of a slot for the launches of the management controller, which have none (R450). -/
def controllerSlot : Nat := 2 ^ 16

/-- An execution completes: its fault record, DONESEQ, one event record (R342); a self-test of the management controller has no slot to
write them to (R450). -/
def State.completeExec (s : State) (ek : Nat) : State :=
  let e := s.exec ek
  if e.slot = controllerSlot then s.setExec ek { e with complete := true } else
  let s1 := ((s.setExec ek { e with complete := true }).faultOut ek).doneOut ek
  let s2 := s1.event 1 (BitVec.ofNat 32 e.slot) e.num (s1.slotWord e.slot 0xE4)
  (s2.noteWidth ek).restate e.slot

/-- No contribution of an execution waits for the ticket unit, or none will be applied (R291, R292, R420). -/
def State.drained (s : State) (ek : Nat) : Bool :=
  let r := s.exec (s.detRoot ek)
  (s.exec ek).discards || (r.staged.all (fun q => q.2.exec != ek) && r.batches.all (fun q => q.2.2.exec != ek))

/-- Every team of an execution has completed, been refused or been stopped, and no further team can join it (R342, R346). -/
def State.execDone (s : State) (ek : Nat) : Bool :=
  let e := s.exec ek
  (ffind s.execs ek).isSome && !e.complete && e.teams.isEmpty && e.pendA.isEmpty && e.pendB.isEmpty && e.raster.isNone
    && s.drained ek
    && (match e.parent with
      | none => true
      | some p => (ffind s.execs p).isNone || (s.exec p).complete)

/-- Teams of a fenced or failed execution that are not placed count as complete (R269, R420). -/
def Exec.cutPending (e : Exec) : Exec :=
  if e.fenced || e.failed then
    { e with pendA := [], pendB := [], tiles := [], raster := none, finished := e.finished + e.pendA.length + e.pendB.length }
  else e

/-- Complete every execution that is done, `n` times over. -/
def State.settleExecs (s : State) : Nat → State
  | 0 => s
  | n + 1 =>
    let t : State := { s with execs := fmapVals (fun _ (e : Exec) => e.cutPending) s.execs }
    (t.execs.foldl (fun (u : State) e => if u.execDone e.1 then u.completeExec e.1 else u) t).settleExecs n

/-- Executions that are complete and that no other continues are forgotten. -/
def State.purge (s : State) : State :=
  { s with execs := s.execs.filter (fun e => !e.2.complete || s.execs.any (fun x => x.2.parent == some e.1)) }

/-- What completes, completes (R342, R346). -/
def State.settle (s : State) : State := (s.settleExecs (s.execs.length + 1)).purge

/-! ### Acceptance -/

/-- A slot that the dispatcher watches, and whose record it reaches (R327). -/
def State.watches (s : State) (k : Nat) : Bool := s.dispatches && decide (k < s.dieC.slotCount) && s.slotOpen k

/-- The dispatcher sees a slot's REQSEQ: it accepts, or the slot is stalled, or a stall ends (R341). -/
def State.notify (s : State) (k : Nat) : State :=
  let r := s.slotWord k offReq
  let a := s.slotWord k offAck
  let d := (r - a).toNat
  if 2 ^ 20 < d then
    if fget false s.dieC.stalled k then s
    else
      let t := s.onC (fun c => { c with stalled := fset false c.stalled k true })
      (t.restate k).event 2 (BitVec.ofNat 32 k) r a
  else
    let t := s.onC (fun c => { c with stalled := fset false c.stalled k false })
    (if 1 ≤ d && s.slotValid k then t.putSlot k offAck r else t).restate k

/-- REQSEQ_NOTIFY (R341). -/
def execReqseqNotify (slot : Nat) : Meaning := fun s =>
  if !s.watches slot then .next s
  else if !s.slotThere slot then .fault (.noMemory (s.slotKey slot))
  else .next (s.notify slot)

/-! ### The start of an execution -/

/-- An execution enters with its fault, and completes at once: no team of it runs (R340). -/
def State.refuseExec (s : State) (e : Exec) (f : FaultRec) : State :=
  let ek := s.nextKey
  let t := { s.setExec ek { e.addFault f with total := 0 } with nextKey := ek + 1 }
  t.settle

/-- The width of an execution, resolved by a die (R26, R369). -/
def State.resolveWidth (s : State) (e : Exec) (die : Nat) : State × Nat :=
  if e.widthField ≠ 4 then (s, widthNamed e.widthField)
  else if e.rasterDesc.isSome then (s, 32)
  else
    let (d, w) := (s.die die).autoWidth e
    (s.setDie die d, w)

/-- The teams of a list that go to a die. -/
def State.bound (s : State) (e : Exec) (d die : Nat) (ts : List Nat) : List Nat := ts.filter (fun t => s.dieFor e d t == die)

/-- Teams of an execution become pending on their dies (R348). -/
def State.pendTeams (s : State) (ek d : Nat) (ts : List Nat) : State :=
  let e := s.exec ek
  s.setExec ek { e with pendA := s.bound e d 0 ts, pendB := s.bound e d 1 ts }

/-- The teams of a fragment execution: one for each tile of the runs; a tile without fragments has nothing to run (R368, R369).
-/
def State.pendTiles (s : State) (ek d : Nat) (desc : Desc) : State :=
  let (t, tiles) := s.readTiles ek desc
  let some_ := tiles.filter (fun x => !x.2.isEmpty)
  let e := t.exec ek
  (t.setExec ek { e with tiles := some_, total := tiles.length, finished := tiles.length - some_.length }).pendTeams ek d
    (some_.map Prod.fst)

/-- An execution starts: its fields are read and checked, and its teams become pending (R340, R342, R366, R368). -/
def State.startExec (s0 : State) (k : Nat) (num : Word) : State :=
  let e0 := s0.readExec k num
  let s := s0.noteLaunch e0
  let d := s.oneDie e0
  let first := s.dieFor e0 d 0
  let (s1, w) := s.resolveWidth e0 first
  let e := { e0 with width := w, autow := e0.widthField == 4, home := first }
  match s1.refuses e with
  | some f => s1.refuseExec e f
  | none =>
    let ek := s1.nextKey
    let s2 := { s1 with nextKey := ek + 1 }
    let t :=
      if e.bins then s2.setExec ek { e with raster := e.rasterDesc, home := s1.upDie d }
      else if e.fragments then (s2.setExec ek e).pendTiles ek d ((e.rasterDesc).getD [])
      else (s2.setExec ek { e with total := e.grid }).pendTeams ek d (List.range e.grid)
    (t.restate k).settle

/-- An execution of a slot may start: it is accepted, VALID is 1, and its predecessors' conditions hold or one of them names no
slot (R341, R342, R345). -/
def State.mayStart (s : State) (k : Nat) : Bool :=
  s.watches k && s.slotThere k && s.slotValid k && s.owes k && (s.predBad k || s.predsHold k (s.nextNum k))

/-- EXECUTION_START (R340, R342, R345, R348). -/
def execExecutionStart (slot : Nat) : Meaning := fun s =>
  if s.watches slot && !s.slotThere slot then .fault (.noMemory (s.slotKey slot))
  else if !s.mayStart slot then .next s
  else if s.predBad slot then
    .next (s.refuseExec { s.readExec slot (s.nextNum slot) with width := 8 } (plainFault 0x15 0 true))
  else .next (s.startExec slot (s.nextNum slot))

/-! ### The ticket unit, and binning -/

/-- TICKET_BATCH_APPLY (R291); what a failed launch of the chain contributed goes (R292, R420). -/
def execTicketBatchApply (e : Nat) (ok : Bool) : Meaning := fun s =>
  if (ffind s.execs e).isNone then .next s else .next (s.ticket e ok).settle

/-- RASTER_BINNING: a binning execution is done by a rasteriser, and completes when its count is written (R367). -/
def execRasterBinning (e : Nat) : Meaning := fun s =>
  match (s.exec e).raster with
  | none => .next s
  | some d =>
    if s.dieDown (s.upDie (s.exec e).home) then .next s
    else
      let t := s.binAll e d
      .next (t.setExec e { t.exec e with raster := none }).settle

/-! ### LAUNCH -/

/-- LAUNCH (R347): the count is read at issue, and the command goes to die C. -/
def execLaunch (slot : BitVec 12) (ar tok : Reg) : Meaning :=
  bulk (fun _ => [(ar.toNat, 1)]) (fun _ => none) tok (fun _ => true)
    (fun s => { s.command 0 tok slot.toNat [(s.rs ar.toNat).setWidth 16 |>.setWidth 32] [] [] with waited := s.tick })
    (fun c s => s.onC (fun d => { d with launches := d.launches ++ [c] }))

/-- The group's global writes before a command are acknowledged, as its release at system scope needs (R305, R347). -/
def State.launchReady (s : State) (c : Cmd) : Bool :=
  let g := s.grp c.group
  g.stores.all (fun r => decide (c.waited ≤ r.time) || r.doneAt .sys) && !s.redsBefore c.group c.waited

/-- A LAUNCH command ends with a token. -/
def State.endLaunch (s : State) (c : Cmd) (fault : Option Nat) : State :=
  (s.onC (fun d => { d with launches := d.launches.filter (fun x => x.id != c.id) })).finish
    { c with fault := fault.map (fun f => (f, 0)) } 0

/-- The add to REQSEQ, a release at system scope (R305, R347). -/
def State.launchAdd (s : State) (c : Cmd) : State :=
  let n := nth 0 c.args 0
  let r := s.slotWord c.op offReq + n
  let set := s.cumulative c.group .sys
  let t := (s.write (s.cmdAgent c) (cellsOf (s.slotKey c.op + offReq) r.toNat 4)).publish (s.agent c.group) (.scope .sys) set
  let u := t.publish (s.cmdAgent c) (.scope .sys) (t.latestOf (cellsOf (s.slotKey c.op + offReq) 0 4))
  u.onC (fun d => { d with launches := d.launches.map (fun x => if x.id = c.id then { x with started := true, block := [(r, false)] } else x) })

/-- A LAUNCH command's messages to die C and its token find their way, and die C reaches the slot (R319, R322, R327). -/
def State.launchOpen (s : State) (c : Cmd) : Bool :=
  s.tellOpen .dieC c && (decide (s.dieC.slotCount ≤ c.op) || s.slotOpen c.op)

/-- A LAUNCH command goes on: it is refused, adds, or sees its request accepted (R347). -/
def State.launchStep (s : State) (c : Cmd) : Answer :=
  if !s.lives c.team then .next (s.onC (fun d => { d with launches := d.launches.filter (fun x => x.id != c.id) }))
  else if !s.launchOpen c then .next s
  else if c.started then
    if atOrAfter (s.slotWord c.op offAck) (nth (0, false) c.block 0).1 then .next (s.endLaunch c none) else .next s
  else if !s.launchReady c then .next s
  else if s.dieC.slotCount ≤ c.op then .next (s.endLaunch c (some 0x15))
  else if !s.slotThere c.op then .fault (.noMemory (s.slotKey c.op))
  else if !s.slotValid c.op || !s.slotDevl c.op then .next (s.endLaunch c (some 0x15))
  else if nth 0 c.args 0 = 0 then .next (s.endLaunch c none)
  else .next (s.launchAdd c)

/-- LAUNCH_REQSEQ_ADD (R347). -/
def execLaunchReqseqAdd (id : Nat) : Meaning := fun s =>
  match s.dieC.launches.find? (fun c => c.id == id) with
  | none => .next s
  | some c => s.launchStep c

/-- DISPCTL_WRITE (R338): reserved bits are not kept. -/
def execDispctlWrite (v : Word) : Meaning := fun s =>
  if s.dieC.open_ then .next (s.onC (fun c => { c with dispctl := v &&& 0x0FFF00F1 })) else .next s

end Sys2Proof.Machine
end

