-- ==== Sys2Proof/Machine/Issue.lean ====
section
/-!
DEFINITION.  The issue of a unit: its address and lanes, its members, the checks of all members before any takes effect,
and what follows it (R10, R15 to R19, R26 to R33, R43, R44, R249, R261, R264, R363).

The meaning of an instruction is an argument here; `step` gives `exec`.
-/

namespace Sys2Proof.Machine

noncomputable section

/-! ### The issue address -/

/-- The lanes that may issue: RUN, and in supervisor mode of HSET (R15, R264). -/
def Group.runners (g : Group) : List Nat :=
  (List.range g.width).filter (fun i => (g.lane i).st == .run && (!g.csr.sup || g.csr.hset.getLsbD i))

/-- The issue address: the least lpc among those lanes (R15). -/
def Group.issueAddr (g : Group) : Option Word :=
  match g.runners with
  | [] => none
  | i :: is => some (BitVec.ofNat 32 (minOf 0 ((i :: is).map (fun j => (g.lane j).lpc.toNat))))

/-- The ACTIVE lanes at an address (R15). -/
def Group.activeAt (g : Group) (a : Word) : Lanes :=
  maskOf (fun i => g.runners.contains i && (g.lane i).lpc == a) g.width

/-- The cycle count a group sees. -/
def State.clockOf (s : State) (k : Nat) : Nat := s.cycle (s.dieOf k)

/-- The blocked unit has waited 64 cycles (R17). -/
def State.parkDue (s : State) (k : Nat) : Bool :=
  match (s.grp k).blocked with
  | none => false
  | some b => decide (b.since + 64 ≤ s.clockOf k) && !b.waits.isEmpty

/-- A group may issue: resident, not halted, stopped or retired, not asleep, not held, with no trap to enter (unless its unit is to
go on after a wait), no blocked unit whose lanes are to park (R17, R21), no spin to park, and with an issue address (R249). -/
def State.ready (s : State) (k : Nat) : Bool :=
  match ffind s.groups k with
  | none => false
  | some g =>
    let t := s.team g.team
    !g.retired && !t.dead && !t.halted && !t.saved && g.sleepTo == 0 && !g.hold.waits && (g.pend.isEmpty || g.hold != .none)
      && !s.parkDue k && decide (g.spin.count < 4) && g.issueAddr.isSome

/-! ### The unit -/

/-- A member of a unit: the instruction, its first word and that word's lpc. -/
structure Member where
  instr : Instr
  word : Word
  addr : Word
  deriving DecidableEq, Repr

/-- A chain as decoded from a slot on: its members, the slot and word that make it illegal, and the words it takes. -/
structure Chain where
  members : List Member
  bad : Option (Nat × Word)
  words : Nat
  deriving DecidableEq, Repr

/-- Put a member before a chain. -/
def Chain.cons (m : Member) (n : Nat) (c : Chain) : Chain := ⟨m :: c.members, c.bad, n + c.words⟩

/-- Decode a chain from a slot (R28, R30, R32): `seen` are the pipe classes of its earlier members. -/
def chainFrom (ws : List Word) (pkt : Nat) : Nat → Nat → List Pipe → Chain
  | 0, slot, _ => ⟨[], some (slot, 0), 0⟩
  | fuel + 1, slot, seen =>
    let w := nth 0 ws slot
    match decodeWords (ws.drop slot) with
    | .error _ => ⟨[], some (slot, w), 1⟩
    | .ok d =>
      let m : Member := ⟨d.instr, w, lpcAt pkt slot⟩
      match d.instr.pipe with
      | none => ⟨[], some (slot, w), d.words⟩
      | some c =>
        if seen.contains c then ⟨[], some (slot, w), d.words⟩
        else if !d.tied then ⟨[m], none, d.words⟩
        else if c = .b || 3 ≤ slot + d.words then ⟨[], some (slot, w), d.words⟩
        else (chainFrom ws pkt fuel (slot + d.words) (c :: seen)).cons m d.words

/-- The unit at an address of a packet. -/
def chainAt (ws : List Word) (a : Word) : Chain := chainFrom ws (pktOf a) 3 (slotOf a) []

/-- The state with a unit begun: its group as it stands is what the members read (R31). -/
def State.begin (s : State) (k : Nat) (mask : Lanes) (a next : Word) : State :=
  { s with unit := ⟨k, mask, a, a, next, 0, s.grp k, false, false, false, [], false, none, 0, 0⟩ }

/-- Free values that each member of a unit may use. -/
def freeStride : Nat := 4096

/-- The state in which the j-th member of a unit is executed, `base` being the counter of free values before the unit. -/
def State.member (s : State) (base j : Nat) (m : Member) : State :=
  { s with unit := { s.unit with addr := m.addr, word := m.word }, fresh := base + freeStride * j }

/-- The further instructions granted to the j-th member, whose fault may be reported after them (R44). -/
def State.grant (s : State) (late : Option (Nat × Nat)) (j : Nat) : State :=
  { s with unit := { s.unit with grace := match late with
      | some (k, d) => if k = j then d else 0
      | none => 0 } }

/-! ### Callables -/

/-- What a callable may execute (R363); NOP among it, with which the assembler fills the packets of a callable that R408 says runs
(DEDUCED; log entry 40). -/
def callableMay : Instr → Bool
  | .nop => true
  | .ldg _ _ _ _ _ _ => true
  | .ldgi _ _ _ _ _ => true
  | .ldk _ _ _ _ _ => true
  | .qpop _ q _ => q == 6
  | .qtry _ q _ => q == 6
  | .qpush q _ => q == 7
  | .qcnt _ _ => true
  | .smp _ _ _ _ _ _ _ _ => true
  | .bra _ => true
  | .bru _ _ _ => true
  | .brx _ _ _ => true
  | .jmpv _ => true
  | .callv _ _ => true
  | .ret _ => true
  | i => i.pipe == some .a || i.pipe == some .f || i.pipe == some .s

/-- Execute a member: ILLEGAL_INSTR for what a callable may not execute (R363). -/
def State.runMember (ex : Instr → State → Answer) (s : State) (m : Member) : Answer :=
  if s.myTeam.callable && !callableMay m.instr then .next (s.raise s.illegal) else ex m.instr s

/-! ### The checks of all members, then their effects -/

/-- The answer stops the unit: the machine has stopped, or the member has trapped. -/
def stopsUnit : Answer → Bool
  | .next t => t.unit.trapped
  | .fault _ => true
  | .refused _ => true

/-- The member waits. -/
def waitsUnit : Answer → Bool
  | .next t => t.unit.blocked
  | .fault _ => false
  | .refused _ => false

/-- One instruction of the lanes of a mask counts for a pending result or fault: a fault that a later instruction has run before
is a deferred one (R43, R44, R267). -/
def Look.count (mask : Lanes) (l : Look) : Look :=
  { l with
    left := l.left.map (fun e => if mask.getLsbD e.1 then (e.1, e.2 - 1) else e)
    fault := l.fault.map (fun c => { c with defer := c.defer || l.left.any (fun e => mask.getLsbD e.1) }) }

/-- One instruction of the unit counts towards the lookahead results that were pending before it (R43). -/
def Group.countLooks (g : Group) (mask : Lanes) (n : Nat) : Group :=
  { g with looks := mapFrom (fun j l => if j < n then l.count mask else l) 0 g.looks }

/-- The members take effect in slot order (R31); `late` grants one of them further instructions before its fault (R44).  No member
waits for what an earlier member of its unit has done: one that waits has been found by the trials. -/
def State.runMembers (ex : Instr → State → Answer) (base : Nat) (late : Option (Nat × Nat)) : State → Nat → List Member → Answer
  | s, _, [] => .next s
  | s, j, m :: ms =>
    let n := s.me.looks.length
    match ((s.member base j m).grant late j).runMember ex m with
    | .fault f => .fault f
    | .refused r => .refused r
    | .next t =>
      if t.unit.trapped || t.unit.blocked then .next t
      else (t.onMe (fun g => g.countLooks t.unit.mask (min n g.looks.length))).runMembers ex base late (j + 1) ms

/-- The instruction follows the accesses that earlier members of its unit make: it reads a descriptor as it issues (R31, R174), or hands
over what they release (R314; log entry 69). -/
def followsMembers : Instr → Bool
  | .tidset _ _ _ => true
  | .bar _ _ _ _ => true
  | .arrive _ _ _ => true
  | _ => false

/-- What such a member would do after the members before it: the fault that it would raise stands alone, without their effects, and
where it would wait the whole unit does (R31, R33, R174). -/
def State.trialAfter (ex : Instr → State → Answer) (s : State) (j : Nat) (m : Member) (before : List Member) : Answer :=
  let alone := s.member s.fresh j m
  match s.runMembers ex s.fresh none 0 before with
  | .next t =>
    if t.unit.trapped || t.unit.blocked then alone.runMember ex m
    else match (t.member s.fresh j m).runMember ex m with
      | .next u =>
        if u.unit.trapped then .next (match u.unit.why with
          | some c => alone.raise c
          | none => u)
        else if u.unit.blocked then .next alone.stall
        else .next alone
      | .fault f => .fault f
      | .refused r => .refused r
  | .fault f => .fault f
  | .refused r => .refused r

/-- What each member would do alone, from the state before the unit: ILLEGAL_INSTR for a word that makes the unit illegal,
after the members before it (R33).  What follows the accesses of the members before it is tried after their effects (R31). -/
def State.trials (ex : Instr → State → Answer) (s : State) (c : Chain) : List Answer :=
  mapFrom (fun j m => if followsMembers m.instr && j ≠ 0 then s.trialAfter ex j m (c.members.take j) else (s.member s.fresh j m).runMember ex m)
      0 c.members ++
    (match c.bad with
      | none => []
      | some (slot, w) =>
        let t := s.member s.fresh c.members.length ⟨.nop, w, lpcAt (pktOf s.unit.first) slot⟩
        [.next (t.raise t.illegal)])

/-- The lanes that every member can complete for, and what the others wait on (R17, R163). -/
def narrowing (mask : Lanes) (wait : Option Blocked) : List Answer → Lanes × Option Blocked
  | [] => (mask, wait)
  | .next t :: as =>
    if t.unit.mask = mask then narrowing mask wait as
    else narrowing (mask &&& t.unit.mask) t.me.blocked as
  | .fault _ :: as => narrowing mask wait as
  | .refused _ :: as => narrowing mask wait as

/-! ### After the unit -/

/-- The unit changed a register, a queue or a control register, or will by a pending result of its own (R18). -/
def Group.changed (a b : Group) : Bool :=
  a.v != b.v || a.vp != b.vp || a.p != b.p || a.s != b.s || a.sp != b.sp || a.tok != b.tok || a.queues != b.queues
    || { a.csr with spinp := false } != { b.csr with spinp := false } || a.seg != b.seg
    || (b.looks.drop a.looks.length).any (fun l => l.dests.any (fun d => decide (fget 0 b.v d.key ≠ d.val) || fget false b.vp d.key != d.poison))

/-- A branch (R127, R130). -/
def isBranch : Instr → Bool
  | .bra _ => true | .bru _ _ _ => true | .brx _ _ _ => true | .jmpv _ => true | .callv _ _ => true | .ret _ => true
  | _ => false

/-- The lanes of the unit that took a backward branch: those at the target of the lowest such lane (R18, R129). -/
def State.tookBack (s : State) (m : Member) : Option (Word × List Nat) :=
  let g := s.me
  let back := s.acts.filter (fun i => isBranch m.instr && decide ((g.lane i).lpc < m.addr) && (g.lane i).st == .run)
  match back with
  | [] => none
  | i :: _ => some ((g.lane i).lpc, back.filter (fun j => (g.lane j).lpc == (g.lane i).lpc))

/-- The spin detector sees an iteration end (R18). -/
def Spin.iterate (p : Spin) (null : Bool) (branch target : Word) (lanes : Lanes) : Spin :=
  let same := p.branch == branch && p.target == target && p.lanes == lanes
  let n := if !null then 0 else if same then p.count + 1 else 1
  ⟨branch, target, lanes, n, if n < 4 then [] else p.lines, decide (4 ≤ n) && p.woken⟩

/-- The spin detector's part in the end of a unit (R18, R20): `clean` is an lpc since which a lane has executed only
instructions without effect. -/
def State.noteSpin (s : State) (ms : List Member) : State :=
  let nonnull := s.unit.effect || s.pre.changed s.me
  let s1 := s.onMe (fun g => g.onLanes s.unit.mask (fun _ l => if nonnull then { l with clean := l.lpc, parkSum := 0 } else l))
  match ms.getLast? with
  | none => s1
  | some m => match s1.tookBack m with
    | none => s1
    | some (t, ls) =>
      let null := !nonnull && ls.all (fun i => decide ((s.me.lane i).clean ≤ t))
      s1.onMe (fun g => ls.foldl (fun h i => h.onLane i (fun l => { l with clean := t }))
        { g with spin := g.spin.iterate null m.addr t (maskOf ls.contains g.width) })

/-- A write of a scalar or queue register by one path wakes the spins of the others, and one that is about to park (R19). -/
def State.wakeSiblings (s : State) : State :=
  if s.pre.s = s.me.s && s.pre.queues = s.me.queues then s
  else s.onMe (fun g =>
    let h := g.wake s.now WaitOn.isSpin
    { h with spin := { h.spin with woken := h.spin.woken || decide (h.spin.lanes &&& s.unit.mask = 0) } })

/-- The number of lanes of a mask. -/
def laneCount (w : Nat) (m : Lanes) : Nat := (lanesOf w m).length

/-- The unit is a new issue, not one that goes on after a wait at its address (R17, R249). -/
def State.newIssue (s : State) : Bool :=
  match s.pre.blocked with
  | none => true
  | some b => b.addr != s.unit.first

/-- The order of R249: priority, then age, then group slot. -/
def before (a b : Group) : Bool :=
  if a.csr.prio ≠ b.csr.prio then decide (b.csr.prio < a.csr.prio)
  else if a.stamp ≠ b.stamp then decide (a.stamp < b.stamp)
  else decide (a.slot < b.slot)

/-- The first of a list of groups in the order of R249. -/
def State.firstOf (s : State) : List Nat → Option Nat
  | [] => none
  | k :: ks => match s.firstOf ks with
    | none => some k
    | some j => if before (s.grp j) (s.grp k) then some j else some k

/-- The partition of a group: 4 · core + partition. -/
def State.partOf (s : State) (g : Group) : Nat := 4 * (s.team g.team).core + g.part

/-- The group's unit is in its buffer and all its members are of pipe class A or F (R25). -/
def Group.coClass (g : Group) : Bool :=
  g.issueAddr.any (fun a => (g.ibuf.find? (fun e => e.1 == pktOf a)).any (fun e =>
    (chainAt e.2 a).members.all (fun m => m.instr.pipe == some .a || m.instr.pipe == some .f)))

/-- The datapath lanes that are ACTIVE in a group (R24, R25). -/
def Group.path (g : Group) : Lanes := g.activeAt (g.issueAddr.getD 0) <<< g.offset

/-- Two groups may issue in one slot: launch, issue address, lanes and mode (R25, R249). -/
def State.mayShare (s : State) (g h : Group) : Bool :=
  (s.team g.team).exec == (s.team h.team).exec && g.issueAddr == h.issueAddr && decide (g.path &&& h.path = 0) && g.csr.sup == h.csr.sup

/-- Insert a group into a list in the order of R249. -/
def State.insertBy (s : State) (k : Nat) : List Nat → List Nat
  | [] => [k]
  | j :: js => if before (s.grp k) (s.grp j) then k :: j :: js else j :: s.insertBy k js

/-- The most groups that issue in one slot (R25). -/
def coMost : Nat := 8

/-- The groups that are chosen with the unit's group, in the order of R249 (R25, R249). -/
def State.chosenWith (s : State) : List Nat :=
  let g := s.pre
  if (s.coreOf s.unit.g).noco || !g.coClass then []
  else
    let rs := (s.groups.filter (fun e => e.1 != s.unit.g && s.partOf e.2 == s.partOf g && s.ready e.1 && e.2.blocked.isNone
      && e.2.coClass)).map Prod.fst
    (rs.foldl (fun l k => s.insertBy k l) []).foldl (fun l k =>
      if decide (l.length + 1 < coMost) && s.mayShare g (s.grp k) && l.all (fun j => s.mayShare (s.grp j) (s.grp k)) then l ++ [k] else l) []

/-- The groups of a partition that have been chosen and have not issued (R249). -/
def State.chosen (s : State) (p : Nat) : List Nat := fget [] (s.core (p / 4)).slot (p % 4)
/-- Replace them. -/
def State.setChosen (s : State) (p : Nat) (l : List Nat) : State :=
  s.setCore (p / 4) { s.core (p / 4) with slot := fset [] (s.core (p / 4)).slot (p % 4) l }

/-- A group's age stamp is the current cycle (R249). -/
def State.stamp (s : State) (k : Nat) : State := s.onGrp k (fun g => { g with stamp := max g.stamp (s.cycle (s.dieOf k)) })

/-- The unit's group is chosen, with those that share its slot: one stamp for all; the others issue next (R249).  A group that has been
chosen so keeps its stamp (log entry 54). -/
def State.choose (s : State) : State :=
  let p := s.partOf s.pre
  if (s.chosen p).contains s.unit.g then s.setChosen p ((s.chosen p).filter (· != s.unit.g))
  else
    let js := s.chosenWith
    (s.unit.g :: js).foldl State.stamp (s.setChosen p js)

/-- An issue counts once, when the unit is chosen, and not again while it waits (R17): what `pick` says of the age stamps (R249), and in
user mode the sums of the AUTO rule, with all its ACTIVE lanes (R26). -/
def State.countIssue (s : State) (pick : State → State) : State :=
  if !s.newIssue then s
  else (pick s).onGrp s.unit.g (fun g =>
    if s.pre.csr.sup then g
    else { g with actSum := g.actSum + laneCount s.pre.width (s.pre.activeAt s.unit.first), issues := g.issues + 1 })

/-- A unit counts as an issue, with the groups chosen with it. -/
def State.stampIssue (s : State) : State := s.countIssue State.choose

/-- A fetch that fails counts as an issue of its group. -/
def State.stampAlone (s : State) : State := s.countIssue (fun s => s.stamp s.unit.g)

/-- The units a callable has issued from each unanswered pop on, the pop's own among them (R363). -/
def Group.countAsked (g : Group) : Group := { g with asked := g.asked.map (· + 1) }

/-- PARK_LIMIT of a callable that has issued more than 128 units between a pop of q6 and its push (R363). -/
def State.askedTooLong (s : State) : State :=
  if s.me.asked.any (fun n => decide (129 < n)) then
    let a := ((s.me.issueAddr).getD 0)
    s.enterTrap s.unit.g (s.me.activeAt a) ⟨0x11, 0, 0, s.me.logical s.lead, a, slotOf a, false, false⟩ false
  else s

/-- What follows a unit whose members have taken effect (R15, R17 to R19, R261, R264): `wait` is what lanes that could not
complete wait on. -/
def State.endUnit (s : State) (wait : Option Blocked) (ms : List Member) : State :=
  if (s.team s.me.team).dead then s
  else
    let s1 := s.advance
    let s2 := s1.onMe (fun g => { g with blocked := wait })
    let s3 := (s2.noteSpin ms).wakeSiblings
    let s4 := s3.onMe (fun g => g.endSup)
    let s5 := s4.stampIssue.raiseAfter
    let s6 := if s5.myTeam.callable then (s5.onMe Group.countAsked).askedTooLong else s5
    s6.onMe (fun g => g.settle s6.now)

/-- The unit waits for what some of its lanes wait for. -/
def State.waitFor (s : State) (wait : Option Blocked) : State :=
  let t := s.onMe (fun g => { g with blocked := wait })
  { t with unit := { t.unit with blocked := true } }

/-- The unit's members take effect for the lanes that can complete (R31, R33).  A chain takes effect for all its lanes at once: while some
of them wait the whole unit does, so that what acts once for the issue acts once, and the lanes that still wait after 64 cycles park and
leave it (R16, R17, R33; log entry 85). -/
def State.effects (ex : Instr → State → Answer) (s : State) (c : Chain) (late : Option (Nat × Nat)) (as : List Answer) : Answer :=
  let (mask, wait) := narrowing s.unit.mask none as
  let after := fun (t : State) => ({ t with fresh := s.fresh + freeStride * 4 } : State)
  if mask ≠ s.unit.mask && decide (1 < c.members.length) then .next (after (s.waitFor wait)).stampIssue
  else match State.runMembers ex s.fresh late { s with unit := { s.unit with mask := mask } } 0 c.members with
  | .fault f => .fault f
  | .refused r => .refused r
  | .next t =>
    if t.unit.trapped || t.unit.blocked then .next t.stampIssue
    else .next ((after t).endUnit wait c.members)

/-- The virtual address of a page fault of the unit: its TVAL and TVALH, but for private accesses the address that R158
forms, and for records the backing address (R238). -/
def State.faultVa (s : State) (c : Cause) : Nat :=
  let m := (majorOf s.unit.word).toNat
  let i := c.lane % s.pre.width
  if m = 0x2C || m = 0x2D then
    (s.pre.seg.pb.toNat + (s.myTeam.teamId.toNat * 1024 + c.lane) * s.pre.seg.pl.toNat + c.tval.toNat) % 2 ^ 64
  else if m = 0x39 then
    (s.dieC.rsNext.recordVa (bits c.tval.toNat 0 16) (bits c.tval.toNat 16 16) (s.rv i ((mA s.unit.word).toNat + 1)).toNat).getD 0
  else c.tval.toNat + c.tvalh.toNat * 2 ^ 32

/-- What the walk of a member has met that fails with PAGE_NOT_PRESENT in `t` is reported, whether its trap is taken or waits (R44,
R355). -/
def State.noteTrap (s t : State) : State :=
  match t.unit.why with
  | none => s
  | some c => if c.code = 6 then s.noteWalk t.space (t.faultVa c) else s

/-- The same for an answer. -/
def noteAnswer (t : State) : Answer → Answer
  | .next u => .next (u.noteTrap t)
  | .fault f => .fault f
  | .refused r => .refused r

/-- A unit that would leave its lanes waiting at a barrier or EXITED, or change the group's mode or segments: a deferred
fault is reported before it. -/
def settles : Instr → Bool
  | .bra _ => false | .bru _ _ _ => false | .brx _ _ _ => false | .jmpv _ => false | .callv _ _ => false | .ret _ => false
  | i => i.pipe == some .b

/-- The fault is TRIT_BYTE, for which no member of the unit writes (R126). -/
def State.tritFault (s : State) : Bool := s.unit.why.any (fun c => c.code == 0x0B)

/-- The further instructions after which the fault of the j-th member, which has trapped in `t`, is reported, freely; 0 where it is
reported at once (R44).  It may wait where no other member fails or waits, and where it is the unit's only member or members that do
not settle the group follow it; a TRIT_BYTE where it is the only member (R126; log entry 9). -/
def State.graceOf (s : State) (c : Chain) (as : List Answer) (j : Nat) (t : State) : Nat :=
  if t.unit.late = 0 || 1 < (as.filter stopsUnit).length || as.any waitsUnit then 0
  else if c.members.length = 1 || (!t.tritFault && decide (j + 1 < c.members.length)
      && (c.members.drop (j + 1)).all (fun m => !settles m.instr)) then
    Config.freeChoice (s.fresh + freeStride * 4 - 1) % (t.unit.late + 1)
  else 0

/-- Run a unit: the lowest member that fails its checks traps, at once or later; else the lowest that waits makes the unit wait; else
all take effect (R33, R44). -/
def State.runUnit (ex : Instr → State → Answer) (s : State) (c : Chain) : Answer :=
  let as := s.trials ex c
  match as.find? stopsUnit with
  | some (.next t) =>
    let j := as.findIdx stopsUnit
    let d := s.graceOf c as j t
    if d = 0 then .next (({ t with fresh := s.fresh + freeStride * 4 }).noteTrap t).stampIssue
    else noteAnswer t (s.effects ex c (some (j, d)) (as.filter (fun a => !stopsUnit a)))
  | some (.fault f) => .fault f
  | some (.refused r) => .refused r
  | none => match as.find? waitsUnit with
    | some (.next t) => .next ({ t with fresh := s.fresh + freeStride * 4 }).stampIssue
    | some (.fault f) => .fault f
    | some (.refused r) => .refused r
    | none => s.effects ex c none as

/-! ### Lookahead and deferred faults before a unit -/

/-- Write the pending results that the next `n` instructions of some lanes would be held for, oldest first (R43). -/
def Group.flushDue (g : Group) (mask : Lanes) (n : Nat) : Group :=
  let due := fun (l : Look) => l.fault.isNone && l.left.any (fun e => mask.getLsbD e.1 && decide (e.2 < n))
  g.looks.foldl (fun h l => if due l then (h.write l.dests).addFlags l.flags else h) { g with looks := g.looks.filter (fun l => !due l) }

/-- A fault is deferred (R44). -/
def Group.deferred (g : Group) : Bool := g.looks.any (fun l => l.fault.isSome)

/-- A deferred fault may wait no longer: some lane has used up its instructions (R44). -/
def Group.deferDue (g : Group) (mask : Lanes) (n : Nat) : Bool :=
  g.looks.any (fun l => l.fault.isSome && l.left.any (fun e => mask.getLsbD e.1 && decide (e.2 < n)))

/-- The lanes a deferred fault belongs to that have not exited. -/
def Look.lanes (g : Group) (l : Look) : Lanes :=
  maskOf (fun i => (l.left.map Prod.fst).contains i && (g.lane i).st != .exited) g.width

/-- A fault that no later instruction has run before is reported at its own unit, and its lanes return to it (R44, R267). -/
def Group.reportsAt (g : Group) : Group :=
  g.looks.foldl (fun h l => match l.fault with
    | none => h
    | some c => if c.defer then h else h.onLanes (l.lanes h) (fun _ x => { x with lpc := c.faddr })) g

/-- Deferred faults are reported: they are entered before the group's next issue (R44, R263). -/
def Group.report (g : Group) : Group :=
  { g.reportsAt with
    looks := g.looks.filter (fun l => l.fault.isNone)
    pend := g.pend ++ g.looks.filterMap (fun l => match l.fault with
      | none => none
      | some c => if l.lanes g = 0 then none else some (c, l.lanes g)) }

/-- A deferred fault is reported before a unit that is due for it, or that would fault, trap or settle the group. -/
def State.mustReport (s : State) (c : Chain) (as : List Answer) : Bool :=
  s.me.deferred && (s.me.deferDue s.unit.mask c.members.length || as.any stopsUnit || c.members.any (fun m => settles m.instr)
    || as.any (fun a => match a with
      | .next t => !t.unit.after.isEmpty
      | .fault _ => true
      | .refused _ => true))

/-! ### The issue of a group -/

/-- Issue a group at an address, from the words of its packet. -/
def State.issueWords (ex : Instr → State → Answer) (s : State) (k : Nat) (mask : Lanes) (a : Word) (ws : List Word) : Answer :=
  let c := chainAt ws a
  let s1 := s.onGrp k (fun g => g.flushDue mask c.members.length)
  let s2 := s1.begin k mask a (lpcAfter a c.words)
  if s2.mustReport c (s2.trials ex c) then .next (s1.onGrp k Group.report)
  else s2.runUnit ex c

/-- A fetch that fails (R10, R27, R272): attributed to the packet at slot 0 for a translation fault, and at the slot of the
issue address otherwise. -/
def State.fetchFails (s : State) (k : Nat) (mask : Lanes) (a : Word) (code : Nat) (tval tvalh : Word) : State :=
  if (s.grp k).deferred then s.onGrp k Group.report
  else
    let t := s.begin k mask a a
    let at_ := lpcAt (pktOf a) (if code = 6 || code = 7 then 0 else slotOf a)
    let u := { t with unit := { t.unit with addr := at_ } }
    let v := u.raise (u.cause code tval tvalh u.lead)
    (if code = 6 then v.noteWalk (v.spaceOf k) (tval.toNat + tvalh.toNat * 2 ^ 32) else v).spent.stampAlone

/-- One issue of a group: its unit is fetched where its buffer does not hold the packet (R136), once the packet's ways are open (R327),
and executed. -/
def State.issueGroup (ex : Instr → State → Answer) (s : State) (k : Nat) : Answer :=
  let g := s.grp k
  match g.issueAddr with
  | none => .next s
  | some a =>
    let mask := g.activeAt a
    match g.ibuf.find? (fun e => e.1 == pktOf a) with
    | some e => s.issueWords ex k mask a e.2
    | none => if !s.packetOpen k (pktOf a) then .next s else match s.fetch k (pktOf a) with
      | .fails code tval tvalh => .next (s.fetchFails k mask a code tval tvalh)
      | .words ws => (s.refill k (pktOf a) ws).issueWords ex k mask a (ws.map (fun e => e.1))

/-- The group of a partition that issues next among some that could: one that has been chosen, or the first in the order of R249. -/
def State.nextOf (s : State) (p : Nat) (ks : List Nat) : Option Nat :=
  match (s.chosen p).find? ks.contains with
  | some k => some k
  | none => s.firstOf ks

/-- The groups that may issue: of each partition the next of those that do not wait (R249), and each that waits, whose unit looks
again whether its wait is over (R17). -/
def State.issuers (s : State) : List Nat :=
  let rs := s.groups.filter (fun e => s.ready e.1)
  let ps := (rs.filter (fun e => e.2.blocked.isNone)).map (fun e => (s.partOf e.2, e.1))
  (distinct (ps.map Prod.fst)).filterMap (fun p => s.nextOf p ((ps.filter (fun e => e.1 == p)).map Prod.snd))
    ++ (rs.filter (fun e => e.2.blocked.isSome)).map Prod.fst

end

end Sys2Proof.Machine
end

