-- ==== Sys2Proof/Machine/Waits.lean ====
section
/-!
DEFINITION.  Events of one group: fetching, parking and waking, the ends of its waits, trap entry and register errors (R17
to R20, R43, R44, R136, R137, R140, R174, R193, R259, R261, R263, R271, R272, R290, R310, R311, R354, R371).
-/

namespace Sys2Proof.Machine

/-- A group is there, resident and running. -/
def State.groupRuns (s : State) (k : Nat) : Bool :=
  (ffind s.groups k).isSome && !(s.grp k).retired && !(s.team (s.grp k).team).dead && !(s.team (s.grp k).team).saved

/-! ### Fetching -/

/-- INSTRUCTION_FETCH: the packet of the issue address enters the buffer, or its fault is raised (R10, R27, R136, R272). -/
def execInstructionFetch (g pkt : Nat) : Meaning := fun s =>
  match (s.grp g).issueAddr with
  | none => .next s
  | some a =>
    if !s.ready g || pktOf a ≠ pkt || ((s.grp g).ibuf.any (fun e => e.1 == pkt)) || !s.packetOpen g pkt then .next s
    else match s.fetch g pkt with
      | .words ws => .next (s.refill g pkt ws)
      | .fails code tval tvalh => .next (s.fetchFails g ((s.grp g).activeAt a) a code tval tvalh)

/-! ### Parking and waking -/

/-- Park a lane. -/
def Lane.park (now : Nat) (w : WaitOn) (l : Lane) : Lane := { l with st := .parked, wait := w, parkedAt := now }

/-- BLOCK_PARK (R17). -/
def execBlockPark (g : Nat) : Meaning := fun s =>
  match (s.grp g).blocked with
  | none => .next s
  | some b =>
    if !s.parkDue g || !s.groupRuns g then .next s
    else
      let now := s.clockOf g
      .next (s.onGrp g (fun x =>
        ((b.waits.foldl (fun (y : Group) e => y.onLane e.1 (fun l => if l.st = .run && l.lpc = b.addr then l.park now e.2 else l))
          { x with blocked := none }).settle now)))

/-- SPIN_PARK: the spinning lanes park at the target of their branch (R18); they do not stay parked where a wake event has come
since they read what they wait for (R19, R23). -/
def execSpinPark (g : Nat) : Meaning := fun s =>
  let x := s.grp g
  if x.spin.count < 4 || !s.groupRuns g then .next s
  else
    let now := s.clockOf g
    let w := WaitOn.spin (if x.spin.lines.length ≤ 8 then x.spin.lines else [])
    let y := if x.spin.woken then x
      else x.onLanes x.spin.lanes (fun _ l => if l.st = .run && l.lpc = x.spin.target then l.park now w else l)
    .next (s.setGrp g ({ y with spin := Spin.blank, csr := { y.csr with spinp := true } }.settle now))

/-- PARK_TIMEOUT_WAKE: a lane parked for 4,096 cycles runs again (R19). -/
def execParkTimeoutWake (g i : Nat) : Meaning := fun s =>
  let l := (s.grp g).lane i
  if l.st = .parked && decide (l.parkedAt + 4096 ≤ s.clockOf g) && s.groupRuns g then
    .next (s.onGrp g (fun x => x.onLane i (fun l => l.wake (s.clockOf g))))
  else .next s

/-- Cycles a lane has spent parked with no instruction of effect between (R20). -/
def Lane.parkedFor (now : Nat) (l : Lane) : Nat := l.parkSum + (now - l.parkedAt)

/-- The lanes of a group that have reached the park limit. -/
def State.parkedOut (s : State) (k : Nat) : List Nat :=
  (List.range (s.grp k).width).filter (fun i =>
    ((s.grp k).lane i).st == .parked && decide (2 ^ 30 ≤ ((s.grp k).lane i).parkedFor (s.clockOf k)))

/-- PARK_LIMIT for the lanes that have reached the limit (R20). -/
def execParkLimit (g i : Nat) : Meaning := fun s =>
  let ls := s.parkedOut g
  if !ls.contains i || !s.groupRuns g then .next s
  else
    let x := s.grp g
    let j := minOf i ls
    let a := (x.lane j).lpc
    let c : Cause := ⟨0x11, 0, 0, x.logical j, a, slotOf a, false, false⟩
    let m := maskOf ls.contains x.width
    let y := x.onLanes m (fun _ l => { l with parkSum := 0, parkedAt := s.clockOf g })
    .next (s.setGrp g { y with pend := y.pend ++ [(c, m)] })

/-- LOOKAHEAD_RESULT: the n-th pending result is written, or its fault is reported (R43, R44, R79). -/
def execLookaheadResult (g n : Nat) : Meaning := fun s =>
  match ((s.grp g).looks.drop n).head? with
  | none => .next s
  | some l =>
    if !s.groupRuns g then .next s
    else .next (s.onGrp g (fun x =>
      if l.fault.isSome then x.report
      else
        let y := { x with looks := x.looks.take n ++ x.looks.drop (n + 1) }
        (y.write l.dests).addFlags l.flags))

/-! ### The ends of waits -/

/-- The hold of a group is over: its unit, issued again, goes on. -/
def State.pass (s : State) (k : Nat) (f : Option Cause) : State := s.onGrp k (fun g => g.pass f)

/-- An event of a group whose hold satisfies a test. -/
def heldEvent (k : Nat) (eff : Hold → State → Option State) : Meaning := fun s =>
  if !s.groupRuns k then .next s
  else match eff (s.grp k).hold s with
    | none => .next s
    | some t => .next t

/-- ICINV_DONE (R137). -/
def execIcinvDone (g : Nat) : Meaning :=
  heldEvent g (fun h s => match h with
    | .icinv lo hi => if (s.grp g).unacked .pkg then none else some ((s.icinvOf g lo hi).pass g none)
    | _ => none)

/-- TLBINV_DONE (R259). -/
def execTlbinvDone (g : Nat) : Meaning :=
  heldEvent g (fun h s => match h with
    | .tlbinv r => if (s.grp g).unacked .pkg then none else some ((s.tlbinvOf g r).pass g none)
    | _ => none)

/-- The descriptor of a held TIDSET arrives and is validated (R174). -/
def State.tidArrive (s : State) (k slot : Nat) (scr : Bool) (addr : Nat) : Option State :=
  let g := s.grp k
  let a := (g.blocked.map Blocked.addr).getD 0
  let u := s.begin k ((g.blocked.map Blocked.lanes).getD 0) a a
  if !scr && u.loadWaits .lane .rlx (u.descRuns addr) then none
  else
    let (t, ws) := u.tidRead scr addr
    let v := match descFault slot ws with
      | some (code, x) => t.pass k (some (t.cause code (BitVec.ofNat 32 x) 0 0))
      | none => (t.setSlot slot (some (ws.map Prod.fst))).pass k none
    some { v with unit := s.unit }

/-- TIDSET_DONE (R174). -/
def execTidsetDone (g : Nat) : Meaning :=
  heldEvent g (fun h s => match h with
    | .tidset slot scr addr => s.tidArrive g slot scr addr
    | _ => none)

/-- XFENCE_DONE (R193). -/
def execXfenceDone (g : Nat) : Meaning :=
  heldEvent g (fun h s => match h with
    | .xfence src dst sc =>
      if (s.grp g).fenceWaits src dst sc then none else some ((s.xfenceOf g src dst sc).pass g none)
    | _ => none)

/-- PHASE_DONE: the acknowledgements have arrived; a group that waits at a GBAR publishes and arrives (R310, R423). -/
def execPhaseDone (g : Nat) : Meaning :=
  heldEvent g (fun h s => match h with
    | .phase sc =>
      if (s.grp g).unacked sc then none
      else if (s.grp g).allBarred then if s.gbarWaits g then none else some (((s.onGrp g (fun x => { x with hold := .none })).gbarPublish g).unlock (s.grp g).team)
      else some ((s.phaseOf g sc).pass g none)
    | _ => none)

/-- FENCE_ACQ_DONE (R311, R312). -/
def execFenceAcqDone (g : Nat) : Meaning :=
  heldEvent g (fun h s => match h with
    | .fenceAcq sc => if (s.grp g).hostOps.isEmpty then some ((s.fenceAcqOf g sc).pass g none) else none
    | _ => none)

/-- REDFLUSH_DONE (R290). -/
def execRedflushDone (g : Nat) : Meaning :=
  heldEvent g (fun h s => match h with
    | .redflush => if (s.grp g).redsOut = 0 then some (s.pass g none) else none
    | _ => none)

/-- SLEEP_END (R140). -/
def execSleepEnd (g : Nat) : Meaning := fun s =>
  let x := s.grp g
  if s.groupRuns g && x.sleepTo != 0 && decide (x.sleepTo ≤ s.clockOf g) then .next (s.setGrp g { x with sleepTo := 0 }) else .next s

/-! ### Trap entry -/

/-- A group may enter the traps it keeps: no unit of its own waits for a host (R263). -/
def Group.mayEnter (g : Group) : Bool :=
  !g.pend.isEmpty && (g.hold == .none || (g.hold.waits && g.hold != .hostAtomic))

/-- TRAP_ENTRY: the traps raised outside an issue, after a unit or late are entered before the group's next issue; a held
unit is abandoned and issued again after (R44, R261, R263, R273). -/
def execTrapEntry (g : Nat) : Meaning := fun s =>
  if !s.groupRuns g || (s.team (s.grp g).team).halted || !(s.grp g).mayEnter then .next s
  else
    let t := s.onGrp g (fun x => { x.report with hold := if x.allBarred then x.hold else .none })
    .next (t.enterPend g)

/-- ORD_TIMEOUT (R371). -/
def execOrdTimeout (g : Nat) : Meaning := fun s => if s.groupRuns g then .next (s.ordTimeout g) else .next s

/-! ### Register errors -/

/-- REGISTER_ECC_ERROR: kind 0 a vector word of a lane, latent where the lane is not ACTIVE, 1 a scalar word, any other control state,
which is fatal at once (R271, R272). -/
def execRegisterEccError (g kind i r : Nat) : Meaning := fun s =>
  if !s.groupRuns g then .next s
  else
    let core := (s.team (s.grp g).team).core
    let idle := kind = 0 && !((s.grp g).activeAt ((s.grp g).issueAddr.getD 0)).getLsbD i
    let t := s.logRas (coreDie core) 1 idle core r
    if kind = 0 && decide (i < (s.grp g).width) && decide (r < 128) then
      .next (t.onGrp g (fun x => { x with vp := fset false x.vp (vkey i r) true }))
    else if kind = 1 && decide (r < 127) then .next (t.onGrp g (fun x => { x with sp := fset false x.sp r true }))
    else if kind ≤ 1 then .next s
    else
      let a := ((s.grp g).lane i).lpc
      .next (t.enterTrap g (BitVec.ofNat 64 (2 ^ (i % 64))) ⟨0x0A, 0x300, 0, (s.grp g).logical i, a, slotOf a, false, false⟩ false)

/-- REGISTER_SCRUB: the scrub visits a register row: words of it, freely, and its scalar word, are found bad and marked, each with a
latent record; a corrected error is counted (R271, R451). -/
def execRegisterScrub (g row : Nat) : Meaning := fun s =>
  if !s.groupRuns g || 128 ≤ row then .next s
  else
    let core := (s.team (s.grp g).team).core
    let d := coreDie core
    let ls := (List.range (s.grp g).width).filter (fun i => s.choice.testBit i)
    let t := ls.foldl (fun t i =>
      (t.onGrp g (fun x => { x with vp := fset false x.vp (vkey i row) true })).logRas d 1 true core row) s
    let u := if s.choice.testBit 65 && decide (row < 127) then
        (t.onGrp g (fun x => { x with sp := fset false x.sp row true })).logRas d 1 true core row
      else t
    .next (if s.choice.testBit 64 then u.corrected d else u).spent

/-! ### Page walks -/

/-- PAGE_WALK: a walk of an address completes: the leaf is cached, A is set, and D before a first write; a walk that fails
is reported (R354, R355). -/
def execPageWalk (space va : Nat) (w : Bool) : Meaning := fun s =>
  match s.walk space va with
  | .leaf l => .next (s.touch space l (w && pteW l.entry))
  | .absent => .next s
  | .bad _ => .next (s.noteWalk space va)
  | .poisoned _ => .next (s.noteWalk space va)

end Sys2Proof.Machine
end

