-- ==== Sys2Proof/Machine/Teams.lean ====
section
/-!
DEFINITION.  The lives of teams: retirement, completion and successors, fatal traps, placement, and pre-emption (R133 to R135,
R151, R187, R199, R220, R221, R261, R269, R270, R273, R274, R292, R346, R348 to R350, R369, R456).
-/

namespace Sys2Proof.Machine

/-! ### The end of a team -/

/-- A team gives up the Tun of its core, and its place in the request order (R198, R199). -/
def State.leaveTun (s : State) (tk : Nat) : State :=
  let c := (s.team tk).core
  s.onTun c (fun u => (u.leaveOrder tk).giveUp tk (s.cycle (coreDie c)))

/-- A team leaves the machine: its execution counts it as finished, its context block is free, package barriers look again (R350, R423),
and so do the teams that are left, of which one may now wait at a phase that cannot complete (R167). -/
def State.endTeam (s : State) (tk : Nat) : State :=
  let t := s.team tk
  let s1 := s.dropTeam tk
  let e := s1.exec t.exec
  let s2 := s1.setExec t.exec { e with
    teams := e.teams.filter (· != tk)
    finished := e.finished + 1
    blocks := match t.block with
      | none => e.blocks
      | some b => e.blocks.filter (· != b) }
  let s3 := (s2.exec t.exec).gbars.foldl (fun u b => u.recheckGbar t.exec b.1) s2
  ((s3.exec t.exec).teams.foldl (fun u k => u.unlock k) s3).settle

/-- The team's part in a fault record that names it and no group (R343): GROUPID is open. -/
def State.teamFault (s : State) (tk code : Nat) (tval : Word) : FaultRec :=
  { plainFault code tval true with team := (s.team tk).teamId, group := Config.freeWord (8 * s.fresh + 7) }

/-- Of two EFAULTs with their GROUPIDs, that of the lower; one that is 0 does not count. -/
def lowerEfault (x : Option (Nat × Word)) (g : Group) : Option (Nat × Word) :=
  if g.csr.efault = 0 then x
  else match x with
    | none => some (g.index, g.csr.efault)
    | some y => if g.index < y.1 then some (g.index, g.csr.efault) else x

/-- EFAULT of the group of the lowest GROUPID that holds one enters the fault record, at team completion (R270). -/
def State.noteEfault (s : State) (tk : Nat) : State :=
  let t := s.team tk
  match (t.groupKeys tk).foldl (fun x k => lowerEfault x (s.grp k)) t.efault with
  | none => s
  | some (i, w) =>
    s.setExec t.exec ((s.exec t.exec).addFault
      ⟨bits w.toNat 0 8, BitVec.ofNat 32 (bits w.toNat 8 24), 0, 0, 0, t.teamId, BitVec.ofNat 32 i, false⟩)

/-- A team that could not spill completes: its launch is fenced (R292). -/
def State.noteSpill (s : State) (tk : Nat) : State :=
  let t := s.team tk
  match (s.exec t.exec).spillFault with
  | some (code, u) => if u = tk then (s.fence t.exec (s.teamFault tk code 0)).spent else s
  | none => s

/-! ### Successors -/

/-- The index that logical lane 0 named (R135). -/
def Team.named (t : Team) : Nat := ((t.exits.find? (fun x => x.lane == 0)).map Exited.index).getD 0

/-- The lowest logical lane of some exits. -/
def lowestExit (x : Exited) : List Exited → Exited
  | [] => x
  | y :: ys => lowestExit (if y.lane < x.lane then y else x) ys

/-- SUCCESSOR_MISMATCH, attributed to an EXIT (R135). -/
def Exited.mismatch (x : Exited) (team tval : Word) : FaultRec :=
  ⟨0x16, tval, 0, BitVec.ofNat 32 x.lane, x.addr, team, BitVec.ofNat 32 x.group, true⟩

/-- The indices differ (R135). -/
def Team.mismatch (t : Team) : Option FaultRec :=
  match t.exits.filter (fun x => x.index != t.named) with
  | [] => none
  | x :: xs => some ((lowestExit x xs).mismatch t.teamId 0)

/-- The entry that a team's index names is not empty: its slot (R346). -/
def State.successorSlot (s : State) (tk : Nat) : Option Nat :=
  let t := s.team tk
  match (s.exec t.exec).successor t.named with
  | none => none
  | some k => if s.dieC.slotCount ≤ k || !s.slotThere k || !s.slotValid k then none else some k

/-- A successor of these fields may start in place of a team (R135, R456): its budgets are compared as declared, and group by group
(log entry 76). -/
def State.fitsPlace (s : State) (tk : Nat) (e : Exec) : Bool :=
  let t := s.team tk
  let f := s.exec t.exec
  e.pool == f.pool && decide (e.scratch ≤ f.scratch) && decide (e.budgetP ≤ f.budgetP) && decide (e.budgetC ≤ f.budgetC)
    && decide (e.shape ≤ f.shape) && (e.widthField == 4 || widthNamed e.widthField == t.width)
    && decide (groupsOf e.shape t.width ≤ t.groups)
    && (List.range (groupsOf e.shape t.width)).all (fun j => decide (e.budget j ≤ f.budget j))

/-- The first team of an execution that names a slot opens an execution of it, which is accepted with every earlier request
(R346).  One that R340 refuses has its fault and runs no team. -/
def State.openHeir (s : State) (tk k : Nat) : State × Nat :=
  let t := s.team tk
  let n := s.slotWord k offReq + 1
  let s1 := (s.putSlot k offReq n).putSlot k offAck n
  let hk := s1.nextKey
  let s1 := s1.noteLaunch (s1.readExec k n)
  let e0 := { s1.readExec k n with width := t.width, parent := some t.exec, home := (s.exec t.exec).home }
  let e := { e0 with autow := e0.widthField == 4 }
  let h := match s1.refuses e with
    | none => e
    | some f => { e.addFault f with fenced := true }
  let s2 := { s1.setExec hk h with nextKey := hk + 1 }
  let f := s2.exec t.exec
  ((s2.setExec t.exec { f with heirs := f.heirs ++ [(k, hk)] }).onC (fun c => { c with stalled := fset false c.stalled k false }), hk)

/-- Every global store of a team's groups, those of the batches that have retired among them (R135, R369). -/
def State.storesOf (s : State) (tk : Nat) : Floors :=
  let t := s.team tk
  (t.groupKeys tk).foldl (fun f k => Floors.join (Floors.join f (s.grp k).lowLane) (s.grp k).lowRsvs) (Floors.join t.pastLane t.pastRsvs)

/-- A group of a successor team, at the place of the completing team's; its loads see every global store of its predecessor (R135,
R456, R291). -/
def State.heirGroup (s : State) (e : Exec) (old new j epoch : Nat) : Group :=
  let g := s.grp (groupKey old j)
  let x := e.group new j ⟨g.part, g.offset, g.slot, g.width, e.budget j⟩ (s.team old).sb (e.shape - j * e.width)
    (s.cycle (coreDie (s.team old).core))
  { x with epoch := epoch, low := s.storesOf old }

/-- The successor's team starts in place: it keeps scratchpad, tags and the Tun (R135, R199, R456). -/
def State.startHeir (s0 : State) (tk hk : Nat) : State :=
  let s := s0.settleFogs tk (fun _ => true)
  let t := s.team tk
  let e := s.exec hk
  let nk := s.nextKey
  let epoch := maxOf 0 ((t.groupKeys tk).map (fun k => (s.grp k).epoch)) + 1
  let u := { e.team hk t.core t.teamId with scratch := t.scratch, tags := t.tags, spoison := t.spoison, sb := t.sb }
  let s1 := { s.setTeam nk u with nextKey := nk + 1 }
  let s2 := (List.range e.groups).foldl (fun v j => v.addGroup (groupKey nk j) (v.heirGroup e tk nk j epoch)) s1
  let s3 := s2.setExec hk { s2.exec hk with
    teams := (s2.exec hk).teams ++ [nk]
    ran := (s2.exec hk).ran ++ [nk]
    total := (s2.exec hk).total + 1 }
  (s3.onTun t.core (fun x => { x.leaveOrder tk with owner := if x.owner = some tk then some nk else x.owner })).restate e.slot

/-- A team hands off to a successor's execution (R346); one that is fenced runs no team. -/
def State.handOff (s : State) (tk k : Nat) : State :=
  let t := s.team tk
  let (s1, hk) := match (s.exec t.exec).heirs.find? (fun h => h.1 == k) with
    | some h => (s, h.2)
    | none => s.openHeir tk k
  if (s1.exec hk).fenced || (s1.exec hk).failed then
    (s1.setExec hk { s1.exec hk with total := (s1.exec hk).total + 1, finished := (s1.exec hk).finished + 1 }).leaveTun tk |>.endTeam tk
  else (s1.startHeir tk hk).endTeam tk

/-- The fields of the execution that a team's successor would join. -/
def State.heirFields (s : State) (tk k : Nat) : Exec :=
  match (s.exec (s.team tk).exec).heirs.find? (fun h => h.1 == k) with
  | some h => s.exec h.2
  | none => { s.readExec k 0 with width := (s.team tk).width }

/-- A team's launch is fenced at its completion, and the team ends. -/
def State.failTeam (s : State) (tk : Nat) (f : FaultRec) : State :=
  (((s.fence (s.team tk).exec f).spent).leaveTun tk).endTeam tk

/-- A team completes: its faults are recorded, and its successor is decided (R134, R135, R270, R292, R346, R456). -/
def State.completeTeam (s0 : State) (tk : Nat) : State :=
  let s := (s0.noteEfault tk).noteSpill tk
  let t := s.team tk
  if (s.exec t.exec).fenced then (s.leaveTun tk).endTeam tk
  else match t.mismatch with
    | some f => s.failTeam tk f
    | none =>
      if t.named = 0 then (s.leaveTun tk).endTeam tk
      else match s.successorSlot tk with
        | none =>
          let x := (t.exits.find? (fun x => x.lane == 0)).getD ⟨0, 0, 0, 0⟩
          s.failTeam tk (x.mismatch t.teamId (BitVec.ofNat 32 t.named))
        | some k =>
          if s.fitsPlace tk (s.heirFields tk k) then s.handOff tk k else s.failTeam tk (s.teamFault tk 0x15 0)

/-! ### Retirement -/

/-- A group may retire: all its lanes are EXITED or ABSENT, its tokens are written, its stores acknowledged and applied, its
requests answered (R134, R187). -/
def State.mayRetire (s : State) (k : Nat) : Bool :=
  let g := s.grp k
  let t := s.team g.team
  s.groupRuns k && !t.callable && g.live.isEmpty && g.cmds == 0 && g.rays.isEmpty && g.hostOps.isEmpty && g.stores.isEmpty
    && g.redsOut == 0 && !g.hold.waits

/-- The EXITs of a retiring group. -/
def Group.exited (g : Group) : List Exited := g.exits.map (fun x => ⟨g.logical x.1, x.2.1, x.2.2, g.index⟩)

/-- A group retires: its epochs end, and its team keeps its EXITs (R134, R290). -/
def State.retire (s : State) (k : Nat) : State :=
  let g := s.grp k
  let s1 := s.setGrp k { g with retired := true, looks := [], pend := [] }
  let t := s1.team g.team
  let s2 := s1.setTeam g.team { t with exits := t.exits ++ g.exited }
  let e := s2.exec t.exec
  let s3 := s2.setExec t.exec { e with actSum := e.actSum + g.actSum, issues := e.issues + g.issues }
  let s4 := if s3.detTeam g.team then s3.closeEpochs g.team else s3
  s4.barsAtRetire k

/-- Every group of a team has retired, and a fragment team has no batch left (R134, R369). -/
def State.teamDone (s : State) (tk : Nat) : Bool :=
  let t := s.team tk
  (s.unretired tk).isEmpty && (t.tmoff.isNone || decide (t.batches ≤ t.batch))

/-- GROUP_RETIRE (R134, R135). -/
def execGroupRetire (g : Nat) : Meaning := fun s =>
  if !s.mayRetire g then .next s
  else
    let tk := (s.grp g).team
    let t := s.retire g
    .next (if t.teamDone tk then t.completeTeam tk else t)

/-- The place of a retired group of a fragment team. -/
def State.retiredPlace (s : State) (tk : Nat) : Option Nat :=
  (List.range (s.team tk).groups).find? (fun j => (s.grp (groupKey tk j)).retired)

/-- FRAGMENT_GROUP_START: the next batch of a fragment team starts where a group has retired, whose EFAULT and stores the team keeps
(R135, R270, R369). -/
def execFragmentGroupStart (team : Nat) : Meaning := fun s =>
  let t := s.team team
  if !s.runs team || t.tmoff.isNone || decide (t.batches ≤ t.batch) then .next s
  else match s.retiredPlace team with
    | none => .next s
    | some j =>
      let g := s.grp (groupKey team j)
      let e := s.exec t.exec
      let x := e.batch team t t.batch g.place t.sb (s.cycle (coreDie t.core))
      let s2 := s.setTeam team { t with
        batch := t.batch + 1
        efault := lowerEfault t.efault g
        pastLane := Floors.join t.pastLane g.lowLane
        pastRsvs := Floors.join t.pastRsvs g.lowRsvs }
      .next (s2.addGroup (groupKey team j) { x with epoch := g.epoch + 1 })

/-! ### Fatal traps -/

/-- What a stopped team leaves on its core: its copies and buffered reductions end, its Tun commands stop
(R187, R199, R269).  A copy that is stopped so has placed an ascending prefix of its elements and no tag, one of the outcomes R187 allows
(DESIGN CHOICE, log entry 74). -/
def State.stopWork (s : State) (tk : Nat) : State :=
  let c := (s.team tk).core
  let x := s.core c
  let now := s.cycle (coreDie c)
  s.setCore c { x with
    copies := x.copies.filter (fun d => d.team != tk)
    reds := x.reds.filter (fun r => (s.grp r.group).team != tk)
    tun := ({ x.tun with
      queue := x.tun.queue.filter (fun d => d.team != tk)
      leaving := if x.tun.leaving = some tk then none else x.tun.leaving }.leaveOrder tk |>.giveUp tk now) }

/-- A Tun that a stopped team was still leaving is released. -/
def State.freeTun (s : State) (tk : Nat) : State :=
  let c := (s.team tk).core
  if (s.core c).tun.leaving = some tk then (s.onTun c (fun u => u.release (s.cycle (coreDie c)))) else s

/-- FATAL_TRAP: a team that took a fatal trap, or whose launch is fenced, is stopped and ends (R269); a callable's ends with its
command (R363). -/
def execFatalTrap (team : Nat) : Meaning := fun s =>
  let t := s.team team
  if (ffind s.teams team).isNone || t.callable || !(t.dead || (s.exec t.exec).fenced) then .next s
  else .next (((s.freeTun team).stopWork team).endTeam team)

/-! ### The pending order of a die -/

/-- A team that waits for a core: a new one, or a saved one by its key (R349, R350). -/
structure Waiting where
  prio : Nat
  age : Nat
  team : Nat
  exec : Nat
  saved : Option Nat
  deriving DecidableEq, Repr

/-- The order of R349. -/
def Waiting.before (a b : Waiting) : Bool :=
  if a.prio ≠ b.prio then decide (b.prio < a.prio)
  else if a.age ≠ b.age then decide (a.age < b.age)
  else decide (a.team < b.team)

/-- Insert by the order of R349. -/
def insertWaiting (x : Waiting) : List Waiting → List Waiting
  | [] => [x]
  | y :: ys => if y.before x then y :: insertWaiting x ys else x :: y :: ys

/-- The teams that wait on a die, in order. -/
def State.waiting (s : State) (die : Nat) : List Waiting :=
  let new := s.execs.flatMap (fun e =>
    if e.2.fenced || e.2.failed then [] else
      (if die = 0 then e.2.pendA else e.2.pendB).map (fun t => (⟨e.2.priority, e.2.age, t, e.1, none⟩ : Waiting)))
  let saved := s.teams.filterMap (fun t =>
    if s.waitsToResume t.2 && s.savedDie t.2 == die
    then some (⟨(s.exec t.2.exec).priority, t.2.age, t.2.teamId.toNat, t.2.exec, some t.1⟩ : Waiting) else none)
  (new ++ saved).foldl (fun acc x => insertWaiting x acc) []

/-- The budgets of a saved team's groups, which resume together (R153). -/
def State.savedBudgets (s : State) (tk : Nat) : List Nat := ((s.team tk).groupKeys tk).map (fun k => (s.grp k).budget)

/-- What a waiting team asks. -/
def State.askOf (s : State) (w : Waiting) : Ask :=
  let e := s.exec w.exec
  match w.saved with
  | none => e.asks
  | some tk => ⟨e.pool, e.scratch, (s.team tk).width, s.savedBudgets tk⟩

/-- A team that held the array resumes only where it is free (R221), which one held for another team under R198 is not (DESIGN CHOICE, log
entry 89). -/
def State.arrayFree (s : State) (w : Waiting) (core : Nat) (gone : List Nat) : Bool :=
  match w.saved with
  | none => true
  | some tk => match (s.team tk).tun with
    | none => true
    | some u => (u.owner.isNone && u.leaving.isNone) ||
        (let t := (s.core core).tun
         (match t.owner with
          | none => true
          | some o => gone.contains o) && t.leaving.isNone && !t.heldFrom tk)

/-- The places for a waiting team on a core, were some of its teams gone. -/
def State.fitGone (s : State) (core : Nat) (w : Waiting) (gone : List Nat) : Option (List Place) :=
  let a := s.askOf w
  let stay := (s.resident core).filter (fun t => !gone.contains t)
  let used := (stay.map s.scratchUse).foldl (· + ·) 0
  if s.takes core a.pool && s.arrayFree w core gone then
    a.fit (stay.filter (fun t => !(s.team t).callable)).length (s.placesOf stay) used
  else none

/-- Launched lanes of the teams on a core. -/
def State.lanesOn (s : State) (core : Nat) : Nat := ((s.resident core).map (fun t => (s.team t).lanes)).foldl (· + ·) 0

/-- The core of the least key, and the lowest COREID among equals. -/
def leastCore (key : Nat → Nat) : List Nat → Option Nat
  | [] => none
  | c :: cs => match leastCore key cs with
    | none => some c
    | some d => if key d < key c then some d else some c

/-- The core that a waiting team is placed on (R349). -/
def State.coreFor (s : State) (die : Nat) (w : Waiting) : Option Nat :=
  leastCore s.lanesOn ((coresOf die).filter (fun c => (s.fitGone c w []).isSome))

/-- The first waiting team of a die that fits a core, and the core (R349). -/
def State.firstFit (s : State) (die : Nat) : Option (Waiting × Nat) :=
  if s.dieDown die || (s.die die).testing || s.dieC.stopped then none
  else (s.waiting die).findSome? (fun w => (s.coreFor die w).map (fun c => (w, c)))

/-! ### Placement -/

/-- A new team leaves the pending list of its execution. -/
def Exec.unpend (e : Exec) (t : Nat) : Exec :=
  { e with pendA := e.pendA.filter (· != t), pendB := e.pendB.filter (· != t), tiles := e.tiles.filter (fun x => x.1 != t) }

/-- A fragment team is placed, and its first batches start (R369). -/
def State.placeTile (s : State) (ek core tile : Nat) (frags : List Fragment) (ps : List Place) : State :=
  let e := s.exec ek
  let key := s.nextKey
  let sb := scratchPlace (s.scratchTaken core) (poolScratch e.pool) e.scratch
  let s1 := s.setCore core { s.core core with split := some e.pool, drain := none }
  let t0 := (e.team ek core (BitVec.ofNat 32 tile)).withTile e frags
  let t := { t0 with batch := t0.groups, sb := sb }
  let s2 := { s1.setTeam key t with nextKey := key + 1 }
  let s3 := (mapFrom (fun j p => (j, p)) 0 (ps.take t.groups)).foldl (fun u q =>
    u.addGroup (groupKey key q.1) (e.batch key t q.1 q.2 sb (s.cycle (coreDie core)))) s2
  s3.setExec ek { s3.exec ek with teams := (s3.exec ek).teams ++ [key], ran := (s3.exec ek).ran ++ [key] }

/-- Place a waiting new team on a core. -/
def State.placeNew (s : State) (w : Waiting) (core : Nat) : State :=
  match s.fitGone core w [] with
  | none => s
  | some ps =>
    let e := s.exec w.exec
    let s1 := s.setExec w.exec (e.unpend w.team)
    match e.tiles.find? (fun x => x.1 == w.team) with
    | some x => s1.placeTile w.exec core w.team x.2 ps
    | none => s1.placeTeam w.exec core (BitVec.ofNat 32 w.team) ps

/-- A core of another class is chosen to drain for the first pending class that fits no core, unless one already drains for it
(R349). -/
def State.drainFor (s : State) (die : Nat) (w : Waiting) : State :=
  let pool := (s.askOf w).pool
  let first := ((s.waiting die).find? (fun v => (s.askOf v).pool == pool)) == some w
  if !first || (coresOf die).any (fun c => (s.core c).drain == some pool) then s
  else match leastCore (fun c => (s.resident c).length) ((coresOf die).filter (fun c =>
      (s.core c).split.isSome && (s.core c).split != some pool && (s.core c).drain.isNone
        && !fget false (s.die die).corestat (c / 16 % 16 * 6 + c % 16))) with
    | none => s
    | some c => s.setCore c { s.core c with drain := some pool }

/-- Waiting teams that fit no core have cores drain for them (R349). -/
def State.drains (s : State) (die : Nat) : State :=
  (s.waiting die).foldl (fun t w => if (t.coreFor die w).isNone then t.drainFor die w else t) s

/-- TEAM_PLACE: cores drain for the first waiting teams of their classes that fit none, and the first waiting team of a die that fits a
core is placed, where it is a new one and the dispatch message finds its way open (R322, R327, R348, R349). -/
def execTeamPlace (die : Nat) : Meaning := fun s =>
  if 2 ≤ die || s.dieDown die || s.dieC.stopped then .next s
  else
    let t := s.drains die
    match t.firstFit die with
    | some (w, c) => .next (if w.saved.isNone && t.controlOpen c then t.placeNew w c else t)
    | none => .next t

/-- A saved context of a core's own waits to resume on it (R151). -/
def State.keepsContext (s : State) (core : Nat) : Bool := s.teams.any (fun t => s.waitsToResume t.2 && t.2.core == core)

/-- CORE_SPLIT_CHANGE: a draining core that is empty, and whose saved teams have all resumed, takes the waiting class; its L1 is
discarded (R151, R349). -/
def execCoreSplitChange (core : Nat) : Meaning := fun s =>
  let c := s.core core
  match c.drain with
  | none => .next s
  | some p =>
    if (s.resident core).isEmpty && !s.keepsContext core then .next (s.setCore core { c with split := some p, drain := none }) else .next s

/-! ### Pre-emption -/

/-- The order in which victims are taken: lowest priority, youngest, highest TEAMID (R350). -/
def Waiting.victimBefore (a b : Waiting) : Bool := b.before a

/-- Resident teams of a core that may be victims of a priority, in order (R350). -/
def State.victimsOn (s : State) (core prio : Nat) : List Waiting :=
  let all := (s.resident core).filterMap (fun tk =>
    let t := s.team tk
    let e := s.exec t.exec
    if !t.callable && !t.dead && !t.halted && !e.fenced && decide (e.priority + s.dieC.predist ≤ prio) && decide (0 < e.ctxn)
    then some (⟨e.priority, t.age, t.teamId.toNat, t.exec, some tk⟩ : Waiting) else none)
  let sorted := (all.foldl (fun acc x => insertWaiting x acc) []).reverse
  (sorted.foldl (fun (acc : List Waiting) x =>
    let e := s.exec x.exec
    if (acc.filter (fun y => y.exec == x.exec)).length + e.blocks.length < e.ctxn then acc ++ [x] else acc) [])

/-- Teams of a core that are halted already. -/
def State.haltedOn (s : State) (core : Nat) : List Nat := (s.resident core).filter (fun t => (s.team t).halted)

/-- How many further victims a waiting team needs on a core (R350). -/
def State.needOn (s : State) (core : Nat) (w : Waiting) : Option Nat :=
  let vs := (s.victimsOn core w.prio).filterMap Waiting.saved
  (List.range (vs.length + 1)).find? (fun n => (s.fitGone core w (s.haltedOn core ++ vs.take n)).isSome)

/-- The next team to halt on a die, for the first waiting team where it fits no core (R350). -/
def State.victim (s : State) (die : Nat) : Option Nat :=
  if s.dieDown die || s.dieC.predist = 0 then none
  else match s.waiting die with
    | [] => none
    | w :: _ =>
      if (s.coreFor die w).isSome then none
      else
        let cs := (coresOf die).filter (fun c => (s.core c).split == some (s.askOf w).pool && (s.needOn c w).isSome)
        match leastCore (fun c => (s.needOn c w).getD 0) cs with
        | none => none
        | some c => if (s.needOn c w).getD 0 = 0 then none else ((s.victimsOn c w.prio).filterMap Waiting.saved).head?

/-- What a halt leaves of a group's wait: an abandoned unit has taken no effect, and an ICINV or a TLBINV is issued again though its
invalidation is done; a FENCE.acq, an AtomicOp at its host and the arrival at a package barrier complete (R273, R275). -/
def Group.halt (g : Group) : Group :=
  let h := g.flushLooks
  let keep := h.hold == .hostAtomic || h.allBarred || (match h.hold with
    | .fenceAcq _ => true
    | .none => false | .icinv _ _ => false | .tlbinv _ => false | .tidset _ _ _ => false | .xfence _ _ _ => false | .phase _ => false
    | .redflush => false | .hostAtomic => true | .passed n _ _ => n != 1 && n != 2)
  { h with hold := if keep then h.hold else .none, blocked := if keep then h.blocked else Option.none, sleepTo := 0 }

/-- The lowest free context block of an execution (R350). -/
def Exec.freeBlock (e : Exec) : Option Nat := (List.range e.ctxn).find? (fun j => !e.blocks.contains j)

/-- An invalidation that a group has begun, its stores being acknowledged, completes (R273, R275). -/
def State.finishInv (s : State) (k : Nat) : State :=
  if (s.grp k).unacked .pkg then s
  else match (s.grp k).hold with
    | .icinv lo hi => s.icinvOf k lo hi
    | .tlbinv r => s.tlbinvOf k r
    | .none => s | .tidset _ _ _ => s | .xfence _ _ _ => s | .phase _ => s | .redflush => s | .fenceAcq _ => s | .hostAtomic => s
    | .passed _ _ _ => s

/-- A halt request takes effect on a team (R273). -/
def State.halt (s : State) (tk : Nat) : State :=
  let t := s.team tk
  let e := s.exec t.exec
  match e.freeBlock with
  | none => s
  | some b =>
    let s1 := (s.setTeam tk { t with halted := true, block := some b }).setExec t.exec { e with blocks := e.blocks ++ [b] }
    ((s.unretired tk).foldl State.finishInv s1).mapTeam tk (fun g => if g.retired then g else g.halt)

/-- HALT_REQUEST, once its message finds its way open (R273, R322, R327, R350). -/
def execHaltRequest (team : Nat) : Meaning := fun s =>
  let c := (s.team team).core
  if (ffind s.teams team).isSome && s.controlOpen c && s.victim (coreDie c) == some team then .next (s.halt team) else .next s

/-- A group has nothing outstanding that its save waits for (R274). -/
def Group.quiet (g : Group) : Bool :=
  !g.hold.waits && g.stores.all Request.acked && g.redsOut == 0 && g.hostOps.isEmpty && g.rays.isEmpty

/-- A Tun command of a halted team that goes on before the save: one whose rows are done, and a load that has begun and whose
rows are ready (R220). -/
def State.tunBusy (s : State) (core tk : Nat) : Bool :=
  (s.core core).tun.queue.any (fun c => c.team == tk && c.started && s.tunGoesOn c)

/-- The context of a halted team may be saved (R187, R220, R274, R293). -/
def State.maySave (s : State) (tk : Nat) : Bool :=
  let t := s.team tk
  (ffind s.teams tk).isSome && t.halted && !t.saved && !t.dead && !(s.exec t.exec).fenced
    && (s.unretired tk).all (fun k => (s.grp k).quiet)
    && (s.core t.core).copies.all (fun c => c.team != tk || c.op == modePf)
    && !s.tunBusy t.core tk
    && !s.toSpill tk

/-- Pending prefetches of a team are dropped, with token 0 (R187). -/
def State.dropPrefetches (s : State) (tk : Nat) : State :=
  let core := (s.team tk).core
  let cs := (s.core core).copies.filter (fun c => c.team == tk)
  let s1 := s.setCore core { s.core core with copies := (s.core core).copies.filter (fun c => c.team != tk) }
  cs.foldl (fun t c => t.finish { c with fault := none } 1) s1

/-- Free bytes are written to a context block, whose contents are private to the device (R350). -/
def State.fillBlock (s : State) (e : Exec) (va : Nat) : State :=
  (List.range (blockBytes / 4096)).foldl (fun (t : State) j =>
    let a := va + 4096 * j
    match t.access e.as a .write 0 with
    | .error _ => t
    | .ok l =>
      let key := t.keyOf e.as l a
      ((t.touch e.as l true).write .dieC ((List.range 4096).map (fun i => (key + i, (Config.freeWord (8192 * t.fresh + i)).setWidth 8)))).spent) s

/-- The array of a core, as a team's context keeps it: what it reserves or is leaving, with the cycles its commands have waited for tags
(R205), and its place in the order (R220, R221). -/
def Tun.keptFor (u : Tun) (tk now : Nat) : Option Tun :=
  let stop := fun (c : Cmd) => { c with waited := c.tagWait now, since := 0, started := c.started && !(c.op == opLdw && c.done == 0) }
  if u.owner = some tk || u.leaving = some tk then
    some { u with order := u.order.filter (· == tk), heldTo := none, queue := u.queue.map stop }
  else if u.order.contains tk then some { Tun.clear with order := [tk] }
  else none

/-- The core's array once a team has been saved: free, and to be cleared (R220). -/
def Tun.without (u : Tun) (tk now : Nat) : Tun :=
  let v := u.leaveOrder tk
  if u.owner = some tk || u.leaving = some tk then { v with queue := [], clearTo := none, owner := none, leaving := none }.release now else v

/-- A lane is saved: a parked one returns as RUN, and the cycles it has been parked, or has owned its section, are kept (R20, R23,
R371). -/
def Lane.save (now : Nat) (l : Lane) : Lane :=
  let w := if l.st = .parked then l.wake now else l
  { w with parkedAt := 0, owned := if l.ord = 1 then l.owned + (now - l.ownAt) else l.owned, ownAt := 0 }

/-- A team's context is written to its block, and it leaves its core (R274, R350). -/
def State.save (s0 : State) (tk : Nat) : State :=
  let s := s0.dropPrefetches tk
  let t := s.team tk
  let e := s.exec t.exec
  let va := e.context + blockBytes * t.block.getD 0
  match s.contextFault e .write va blockBytes with
  | some f => ((s.noteFault e (some f)).fence t.exec (s.teamFault tk f.1 0)).spent
  | none =>
    let now := s.cycle (coreDie t.core)
    let s1 := (s.fillBlock e va).settleFogs tk (fun _ => true)
    let u := (s1.core t.core).tun
    let s2 := s1.setTeam tk { s1.team tk with saved := true, tun := u.keptFor tk now }
    let s3 := s2.onTun t.core (fun u => u.without tk now)
    s3.mapTeam tk (fun g => { g with ibuf := [], spin := Spin.blank, lanes := g.lanes.map (Lane.save now) })

/-- CONTEXT_SAVE_DONE (R274, R350). -/
def execContextSaveDone (team : Nat) : Meaning := fun s => .next (if s.maySave team then s.save team else s)

/-- A resumed group at its new place; its stamp is set, and its segment registers are those saved (R24, R157, R249, R274). -/
def Group.replace (g : Group) (p : Place) (now : Nat) : Group :=
  { g with
    part := p.part
    offset := p.off
    slot := p.slot
    stamp := now
    lanes := g.lanes.map (fun l => { l with parkedAt := now, ownAt := now })
    blocked := Option.none }

/-- The array of a core once a team has resumed on it (R221). -/
def Tun.restored (u k : Tun) (tk : Nat) : Tun :=
  if k.owner.isSome || k.leaving.isSome then { k with order := u.order ++ k.order, heldTo := none, dirty := false } else u.enterOrder tk

/-- The context of a saved team is read back on a core: all its groups have their places again, what was published to them stays so on
another die, and each that has not retired resumes as at the end of a PHASE at package scope (R153, R221, R274, R300, R350). -/
def State.restore (s : State) (tk core : Nat) (ps : List Place) : State :=
  let t := s.team tk
  let e := s.exec t.exec
  let now := s.cycle (coreDie core)
  let s1 := s.setCore core { s.core core with split := some e.pool, drain := none }
  let s2 := (s1.setTeam tk { t with core := core, halted := false, saved := false, tun := none, block := none }).setExec t.exec
    { e with blocks := e.blocks.filter (fun b => some b != t.block) }
  let s3 := ((t.groupKeys tk).zip ps).foldl (fun u q => u.setGrp q.1 ((u.grp q.1).replace q.2 now)) s2
  let s4 := match t.tun with
    | none => s3
    | some k => s3.onTun core (fun u => u.restored k tk)
  (s.unretired tk).foldl (fun u k => (u.carryPubs (s.agent k) (u.agent k)).phaseOf k .pkg) s4

/-- TEAM_RESUME: a saved team whose turn it is resumes on the core it is given, once cores drain for the first waiting teams that fit
none; a block that cannot be read back fences its launch (R274, R349, R350, R355). -/
def execTeamResume (team core : Nat) : Meaning := fun s0 =>
  let s := s0.drains (coreDie core)
  match s.firstFit (coreDie core) with
  | none => .next s
  | some (w, c) =>
    if w.saved ≠ some team || c ≠ core || !s.controlOpen core then .next s
    else
      let t := s.team team
      let e := s.exec t.exec
      match s.contextFault e .read (e.context + blockBytes * t.block.getD 0) blockBytes with
      | some f => .next ((s.noteFault e (some f)).fence t.exec (s.teamFault team f.1 0)).spent
      | none => match s.fitGone core w [] with
        | none => .next s
        | some ps => .next (s.restore team core ps)

end Sys2Proof.Machine
end

