-- ==== Sys2Proof/Machine/Astc.lean ====
section
/-!
DEFINITION.  Texels of ASTC blocks: the LDR profile for 2D blocks of 16 bytes (R244).  R244 cites the Khronos specification, which the
spec does not hold: the decoding is PRESUMED from it (log entry 56); the error colour of blocks that it does not decode is R244's.
-/

namespace Sys2Proof.Machine

/-! ### Integer sequences -/

/-- A way of packing integers: a base of 1, 3 or 5, and bits below it. -/
structure Ise where
  base : Nat
  low : Nat
  deriving DecidableEq, Repr

/-- Bits that `n` integers take. -/
def Ise.size (f : Ise) (n : Nat) : Nat :=
  f.low * n + if f.base = 3 then (8 * n + 4) / 5 else if f.base = 5 then (7 * n + 2) / 3 else 0

/-- The five trits of eight bits, lowest first. -/
def unpackTrits (t : Nat) : List Nat :=
  let c := if bits t 2 3 = 7 then 4 * bits t 5 3 + bits t 0 2 else bits t 0 5
  let t3 := if bits t 2 3 = 7 then 2 else if bits t 5 2 = 3 then bits t 7 1 else bits t 5 2
  let t4 := if bits t 2 3 = 7 || bits t 5 2 = 3 then 2 else bits t 7 1
  let rest :=
    if bits c 0 2 = 3 then [if bits c 3 1 = 1 then 2 else bits c 2 1, bits c 4 1, 2]
    else if bits c 2 2 = 3 then [bits c 0 2, 2, 2]
    else [if bits c 1 1 = 1 then 2 else bits c 0 1, bits c 2 2, bits c 4 1]
  rest ++ [t3, t4]

/-- The three quints of seven bits, lowest first. -/
def unpackQuints (q : Nat) : List Nat :=
  if bits q 1 2 = 3 && bits q 5 2 = 0 then
    [4, 4, if bits q 0 1 = 1 then 4 else 2 * bits q 4 1 + bits q 3 1]
  else
    let c := if bits q 1 2 = 3 then 8 * bits q 3 2 + 2 * (3 - bits q 5 2) + bits q 0 1 else bits q 0 5
    (if bits c 0 3 = 5 then [bits c 3 2, 4] else [bits c 0 3, bits c 3 2]) ++ [if bits q 1 2 = 3 then 4 else bits q 5 2]

/-- Block `k` of a sequence: its integers as (low bits, digit). -/
def Ise.unpack (f : Ise) (x k : Nat) : List (Nat × Nat) :=
  let b := f.low
  if f.base = 3 then
    let y := bits x ((5 * b + 8) * k) (5 * b + 8)
    let t := bits y b 2 + 4 * bits y (2 * b + 2) 2 + 16 * bits y (3 * b + 4) 1 + 32 * bits y (4 * b + 5) 2 + 128 * bits y (5 * b + 7) 1
    [bits y 0 b, bits y (b + 2) b, bits y (2 * b + 4) b, bits y (3 * b + 5) b, bits y (4 * b + 7) b].zip (unpackTrits t)
  else if f.base = 5 then
    let y := bits x ((3 * b + 7) * k) (3 * b + 7)
    let q := bits y b 3 + 8 * bits y (2 * b + 3) 2 + 32 * bits y (3 * b + 5) 2
    [bits y 0 b, bits y (b + 3) b, bits y (2 * b + 5) b].zip (unpackQuints q)
  else [(bits x (b * k) b, 0)]

/-- The `n` integers of a sequence that starts at the lowest bit of a number. -/
def Ise.values (f : Ise) (n x : Nat) : List (Nat × Nat) :=
  let y := x % 2 ^ f.size n
  ((List.range n).flatMap (f.unpack y)).take n

/-- Bits repeated to `n` bits, the highest kept. -/
def repeatBits (x b n : Nat) : Nat := (List.range 8).foldl (fun s i => s + x * 2 ^ (b * i)) 0 / 2 ^ (8 * b - n)

/-- A colour value of 8 bits. -/
def Ise.colour (f : Ise) (v : Nat × Nat) : Nat :=
  if f.base = 1 then repeatBits v.1 f.low 8
  else
    let x := v.1 / 2
    let bc : Nat × Nat :=
      if f.base = 3 then
        (if f.low = 1 then (0, 204) else if f.low = 2 then (0x116 * x, 93) else if f.low = 3 then (x * 128 + x * 4 + x, 44)
          else if f.low = 4 then (x * 64 + x, 22) else if f.low = 5 then (x * 32 + x / 4, 11) else (x * 16 + x / 16, 5))
      else
        (if f.low = 1 then (0, 113) else if f.low = 2 then (0x10C * x, 54) else if f.low = 3 then (x * 128 + x * 2 + x / 2, 26)
          else if f.low = 4 then (x * 64 + x / 2, 13) else (x * 32 + x / 8, 6))
    let a := if v.1 % 2 = 1 then 0x1FF else 0
    let t := Nat.xor (v.2 * bc.2 + bc.1) a
    Nat.lor (Nat.land a 0x80) (t / 4)

/-- A weight of 0 to 64. -/
def Ise.weight (f : Ise) (v : Nat × Nat) : Nat :=
  let w :=
    if f.base = 1 then repeatBits v.1 f.low 6
    else if f.low = 0 then (if f.base = 3 then nth 0 [0, 32, 63] v.2 else nth 0 [0, 16, 32, 47, 63] v.2)
    else
      let x := v.1 / 2
      let bc : Nat × Nat :=
        if f.base = 3 then (if f.low = 1 then (0, 50) else if f.low = 2 then (0x45 * x, 23) else (x * 32 + x, 11))
        else (if f.low = 1 then (0, 28) else (0x42 * x, 13))
      let a := if v.1 % 2 = 1 then 0x7F else 0
      let t := Nat.xor (v.2 * bc.2 + bc.1) a
      Nat.lor (Nat.land a 0x20) (t / 4)
  if 32 < w then w + 1 else w

/-! ### The block mode -/

/-- What a block's mode says: the grid of weights, two planes or one, and how the weights are packed. -/
structure AstcMode where
  w : Nat
  h : Nat
  dual : Bool
  fmt : Ise
  deriving DecidableEq, Repr

/-- How weights are packed, by R and H of the mode. -/
def astcWeights (r : Nat) (h : Bool) : Ise :=
  let l : List (Nat × Nat) := if h then [(5, 1), (3, 2), (1, 4), (5, 2), (3, 3), (1, 5)] else [(1, 1), (3, 0), (1, 2), (5, 0), (3, 1), (1, 3)]
  let x := nth (1, 1) l (r - 2)
  ⟨x.1, x.2⟩

/-- The mode of a block of 128 bits; none where it is reserved. -/
def astcMode (d : Nat) : Option AstcMode :=
  let a := bits d 5 2
  let b := bits d 7 2
  let lo := bits d 0 2
  let hi := d.testBit 9
  let dual := d.testBit 10
  if lo ≠ 0 then
    let f := astcWeights (bits d 4 1 + 2 * lo) hi
    let k := bits d 2 2
    some (if k = 0 then ⟨b + 4, a + 2, dual, f⟩
      else if k = 1 then ⟨b + 8, a + 2, dual, f⟩
      else if k = 2 then ⟨a + 2, b + 8, dual, f⟩
      else if b < 2 then ⟨a + 2, b + 6, dual, f⟩
      else ⟨b % 2 + 2, a + 2, dual, f⟩)
  else if bits d 2 2 = 0 then none
  else
    let r := bits d 4 1 + 2 * bits d 2 2
    if b = 0 then some ⟨12, a + 2, dual, astcWeights r hi⟩
    else if b = 1 then some ⟨a + 2, 12, dual, astcWeights r hi⟩
    else if b = 2 then some ⟨a + 6, bits d 9 2 + 6, false, astcWeights r false⟩
    else if a = 0 then some ⟨6, 10, dual, astcWeights r hi⟩
    else if a = 1 then some ⟨10, 6, dual, astcWeights r hi⟩
    else none

/-- Weights of a block. -/
def AstcMode.count (m : AstcMode) : Nat := m.w * m.h * if m.dual then 2 else 1

/-! ### Partitions -/

/-- The hash that partitions are drawn from. -/
def astcHash (p0 : Word) : Word :=
  let p := p0 ^^^ (p0 >>> 15)
  let p := p - (p <<< 17)
  let p := p + (p <<< 7)
  let p := p + (p <<< 4)
  let p := p ^^^ (p >>> 5)
  let p := p + (p <<< 16)
  let p := p ^^^ (p >>> 7)
  let p := p ^^^ (p >>> 3)
  let p := p ^^^ (p <<< 6)
  p ^^^ (p >>> 17)

/-- The partition of a texel of a block with `n` partitions. -/
def astcPartition (edge n seed0 x0 y0 : Nat) : Nat :=
  if n = 1 then 0
  else
    let k := if edge * edge < 31 then 2 else 1
    let x := x0 * k
    let y := y0 * k
    let seed := seed0 + (n - 1) * 1024
    let r := (astcHash (BitVec.ofNat 32 seed)).toNat
    let s3 := if n = 3 then 6 else 5
    let s2 := if seed.testBit 1 then 4 else 5
    let sh1 := if seed.testBit 0 then s2 else s3
    let sh2 := if seed.testBit 0 then s3 else s2
    let sq := fun at_ sh => bits r at_ 4 * bits r at_ 4 / 2 ^ sh
    let a := (sq 0 sh1 * x + sq 4 sh2 * y + r / 2 ^ 14) % 64
    let b := (sq 8 sh1 * x + sq 12 sh2 * y + r / 2 ^ 10) % 64
    let c := if n < 3 then 0 else (sq 16 sh1 * x + sq 20 sh2 * y + r / 2 ^ 6) % 64
    let e := if n < 4 then 0 else (sq 24 sh1 * x + sq 28 sh2 * y + r / 4) % 64
    if b ≤ a && c ≤ a && e ≤ a then 0 else if c ≤ b && e ≤ b then 1 else if e ≤ c then 2 else 3

/-! ### Colour endpoints -/

/-- A base and a signed offset from two values: seven bits of the base's value and the top bit of the offset's. -/
def astcTransfer (v0 v1 : Nat) : Int × Int := (((v0 / 2 + v1 / 128 * 128 : Nat) : Int), sext (v1 / 2 % 64) 6)

/-- The blue contraction of a colour. -/
def blueContract (c : List Int) : List Int := [(nth 0 c 0 + nth 0 c 2) / 2, (nth 0 c 1 + nth 0 c 2) / 2, nth 0 c 2, nth 0 c 3]

/-- The two endpoint colours of a colour mode of the LDR profile, with r, g, b, a of 8 bits. -/
def astcEndpoints (cem : Nat) (v : List Nat) : List Nat × List Nat :=
  let n := fun k => nth 0 v k
  let t := fun k => astcTransfer (n k) (n (k + 1))
  let fix := fun (c : List Int) => c.map (fun x => (clampInt 0 255 x).toNat)
  let al := fun k => if cem = 12 then (n k : Int) else 255
  if cem = 0 then ([n 0, n 0, n 0, 255], [n 1, n 1, n 1, 255])
  else if cem = 1 then
    let l := n 0 / 4 + n 1 / 64 * 64
    let m := min 255 (l + n 1 % 64)
    ([l, l, l, 255], [m, m, m, 255])
  else if cem = 4 then ([n 0, n 0, n 0, n 2], [n 1, n 1, n 1, n 3])
  else if cem = 5 then
    let l := t 0
    let a := t 2
    (fix [l.1, l.1, l.1, a.1], fix [l.1 + l.2, l.1 + l.2, l.1 + l.2, a.1 + a.2])
  else if cem = 6 then ([n 0 * n 3 / 256, n 1 * n 3 / 256, n 2 * n 3 / 256, 255], [n 0, n 1, n 2, 255])
  else if cem = 10 then ([n 0 * n 3 / 256, n 1 * n 3 / 256, n 2 * n 3 / 256, n 4], [n 0, n 1, n 2, n 5])
  else if cem = 8 || cem = 12 then
    let p : List Int := [n 0, n 2, n 4, al 6]
    let q : List Int := [n 1, n 3, n 5, al 7]
    if n 0 + n 2 + n 4 ≤ n 1 + n 3 + n 5 then (fix p, fix q) else (fix (blueContract q), fix (blueContract p))
  else
    let r := t 0
    let g := t 2
    let b := t 4
    let a : Int × Int := if cem = 13 then t 6 else (255, 0)
    let p := [r.1, g.1, b.1, a.1]
    let q := [r.1 + r.2, g.1 + g.2, b.1 + b.2, a.1 + a.2]
    if 0 ≤ r.2 + g.2 + b.2 then (fix p, fix q) else (fix (blueContract q), fix (blueContract p))

/-- A colour mode is one of HDR. -/
def astcHdr (cem : Nat) : Bool := [2, 3, 7, 11, 14, 15].contains cem

/-- The ways colour values are packed, coarsest first. -/
def astcColours : List Ise :=
  [⟨3, 1⟩, ⟨1, 3⟩, ⟨5, 1⟩, ⟨3, 2⟩, ⟨1, 4⟩, ⟨5, 2⟩, ⟨3, 3⟩, ⟨1, 5⟩, ⟨5, 3⟩, ⟨3, 4⟩, ⟨1, 6⟩, ⟨5, 4⟩, ⟨3, 5⟩, ⟨1, 7⟩, ⟨5, 5⟩, ⟨3, 6⟩, ⟨1, 8⟩]

/-- The colour modes of a block's `n` partitions, and how many bits of them lie below the weights' `wb` bits. -/
def astcModes (d n wb : Nat) : List Nat × Nat :=
  if n = 1 then ([bits d 13 4], 0)
  else
    let sel := bits d 23 2
    if sel = 0 then (List.replicate n (bits d 25 4), 0)
    else
      let extra := 3 * n - 4
      let e := bits d 23 6 + 64 * bits d (128 - wb - extra) extra
      ((List.range n).map (fun i => 4 * (sel - 1 + bits e (2 + i) 1) + bits e (2 + n + 2 * i) 2), extra)

/-- Colour values of a mode. -/
def cemValues (c : Nat) : Nat := 2 * (c / 4 + 1)

/-! ### A texel -/

/-- 128 bits in reverse order. -/
def reverse128 (d : Nat) : Nat := (List.range 128).foldl (fun s i => s + bits d i 1 * 2 ^ (127 - i)) 0

/-- The interpolated weight of a texel, from the grid's weights of one plane. -/
def AstcMode.infill (m : AstcMode) (edge : Nat) (ws : List Nat) (x y : Nat) : Nat :=
  let ds := (1024 + edge / 2) / (edge - 1)
  let gs := (ds * x * (m.w - 1) + 32) / 64
  let gt := (ds * y * (m.h - 1) + 32) / 64
  let fs := gs % 16
  let ft := gt % 16
  let at_ := gs / 16 + gt / 16 * m.w
  let w11 := (fs * ft + 8) / 16
  let w10 := ft - w11
  let w01 := fs - w11
  let w00 := 16 + w11 - fs - ft
  (nth 0 ws at_ * w00 + nth 0 ws (at_ + 1) * w01 + nth 0 ws (at_ + m.w) * w10 + nth 0 ws (at_ + m.w + 1) * w11 + 8) / 16

/-- A channel between two endpoints: 16 bits, or the upper 8 of them in sRGB mode. -/
def astcBlend (srgb : Bool) (c e0 e1 w : Nat) : Nat :=
  let wide := fun e => if srgb && c < 3 then 256 * e + 128 else 257 * e
  let x := (wide e0 * (64 - w) + wide e1 * w + 32) / 64
  if srgb then x / 256 else x

/-- A block of one colour: none where it is one of HDR or not well formed. -/
def astcConstant (srgb : Bool) (d : Nat) : Option (List Nat) :=
  let whole := bits d 12 52 = 2 ^ 52 - 1
  if d.testBit 9 || bits d 10 2 ≠ 3 || (!whole && (bits d 25 13 ≤ bits d 12 13 || bits d 51 13 ≤ bits d 38 13)) then none
  else some ((List.range 4).map (fun k => if srgb then bits d (64 + 16 * k + 8) 8 else bits d (64 + 16 * k) 16))

/-- A texel of a block of weights and colours: none where the block is one of HDR or not well formed. -/
def astcColoured (edge : Nat) (srgb : Bool) (d x y : Nat) : Option (List Nat) :=
  match astcMode d with
  | none => none
  | some m =>
    let n := bits d 11 2 + 1
    let wb := m.fmt.size m.count
    let (cems, extra) := astcModes d n wb
    let top := 128 - wb - extra - (if m.dual then 2 else 0)
    let start := if n = 1 then 17 else 29
    let nv := (cems.map cemValues).foldl (· + ·) 0
    if edge < m.w || edge < m.h || 64 < m.count || wb < 24 || 96 < wb || (m.dual && n = 4) || top < start || 18 < nv
        || cems.any astcHdr then none
    else match (astcColours.filter (fun f => decide (f.size nv ≤ top - start))).getLast? with
      | none => none
      | some f =>
        let cs := (f.values nv (d / 2 ^ start)).map f.colour
        let part := astcPartition edge n (if n = 1 then 0 else bits d 13 10) x y
        let first := ((cems.take part).map cemValues).foldl (· + ·) 0
        let (e0, e1) := astcEndpoints (nth 0 cems part) (cs.drop first)
        let ws := (m.fmt.values m.count (reverse128 d)).map m.fmt.weight
        let plane := fun j => if m.dual then (List.range (m.w * m.h)).map (fun i => nth 0 ws (2 * i + j)) else ws
        let w0 := m.infill edge (plane 0) x y
        let w1 := m.infill edge (plane 1) x y
        some ((List.range 4).map (fun c =>
          astcBlend srgb c (nth 0 e0 c) (nth 0 e1 c) (if m.dual && c = bits d top 2 then w1 else w0)))

/-- The four channels of a texel of a block: UNORM16, or UNORM8 in sRGB mode; the error colour where the block does not decode (R244). -/
def astcTexel (edge : Nat) (srgb : Bool) (d x y : Nat) : List Nat :=
  let one := if srgb then 255 else 65535
  (if bits d 0 9 = 0x1FC then astcConstant srgb d else astcColoured edge srgb d x y).getD [one, 0, one, one]

end Sys2Proof.Machine
end

