-- ==== Sys2Proof/Machine/Texture.lean ====
section
/-!
DEFINITION.  The texture sampler (R243 to R247).
-/

namespace Sys2Proof.Machine

/-! ### Texels -/

/-- The largest r below 2^n more than a start, with r^p · b ≤ a: an integer root, bit by bit. -/
def rootFrom (p a b : Nat) : Nat → Nat → Nat
  | 0, r => r
  | n + 1, r => if (r + 2 ^ n) ^ p * b ≤ a then rootFrom p a b n (r + 2 ^ n) else rootFrom p a b n r

/-- The sRGB transfer of c / 255, correctly rounded (R244; IEC 61966-2-1): linear below, a power of 2.4 above. -/
def srgb (c : Nat) : Word :=
  if c * 100000 ≤ 4045 * 255 then (Frac.mk (c * 100) (255 * 1292)).rne
  else
    let p := 1000 * c + 14025
    let q := 269025
    -- the fifth root of (p/q)^12, with 64 bits below the binary point and a last bit for the rest
    let r := rootFrom 5 (p ^ 12 * 2 ^ 320) (q ^ 12) 66 0
    (rne32 (.fin false (2 * r + if r ^ 5 * q ^ 12 = p ^ 12 * 2 ^ 320 then 0 else 1) (-65))).1

/-- c / n, rounded. -/
def unorm (c n : Nat) : Word := (Frac.mk c n).rne

/-- The block edge of an ASTC code (R244). -/
def astcEdge (f : Nat) : Nat := if f % 4 = 0 then 4 else if f % 4 = 1 then 5 else if f % 4 = 2 then 6 else 8

/-- Texels on a block's edge: 1 for the formats without blocks. -/
def texEdge (f : Nat) : Nat := if 16 ≤ f then astcEdge f else 1

/-- Bytes of a texel or block (R244). -/
def texBytes (f : Nat) : Nat :=
  if 16 ≤ f then 16 else if f = 2 then 1 else if f = 3 then 2 else if f = 6 then 8 else if f = 8 then 16 else 4

/-- FP32 of a half (R74). -/
def halfWord (x : Nat) : Word := cvtWiden fp16 (BitVec.ofNat 32 x)

/-- FP32 one. -/
def fpOne : Word := 0x3F800000

/-- The four channels of a fetched texel or block (R244); `x` and `y` are the texel's place in its block. -/
def texChannels (f d x y : Nat) : List Word :=
  let b := fun k => bits d (8 * k) 8
  let w := fun k => BitVec.ofNat 32 (bits d (32 * k) 32)
  if f = 0 then [unorm (b 0) 255, unorm (b 1) 255, unorm (b 2) 255, unorm (b 3) 255]
  else if f = 1 then [srgb (b 0), srgb (b 1), srgb (b 2), unorm (b 3) 255]
  else if f = 2 then [unorm (b 0) 255, 0, 0, fpOne]
  else if f = 3 then [unorm (b 0) 255, unorm (b 1) 255, 0, fpOne]
  else if f = 4 then [unorm (bits d 0 10) 1023, unorm (bits d 10 10) 1023, unorm (bits d 20 10) 1023, unorm (bits d 30 2) 3]
  else if f = 5 then [halfWord (bits d 0 16), halfWord (bits d 16 16), 0, fpOne]
  else if f = 6 then [halfWord (bits d 0 16), halfWord (bits d 16 16), halfWord (bits d 32 16), halfWord (bits d 48 16)]
  else if f = 7 then [w 0, 0, 0, fpOne]
  else if f = 8 then [w 0, w 1, w 2, w 3]
  else
    let c := nth 0 (astcTexel (astcEdge f) (20 ≤ f) d x y)
    if f < 20 then (List.range 4).map (fun k => unorm (c k) 65535)
    else [srgb (c 0), srgb (c 1), srgb (c 2), unorm (c 3) 255]

/-! ### The texture -/

/-- The fields of a texture descriptor (R243). -/
def Desc.tfmt (d : Desc) : Nat := Desc.field d 4 1
def Desc.levels (d : Desc) : Nat := bits (Desc.field d 4 4) 8 4 + 1
def Desc.texW (d : Desc) (k : Nat) : Nat := max 1 (Desc.field d 0x10 4 / 2 ^ k)
def Desc.texH (d : Desc) (k : Nat) : Nat := max 1 (Desc.field d 0x14 4 / 2 ^ k)
def Desc.layers (d : Desc) : Nat := Desc.field d 0x18 4
def Desc.loff (d : Desc) (k : Nat) : Nat := Desc.field d (0x20 + 4 * k) 4
def Desc.border (d : Desc) : List Word := (List.range 4).map (fun c => BitVec.ofNat 32 (Desc.field d (0x60 + 4 * c) 4))

/-- The bytes of a row of texels or blocks of a level, and of a layer (R243). -/
def Desc.rowPitch (d : Desc) (k : Nat) : Nat :=
  let e := texEdge (Desc.tfmt d)
  roundUp 16 ((Desc.texW d k + e - 1) / e * texBytes (Desc.tfmt d))
def Desc.layerPitch (d : Desc) (k : Nat) : Nat :=
  let e := texEdge (Desc.tfmt d)
  roundUp 256 (Desc.rowPitch d k * ((Desc.texH d k + e - 1) / e))

/-- The address of a texel or its block. -/
def Desc.texAddr (d : Desc) (k layer x y : Nat) : Nat :=
  let e := texEdge (Desc.tfmt d)
  (Desc.base d + 256 * Desc.loff d k + layer * Desc.layerPitch d k + y / e * Desc.rowPitch d k + x / e * texBytes (Desc.tfmt d)) % 2 ^ 64

/-- How sampling a lane may stop: at a fault of a texel's address, or at a number the spec does not carry on with. -/
inductive TexEnd where
  | fault (code va : Nat)
  | unstated
  deriving DecidableEq, Repr

/-- A sample: how it stops, its four channels, whether a texel was poisoned, and the addresses it read. -/
structure Sample where
  ended : Option TexEnd
  ch : List Word
  bad : Bool
  used : List Nat
  deriving DecidableEq, Repr

/-- A sample that stops. -/
def Sample.stop (e : TexEnd) : Sample := ⟨some e, [], false, []⟩
/-- A sample of given channels. -/
def Sample.of (l : List Word) : Sample := ⟨none, l, false, []⟩
/-- Change the channels. -/
def Sample.map (f : List Word → List Word) (a : Sample) : Sample := { a with ch := f a.ch }
/-- Two samples in turn, their channels combined. -/
def Sample.both (f : List Word → List Word → List Word) (a b : Sample) : Sample :=
  if a.ended.isSome then a else ⟨b.ended, f a.ch b.ch, a.bad || b.bad, a.used ++ b.used⟩

/-- The sampler's fixed inputs for a lane, and the versions its reads must not precede (R193, R313). -/
structure SmpJob where
  floors : Floors
  space : Nat
  seg : Segs
  d : Desc
  wrap : Wrap
  layer : Nat
  deriving DecidableEq, Repr

/-- Index wrap; none outside with border (R246). -/
def wrapIndex (w : Wrap) (x : Int) (n : Nat) : Option Nat :=
  match w with
  | .clamp => some (clampInt 0 ((n : Int) - 1) x).toNat
  | .rpt => some (x % n).toNat
  | .mirror =>
    let m := (x % (2 * n : Nat)).toNat
    some (if m < n then m else 2 * n - 1 - m)
  | .border => if 0 ≤ x && decide (x < n) then some x.toNat else none

/-- One texel of a level, each 8-byte part of it as some write not before its floor left it (R194, R243, R244, R247). -/
def State.texel (s : State) (j : SmpJob) (k : Nat) (x y : Int) : Sample :=
  match wrapIndex j.wrap x (Desc.texW j.d k), wrapIndex j.wrap y (Desc.texH j.d k) with
  | some a, some b =>
    let n := texBytes (Desc.tfmt j.d)
    let va := Desc.texAddr j.d k j.layer a b
    let g := s.engineSees j.floors [] j.space (Segs.covers j.seg (Desc.space j.d) va n) va n
    let e := texEdge (Desc.tfmt j.d)
    match g.fault with
    | some c => .stop (.fault c va)
    | none => ⟨none, texChannels (Desc.tfmt j.d) g.val (a % e) (b % e), g.bad, [va]⟩
  | some _, none => .of (Desc.border j.d)
  | none, _ => .of (Desc.border j.d)

/-- The integer below a finite word. -/
def floorWord (w : Word) : Option Int := (val32 w).frac.map Frac.floor

/-- A natural number as FP32. -/
def natFp (n : Nat) : Word := (cvtF32N32 .rne (BitVec.ofNat 32 n)).1

/-- A NaN channel is the canonical NaN (R65, R247). -/
def canonNan (w : Word) : Word := if (val32 w).isNan then 0x7FC00000 else w

/-- Combine channels. -/
def zip4 (f : Word → Word → Word) (a b : List Word) : List Word := (List.range 4).map (fun c => f (nth 0 a c) (nth 0 b c))
def map4 (f : Word → Word) (a : List Word) : List Word := (List.range 4).map (fun c => f (nth 0 a c))

/-- A weight in 1/2^n as FP32; exact. -/
def weightWord (m n : Nat) : Word := (rne32 (.fin false m (-(n : Int)))).1

/-- RNE of a coordinate, exact until then, times the size of a level (R6, R247). -/
def levelPos (u : Frac) (n : Nat) : Word := (u.mul (Frac.ofInt n)).rne

/-- Nearest filtering on a level (R247). -/
def State.nearest (s : State) (j : SmpJob) (k : Nat) (u v : Frac) : Sample :=
  match floorWord (levelPos u (Desc.texW j.d k)), floorWord (levelPos v (Desc.texH j.d k)) with
  | some x, some y => (s.texel j k x y).map (map4 canonNan)
  | some _, none => .stop .unstated
  | none, _ => .stop .unstated

/-- The integer and the 256ths of a bilinear coordinate (R247). -/
def bilinPos (u : Frac) (n : Nat) : Option (Int × Nat) :=
  let xs := (fsub (levelPos u n) 0x3F000000).1
  (val32 xs).frac.map (fun q => (q.floor, ((q.sub (Frac.ofInt q.floor)).mul (Frac.ofInt 256)).floor.toNat))

/-- Bilinear filtering on a level (R247). -/
def State.bilinear (s : State) (j : SmpJob) (k : Nat) (u v : Frac) : Sample :=
  match bilinPos u (Desc.texW j.d k), bilinPos v (Desc.texH j.d k) with
  | some (x, ax), some (y, ay) =>
    let wt := fun p q (t : Sample) => t.map (map4 (fun z => (fmul (weightWord (p * q) 16) z).1))
    let add := Sample.both (zip4 (fun p q => (fadd p q).1))
    add (add (wt (256 - ax) (256 - ay) (s.texel j k x y)) (wt ax (256 - ay) (s.texel j k (x + 1) y)))
      (add (wt (256 - ax) ay (s.texel j k x (y + 1))) (wt ax ay (s.texel j k (x + 1) (y + 1))))
  | some _, none => .stop .unstated
  | none, _ => .stop .unstated

/-- Trilinear filtering between two levels, with f in 256ths (R247). -/
def State.trilinear (s : State) (j : SmpJob) (k f : Nat) (u v : Frac) : Sample :=
  if f = 0 then s.bilinear j k u v
  else Sample.both (zip4 (fun p q => (fadd (fmul (weightWord (256 - f) 8) p).1 (fmul (weightWord f 8) q).1).1))
    (s.bilinear j k u v) (s.bilinear j (k + 1) u v)

/-- The coordinate of a tap: u + RNE(o · du), exact (R6, R247); none where the product is not finite. -/
def tapAt (u : Frac) (o du : Word) : Option Frac := (val32 (fmul o du).1).frac.map u.add

/-- The sum of the taps of an anisotropic sample, in ascending order (R247). -/
def State.taps (s : State) (j : SmpJob) (k f n : Nat) (u v : Frac) (du dv : Word) : Nat → Sample
  | 0 => .of [0, 0, 0, 0]
  | m + 1 =>
    let o : Word := (Frac.mk ((2 * m + 1 : Nat) - (n : Int)) (2 * n)).rne
    let tap := match tapAt u o du, tapAt v o dv with
      | some a, some b => s.trilinear j k f a b
      | some _, none => .stop .unstated
      | none, _ => .stop .unstated
    if m = 0 then tap else Sample.both (zip4 (fun p q => (fadd p q).1)) (s.taps j k f n u v du dv m) tap

/-! ### Level of detail -/

/-- The footprint of a gradient (R246).  Of a gradient that is NaN the rule does not say what the greater footprint is: it is NaN, and the
level of detail is then 0 (DESIGN CHOICE, log entry 90). -/
def footprint (d : Desc) (du dv : Word) : Word :=
  let mag := fun (w : Word) => w &&& 0x7FFFFFFF
  fminmax true (fmul (mag du) (natFp (Desc.texW d 0))).1 (fmul (mag dv) (natFp (Desc.texH d 0))).1

/-- N taps: the least power of two up to the ratio that covers the footprint (R246). -/
def tapCount (ratio : Nat) (lo hi : Word) : Nat → Nat → Nat
  | 0, _ => ratio
  | fuel + 1, n => if ratio ≤ n then ratio else if (fcmp .ge (fmul (natFp n) lo).1 hi).1 then n else tapCount ratio lo hi fuel (2 * n)

/-- The ratio of an ANISO code (R55). -/
def anisoRatio : Aniso → Nat
  | .r1 => 1 | .r2 => 2 | .r4 => 4 | .r8 => 8 | .r16 => 16

/-- lod with gradients (R246). -/
def gradLod (exact : Bool) (n : Nat) (hi bias : Word) : Word :=
  (fadd (fsub (sfu exact .lg2 hi).1 (natFp n.log2)).1 bias).1

/-- lodc: a NaN lod is read as 0 (R246). -/
def clampLod (levels : Nat) (lod : Word) : Word := if (val32 lod).isNan then 0 else fminmax false (fminmax true lod 0) (natFp (levels - 1))

/-- The level of nearest and bilinear (R246). -/
def nearLevel (levels : Nat) (lodc : Word) : Nat := min ((floorWord (fadd lodc 0x3F000000).1).getD 0).toNat (levels - 1)

/-- The levels of trilinear and anisotropic: k0, and f in 256ths (R246). -/
def triLevel (levels : Nat) (lodc : Word) : Nat × Nat :=
  match (val32 lodc).frac with
  | none => (0, 0)
  | some q =>
    let k := q.floor.toNat
    if levels ≤ k + 1 then (levels - 1, 0) else (k, ((q.sub (Frac.ofInt k)).mul (Frac.ofInt 256)).floor.toNat)

/-- The layer: RNE to an integer, clamped, NaN read as 0 (R245). -/
def texLayer (d : Desc) (w : Word) : Nat :=
  if (val32 w).isNan then 0
  else (clampInt 0 ((Desc.layers d : Int) - 1) (cvtS32F32 .rne w).1.toInt).toNat

/-- The fields of an SMP that sampling needs. -/
structure SmpOp where
  filt : Filt
  ratio : Nat
  grad : Bool
  wrap : Wrap
  exact : Bool
  deriving DecidableEq, Repr

/-- Sample for one lane's coordinate words (R245 to R247). -/
def State.sample (s : State) (o : SmpOp) (fl : Floors) (space : Nat) (seg : Segs) (d : Desc) (w : List Word) : Sample :=
  let j : SmpJob := ⟨fl, space, seg, d, o.wrap, texLayer d (nth 0 w 2)⟩
  match (val32 (nth 0 w 0)).frac, (val32 (nth 0 w 1)).frac with
  | some u, some v =>
    let lx := footprint d (nth 0 w 4) (nth 0 w 5)
    let ly := footprint d (nth 0 w 6) (nth 0 w 7)
    let hi := fminmax true lx ly
    let n := if o.grad && o.filt == .aniso then tapCount o.ratio (fminmax false lx ly) hi 5 1 else 1
    let lod := if o.grad then gradLod o.exact n hi (nth 0 w 3) else nth 0 w 3
    let lodc := clampLod (Desc.levels d) lod
    let kf := triLevel (Desc.levels d) lodc
    match o.filt with
    | .near => s.nearest j (nearLevel (Desc.levels d) lodc) u v
    | .bilin => s.bilinear j (nearLevel (Desc.levels d) lodc) u v
    | .trilin => s.trilinear j kf.1 kf.2 u v
    | .aniso =>
      if !o.grad then s.trilinear j kf.1 kf.2 u v
      else
        let major := (fcmp .ge lx ly).1
        let du := if major then nth 0 w 4 else nth 0 w 6
        let dv := if major then nth 0 w 5 else nth 0 w 7
        (s.taps j kf.1 kf.2 n u v du dv n).map (map4 (fun z => (fmul z (unorm 1 n)).1))
  | some _, none => .of [0, 0, 0, 0]
  | none, _ => .of [0, 0, 0, 0]

/-- The coordinate words of a lane. -/
def State.coordWords (s : State) (i a n : Nat) : List Word := (List.range n).map (fun k => s.rv i (a + k))

/-- The SMP of a lane of the unit. -/
def State.smpLane (s : State) (o : SmpOp) (a tid i : Nat) : Sample :=
  s.sample o (s.pathFloors s.unit.g 4) s.space s.me.seg (s.descOf tid) (s.coordWords i a (if o.grad then 8 else 4))

/-- The checks of an SMP: its slot, then each lane's texels (R175, R247). -/
def smpCheck (o : SmpOp) (a tid : Nat) (s : State) (i : Nat) : Option Cause :=
  match s.slotCause [⟨tid, true, false, [2], fun _ => true, fun _ => 0⟩] with
  | some c => some c
  | none => match (s.smpLane o a tid i).ended with
    | some (.fault c va) => some (s.addrCause c va i)
    | some .unstated => none
    | none => none

/-- The result words of a lane's sample: all four marked where a texel was poisoned; open where the spec carries on no further. -/
def State.smpWords (s : State) (i : Nat) (x : Sample) : List (Word × Bool) :=
  if x.ended.isNone then x.ch.map (fun w => (w, x.bad))
  else (List.range 4).map (fun k => (Config.freeWord (256 * s.fresh + 4 * i + k), false))

/-- The pages that a sample read through, each with the address read. -/
def State.texPages (s : State) (x : Sample) : List (Leaf × Nat) :=
  x.used.filterMap (fun va => match s.access s.space va .read 0 with
    | .error _ => none
    | .ok l => some (l, va))
/-- The lines that a sample read. -/
def State.texLines (s : State) (x : Sample) : List Nat := distinct ((s.texPages x).map (fun e => memLine (s.keyOf s.space e.1 e.2)))

/-- SMP (R245): its texel reads are reads of the unit (R18), and set the walker's marks (R354). -/
def execSmp (la : La) (d a : Reg) (tid : Tid) (filt : Filt) (aniso : Aniso) (grad : Bool) (wrap : Wrap) : Meaning := fun s =>
  let o : SmpOp := ⟨filt, anisoRatio aniso, grad, wrap, (s.coreOf s.unit.g).exact⟩
  issue ⟨[(a.toNat, if grad then 8 else 4)], [(d.toNat, 4)], [], []⟩ (smpCheck o a.toNat tid.toNat) la.toNat
    (fun s =>
      let x := fun i => s.smpLane o a.toNat tid.toNat i
      if !s.acts.all (fun i => (x i).used.all (s.fetchOpen s.unit.g .smp s.space)) then s.stall else
      let t := (s.acts.flatMap (fun i => s.texPages (x i))).foldl (fun t e => t.touch s.space e.1 false)
        (s.noteReads (fun i => s.texLines (x i)))
      t.spent.deliver la.toNat (s.acts.flatMap (fun i => markedDests (vkey i d.toNat) (s.smpWords i (x i)))) 0) s

end Sys2Proof.Machine
end

