-- ==== Sys2Proof/Machine/Sparge.lean ====
section
/-!
DEFINITION.  Sparge, the reservoir reuse engine, and its callables (R357, R360 to R365).
-/

namespace Sys2Proof.Machine

/-! ### The record and the checks at issue -/

/-- Fields of the Sparge parameter record (R361). -/
def pCtl (d : Desc) : Nat := Desc.field d 4 4
def pK (d : Desc) : Nat := bits (pCtl d) 8 4
def pTemp (d : Desc) : Bool := (pCtl d).testBit 12
def pRecon (d : Desc) : Bool := (pCtl d).testBit 13
def pVis (d : Desc) : Bool := (pCtl d).testBit 14
def pSrc (d : Desc) : Nat := bits (pCtl d) 16 4
def pPrev (d : Desc) : Nat := bits (pCtl d) 20 4
def pDst (d : Desc) : Nat := bits (pCtl d) 24 4
def pMvBase (d : Desc) : Nat := Desc.field d 0x08 8
def pGBase (d : Desc) : Nat := Desc.field d 0x10 8
def pMvPitch (d : Desc) : Nat := Desc.field d 0x18 4
def pGPitch (d : Desc) : Nat := Desc.field d 0x1C 4
def pRadius (d : Desc) : Word := BitVec.ofNat 32 (Desc.field d 0x20 4)
def pCapT (d : Desc) : Nat := Desc.field d 0x24 2
def pCapF (d : Desc) : Nat := Desc.field d 0x26 2
def pKey (d : Desc) : Word := BitVec.ofNat 32 (Desc.field d 0x28 4)
def pCall (d : Desc) : Nat := Desc.field d 0x2C 4
def pBudget (d : Desc) : Nat := Desc.field d 0x30 1
def pAslot (d : Desc) : Nat := bits (Desc.field d 0x31 1) 0 6
def pRmask (d : Desc) : Nat := Desc.field d 0x32 1
def pTmin (d : Desc) : Word := BitVec.ofNat 32 (Desc.field d 0x34 4)
/-- The record asks for rays. -/
def pRays (d : Desc) : Bool := pRecon d || pVis d

/-- The reserved bits are 0 and the fields in range (R357, R361). -/
def spargeFields (d : Desc) : Bool :=
  !(pCtl d).testBit 15 && bits (pCtl d) 28 4 == 0 && decide (pK d ≤ 8) && decide (pMvPitch d % 4 = 0) && decide (pGPitch d % 16 = 0)
    && !notFinite (pRadius d) && (fcmp .gt (pRadius d) 0).1 && (fcmp .le (pRadius d) 0x42800000).1
    && decide (pCall d % 4 = 0) && budgetOk (pBudget d) && Desc.field d 0x31 1 / 64 == 0 && Desc.field d 0x33 1 == 0
    && (fcmp .gt (pTmin d) 0).1 && (fcmp .lt (pTmin d) 0x3F000000).1 && Desc.field d 0x38 72 == 0

/-- The rectangle: first tile and size, from the argument scalars (R361). -/
def rectX (a : Word) : Nat := bits a.toNat 0 16
def rectY (a : Word) : Nat := bits a.toNat 16 16

/-- The demands of reason 4 on the record with its arguments; a size past the file counts as the least (R175, R361; log entry 58). -/
def State.spargeForm (s : State) (ar : Nat) (d : Desc) : Bool :=
  let c := s.dieC.rsNext
  let a := s.rs ar
  let b := if ar < 127 then s.rs (ar + 1) else 0x00010001
  s.hasStore s.space && decide (1 ≤ rectX b) && decide (1 ≤ rectY b)
    && decide (pSrc d < c.rsLayers) && decide (pPrev d < c.rsLayers) && decide (pDst d < c.rsLayers)
    && pDst d != pSrc d && !(pTemp d && pDst d == pPrev d)
    && decide (rectX a + rectX b ≤ c.rsTW) && decide (rectY a + rectY b ≤ c.rsTH)

/-- Slot ASLOT is not a valid KIND 3 slot where the record asks for rays (R361). -/
def State.aslotCause (s : State) (d : Desc) : Option Cause :=
  if !pRays d then none
  else match s.myTeam.slot (pAslot d) with
    | none => some (s.tensorId (pAslot d) 1)
    | some x => if Desc.kind x = 3 then none else some (s.tensorId (pAslot d) 3)

/-- Commands an engine queues (R361). -/
def spargeCapacity : Nat := 16
/-- No core: where the callables of a command that has not started are. -/
def noCore : Nat := 1024

/-- The callable team of a command: the issuing team's tensor table as it stands (R363). -/
def State.callableTeam (s : State) : Team :=
  { Team.blank with
    exec := s.myTeam.exec, core := noCore, teamId := s.myTeam.teamId, width := 32, tensors := s.myTeam.tensors, callable := true
    age := s.myTeam.age }

/-- A command enters its cluster's queue. -/
def State.enterSparge (s : State) (c : Cmd) : State :=
  let s1 := { s.setTeam (s.nextKey + 1) s.callableTeam with nextKey := s.nextKey + 1 }
  s1.onSparge (clusterOf s.myTeam.core) (fun e => { e with queue := e.queue ++ [{ c with m := s.nextKey + 1 }] })

/-- SPARGE (R361). -/
def execSparge (tid : Tid) (ar tok : Reg) : Meaning :=
  bulk (fun _ => argRun ar.toNat 3)
    (fun s => firstSome [s.recordCause tid.toNat 1 spargeFields (s.spargeForm ar.toNat) (ar.toNat + 3),
      s.aslotCause (s.descOf tid.toNat)]) tok
    (fun s => s.dieC.rsPhase != 4 && decide ((s.sparge (clusterOf s.myTeam.core)).queue.length < spargeCapacity))
    (fun s => { s.command 5 tok 1 [s.rs ar.toNat, s.rs (ar.toNat + 1), s.rs (ar.toNat + 2)] (s.descOf tid.toNat)
      (s.descOf (pAslot (s.descOf tid.toNat))) with waited := s.tick })
    (fun c s => s.enterSparge c)

/-! ### Records -/

/-- The mark of a record's sector when its parts stood at some versions: what the first write after them met, or, where there is none,
the mark it has now; a fully fenced die answers poisoned whatever the version (R278, R419). -/
def State.markAt (s : State) (key : Nat) (vs : List (Nat × Nat)) : Bool :=
  let next := vs.filterMap (fun e => let x := s.part e.1
    if e.2 < x.count then some (x.ver (e.2 + 1)) else none)
  match next with
  | [] => s.tainted key
  | v :: ws =>
    (ws.foldl (fun (a : Version) b => if b.time < a.time then b else a) v).was || decide (s.dieFence (keyDie key) = 2)
      || fget false s.spoilt (key / 32)

/-- A record as an engine reads it at its home, with its mark: whole, as it stood at some time not before its floors, freely (R239, R360,
R365). -/
def State.recordSeen (s : State) (fl : Floors) (key : Nat) : Nat × Bool :=
  let ps := (List.range 4).map (fun j => key / 8 + j)
  let at_ := fun (t : Nat) => ps.map (fun p => (s.part p).before t)
  let times := ((0 :: ps.flatMap (fun p => (s.part p).versions.map Version.time)).map at_).filter (fun vs =>
    (ps.zip vs).all (fun e => decide (min (fget 0 fl e.1) (s.part e.1).count ≤ e.2)))
  let vs := nth (ps.map (fun p => (s.part p).count)) times (Config.readChoice s.fresh (key / 8) % max 1 times.length)
  ((ps.zip vs).foldr (fun e y => ((s.part e.1).at e.2).toNat + 2 ^ 64 * y) 0, s.markAt key (ps.zip vs))

/-- The tile column at the border on the other die's side, for an engine of a die (R360). -/
def DieC.borderTile (c : DieC) (die : Nat) : Nat := if die = 0 then c.rsTA else c.rsTA - 1

/-- The layers that a command reads: its source layer, and with TEMP the history layer (R360, R362). -/
def sourceLayers (d : Desc) : List Nat := if pTemp d then [pSrc d, pPrev d] else [pSrc d]

/-- The addresses of the records of the border column in the layers that a command reads (R359, R360). -/
def State.borderVas (s : State) (cl : Nat) (c : Cmd) : List Nat :=
  (sourceLayers c.desc).flatMap (fun l => (List.range s.dieC.rsH).flatMap (fun y => (List.range 16).filterMap (fun j =>
    s.dieC.recordVa (16 * s.dieC.borderTile (cl / 16) + j) y l)))

/-- The border column as the engine copies it at the start of a command: the records whose pages let them be read (R360). -/
def State.borderCopy (s : State) (cl : Nat) (c : Cmd) : List (Nat × Nat × Bool) :=
  (s.borderVas cl c).filterMap (fun va => match s.access c.space va .read 0 with
    | .error _ => none
    | .ok l => some (va, s.recordSeen c.floors (s.keyOf c.space l va)))

/-- What the copy of the border column holds at an address (R360). -/
def State.copied (s : State) (cl va : Nat) : Option (Nat × Bool) :=
  ((s.sparge cl).border.find? (fun e => e.1 == va)).map Prod.snd

/-! ### Callables -/

/-- A callable group at its start: the c-th of its command (R363). -/
def Exec.callableGroup (e : Exec) (team c call : Nat) (p : Place) (stamp : Nat) : Group :=
  let g := e.group team (32 + c) p 0 32 stamp
  { g with
    lanes := g.lanes.map (fun l => { l with lpc := BitVec.ofNat 32 call, clean := BitVec.ofNat 32 call })
    csr := { g.csr with role := 2, autow := false, tvec := 0, prio := 22 }
    seg := { g.seg with sl := 0 } }

/-- The cores of a cluster that have room for a callable group, each with the place (R363). -/
def State.callableRooms (s : State) (cl pool budget : Nat) : List (Nat × Place) :=
  (List.range 6).flatMap (fun k =>
    let core := 16 * cl + k
    match s.fitOn core ⟨((s.core core).split).getD pool, 0, 32, [budget]⟩ with
    | some (p :: _) => [(core, p)]
    | some [] => []
    | none => [])

/-- The most callable groups of a command (R363). -/
def callableMost : Nat := 8

/-- The stores of the issuing group that a command observes are applied: its earlier RSV.STs (R365). -/
def State.spargeSees (s : State) (c : Cmd) : Bool :=
  (s.grp c.group).stores.all (fun r => !r.rsvs || r.applied.isSome || decide (c.waited < r.time))

/-- The c-th callable group of a command starts on a core, as a callable team of its own (R363). -/
def State.startCallable (s : State) (cl : Nat) (c : Cmd) (j tk : Nat) (room : Nat × Place) : State :=
  let (core, p) := room
  let e := s.exec (s.team c.m).exec
  let s1 := s.setCore core { s.core core with split := some (((s.core core).split).getD e.pool) }
  let s2 := s1.setTeam tk { s.team c.m with core := core, lanes := 32, groups := 1 }
  let s3 := s2.addGroup (groupKey tk 0) (e.callableGroup tk j (pCall c.desc) p (s.cycle (coreDie core)))
  s3.onSparge cl (fun x => { x with teams := x.teams ++ [tk] })

/-- Further callable groups of a command start, as long as there is room and the engine, freely, goes on (R363). -/
def State.moreCallables (s : State) (cl : Nat) (c : Cmd) : Nat → Nat → State
  | 0, _ => s
  | n + 1, x =>
    match s.callableRooms cl (s.exec (s.team c.m).exec).pool (pBudget c.desc) with
    | [] => s
    | r :: rs =>
      if x % 2 = 0 then s
      else
        let t := s.startCallable cl c (callableMost - 1 - n) s.nextKey (nth r (r :: rs) (x / 2 % (rs.length + 1)))
        ({ t with nextKey := s.nextKey + 1 }).moreCallables cl c n (x / 16)

/-- SPARGE_START: the oldest command of a cluster starts, once its store serves and there is room for a callable group; the number of
its groups and their cores are the engine's choice (R362, R363).  The border column is copied (R360). -/
def execSpargeStart (cluster : Nat) : Meaning := fun s =>
  match (s.sparge cluster).queue with
  | [] => .next s
  | c :: _ =>
    if c.started || !s.lives c.team || s.dieC.rsPhase = 1 || !s.spargeSees c || s.dieDown (cluster / 16)
        || !(s.borderVas cluster c).all (s.wayAt (spargeEnd cluster) c.space) then .next s
    else
      match s.callableRooms cluster (s.exec (s.team c.m).exec).pool (pBudget c.desc) with
      | [] => .next s
      | r :: rs =>
        let s1 := s.spent.onSparge cluster (fun _ => { Sparge.idle with
          queue := (s.sparge cluster).queue
          border := s.borderCopy cluster c })
        let t := (s1.startCallable cluster c 0 c.m (nth r (r :: rs) (s.choice % (rs.length + 1)))).moreCallables cluster c
          (callableMost - 1) (s.choice / 8)
        .next (t.onSparge cluster (fun e => { e with queue := { c with started := true } :: e.queue.tail }))

/-! ### A pixel's reads -/

/-- A pixel of a command's rectangle by its ordinal (R365). -/
def Cmd.pixelAt (c : Cmd) (n : Nat) : Nat × Nat :=
  let w := 16 * rectX (nth 0 c.args 1)
  (16 * rectX (nth 0 c.args 0) + n % w, 16 * rectY (nth 0 c.args 0) + n / w)
/-- Ordinals of the rectangle. -/
def Cmd.pixels (c : Cmd) : Nat := 256 * rectX (nth 0 c.args 1) * rectY (nth 0 c.args 1)

/-- The pixel is on the screen (R362). -/
def DieC.onScreen (c : DieC) (x y : Int) : Bool := decide (0 ≤ x) && decide (x < c.rsW) && decide (0 ≤ y) && decide (y < c.rsH)

/-- An integer by RNE of a finite FP32 word (R75). -/
def rneInt (w : Word) : Int := (cvtS32F32 .rne w).1.toInt

/-- Draw d of a pixel (R362). -/
def Cmd.draw (c : Cmd) (p d : Nat) : Word := rngFloat (BitVec.ofNat 32 (32 * p + d)) (pKey c.desc ^^^ nth 0 c.args 2)

/-- The pixel of spatial candidate j (R362). -/
def Cmd.neighbour (c : Cmd) (p x y j : Nat) : Int × Int :=
  let rho := (fmul (pRadius c.desc) (sfu c.exact .sqrt (c.draw p (3 * j + 2))).1).1
  let a := (fmul 0x40000000 (c.draw p (3 * j + 3))).1
  (x + rneInt (fmul rho (sfu c.exact .cospi a).1).1, y + rneInt (fmul rho (sfu c.exact .sinpi a).1).1)

/-- A read that a pixel makes: words with marks, or the fault's code. -/
abbrev PixelRead := Except Nat (List (Word × Bool))

/-- Words from a global address, each under the segment, the page and its mark (R365). -/
def State.pixelWords (s : State) (c : Cmd) (va n : Nat) : PixelRead :=
  (List.range n).foldr (fun j acc =>
    let a := (va + 4 * j) % 2 ^ 64
    let g := s.cmdRead c (Segs.covers c.seg 0 a 4) a 4
    match g.fault, acc with
    | some f, _ => .error f
    | none, .error f => .error (if g.bad then 0x0A else f)
    | none, .ok l => if g.bad then .error 0x0A else .ok ((BitVec.ofNat 32 g.val, false) :: l)) (.ok [])

/-- A record of a layer, whole, with its mark: from the copy of the border column where it holds it (R360, R365). -/
def State.pixelRecord (s : State) (cl : Nat) (c : Cmd) (x y l : Nat) : PixelRead :=
  match s.dieC.recordVa x y l with
  | none => .error 6
  | some va => match s.access c.space va .read 0 with
    | .error f => .error f
    | .ok lf =>
      let r := (s.copied cl va).getD (s.recordSeen c.floors (s.keyOf c.space lf va))
      .ok ((List.range 8).map (fun j => (BitVec.ofNat 32 (r.1 / 2 ^ (32 * j)), r.2)))

/-- The destination record's page lets it be written (R365). -/
def State.pixelDest (s : State) (c : Cmd) (x y : Nat) : Option Nat :=
  match s.dieC.recordVa x y (pDst c.desc) with
  | none => some 6
  | some va => match s.access c.space va .write 0 with
    | .error f => some f
    | .ok _ => none

/-- M of a record capped, where the cap is not 0. -/
def capM (cap : Nat) (ws : List (Word × Bool)) : List (Word × Bool) :=
  if cap = 0 then ws
  else
    let r := withM (ws.map Prod.fst) (min (recM (ws.map Prod.fst)) cap)
    mapFrom (fun j (w : Word) => (w, (nth (0, false) ws j).2)) 0 r

/-- The temporal candidate of a pixel: none where it is skipped (R362). -/
def State.temporal (s : State) (cl : Nat) (c : Cmd) (n x y : Nat) : Except Nat (List Candidate) :=
  if !pTemp c.desc then .ok []
  else match s.pixelWords c ((pMvBase c.desc + y * pMvPitch c.desc + 4 * x) % 2 ^ 64) 1 with
    | .error f => .error f
    | .ok ws =>
      let w := (nth (0, false) ws 0).1
      let mx := halfWord (bits w.toNat 0 16)
      let my := halfWord (bits w.toNat 16 16)
      if notFinite mx || notFinite my then .ok []
      else
        let xt := (x : Int) + rneInt mx
        let yt := (y : Int) + rneInt my
        if !s.dieC.onScreen xt yt then .ok []
        else match s.pixelRecord cl c xt.toNat yt.toNat (pPrev c.desc) with
          | .error f => .error f
          | .ok r => .ok [⟨n, 0, (xt.toNat, yt.toNat), (x, y), capM (pCapT c.desc) r⟩]

/-- The spatial candidates of a pixel, in order (R362). -/
def State.spatial (s : State) (cl : Nat) (c : Cmd) (n x y : Nat) : List Nat → Except Nat (List Candidate)
  | [] => .ok []
  | j :: js =>
    let (xn, yn) := c.neighbour (y * s.dieC.rsW + x) x y j
    match s.spatial cl c n x y js with
    | .error f => if s.dieC.onScreen xn yn && !(xn == x && yn == y) then
        (match s.pixelRecord cl c xn.toNat yn.toNat (pSrc c.desc) with
          | .error g => .error g
          | .ok _ => .error f) else .error f
    | .ok l =>
      if !s.dieC.onScreen xn yn || (xn == x && yn == y) then .ok l
      else match s.pixelRecord cl c xn.toNat yn.toNat (pSrc c.desc) with
        | .error f => .error f
        | .ok r => .ok (⟨n, 1 + j, (xn.toNat, yn.toNat), (x, y), r⟩ :: l)

/-- The kind under which a pixel's own record waits for its candidates. -/
def kindSource : Nat := 16

/-- What a pixel needs before its candidates are answered: its source record with its position, and its candidates; or the code
of its fault (R362, R365). -/
def State.pixelParts (s : State) (cl : Nat) (c : Cmd) (n x y : Nat) : Except Nat (Candidate × List Candidate) :=
  match s.pixelRecord cl c x y (pSrc c.desc), s.temporal cl c n x y with
  | .error f, _ => .error f
  | .ok _, .error f => .error f
  | .ok r, .ok t =>
    match (if pRays c.desc then s.pixelWords c ((pGBase c.desc + y * pGPitch c.desc + 16 * x) % 2 ^ 64) 3 else .ok []),
        s.spatial cl c n x y (List.range (pK c.desc)), s.pixelDest c x y with
    | .error f, _, _ => .error f
    | .ok _, .error f, _ => .error f
    | .ok _, .ok _, some f => .error f
    | .ok pos, .ok l, none => .ok (⟨n, kindSource, (x, y), (x, y), r ++ pos⟩, t ++ l)

/-- The addresses that a pixel's reads are at. -/
def State.pixelVas (s : State) (c : Cmd) (x y : Nat) (cs : List Candidate) : List Nat :=
  let rec_ := fun (x y l : Nat) => ((s.dieC.recordVa x y l).map (fun v => [v])).getD []
  rec_ x y (pSrc c.desc)
    ++ (if pTemp c.desc then [(pMvBase c.desc + y * pMvPitch c.desc + 4 * x) % 2 ^ 64] else [])
    ++ (if pRays c.desc then [(pGBase c.desc + y * pGPitch c.desc + 16 * x) % 2 ^ 64] else [])
    ++ cs.flatMap (fun k => rec_ k.pixel.1 k.pixel.2 (if k.kind = 0 then pPrev c.desc else pSrc c.desc))

/-- A pixel's reads, those that the copy of the border column serves apart, find their ways open (R327, R360). -/
def State.pixelOpen (s : State) (cl : Nat) (c : Cmd) (vas : List Nat) : Bool :=
  vas.all (fun va => (s.copied cl va).isSome || s.wayAt (spargeEnd cl) c.space va)

/-- The walker's part in a pixel's reads. -/
def State.pixelTouch (s : State) (c : Cmd) (vas : List Nat) : State := vas.foldl (fun t va => t.engineTouch c.space va .read) s

/-! ### The steps of a command -/

/-- The running command of a cluster replaced. -/
def State.setSparge (s : State) (cl : Nat) (c : Cmd) : State := s.onSparge cl (fun e => { e with queue := c :: e.queue.tail })

/-- The next pixel is read, once its ways are open (R327, R362). -/
def State.spargePrepare (s : State) (cl : Nat) (c : Cmd) : Option State :=
  if c.pixels ≤ c.done then none
  else
    let (x, y) := c.pixelAt c.done
    let d := { c with done := c.done + 1 }
    if !s.dieC.onScreen x y then some (s.setSparge cl d)
    else match s.pixelParts cl c c.done x y with
      | .error f =>
        let vas := s.pixelVas c x y []
        if s.pixelOpen cl c vas then some ((s.pixelTouch c vas).setSparge cl (d.note f c.done)) else none
      | .ok (src, cs) =>
        let vas := s.pixelVas c x y cs
        let t := (s.pixelTouch c vas).setSparge cl d
        if !s.pixelOpen cl c vas then none
        else some (t.onSparge cl (fun e => { e with todo := e.todo ++ cs, ready := e.ready ++ [src] }))

/-- The q6 record of a candidate, with the marks of its words (R363). -/
def Candidate.entry (k : Candidate) : List (Word × Bool) :=
  let w := nth (0, false) k.words
  let pack := fun (p : Nat × Nat) => (BitVec.ofNat 32 (p.1 + 65536 * p.2), false)
  [w 0, w 1, w 2, w 3, pack k.source, pack k.pixel, w 6, (BitVec.ofNat 32 k.kind, false)]

/-- The key of the j-th callable group of the command that runs. -/
def Sparge.callableKey (e : Sparge) (j : Nat) : Nat := groupKey (nth 0 e.teams j) 0

/-- Candidates are pushed to a callable group that has room, freely packed: `size` of them at most (R363). -/
def State.spargePush (s : State) (cl pick size : Nat) : Option State :=
  let e := s.sparge cl
  let free := (List.range e.teams.length).filter (fun j => decide (((s.grp (e.callableKey j)).queue 6).length < queueSize))
  match e.todo, free with
  | [], _ => none
  | _ :: _, [] => none
  | _ :: _, j :: js =>
    let g := nth j (j :: js) (pick % (js.length + 1))
    let n := min (1 + size % 32) e.todo.length
    let cs := e.todo.take n
    let k := e.callableKey g
    let en := entryFrom (maskOf (fun i => decide (i < n)) 64) (List.range n) (fun i => (nth ⟨0, 0, (0, 0), (0, 0), []⟩ cs i).entry)
    let t := s.onGrp k (fun x => x.push (s.clockOf k) 6 en)
    some (t.onSparge cl (fun e => { e with todo := e.todo.drop n, open_ := e.open_ ++ [(g, mapFrom (fun i c => (i, c)) 0 cs)] }))

/-- p̂ of a lane of an answer (R363). -/
def phatOf (en : QEntry) (i : Nat) : Word :=
  let w := fget 0 en.words (8 * i)
  if !en.mask.getLsbD i || badRecordWeight w then 0 else w

/-- A candidate with its p̂. -/
def Candidate.answered (k : Candidate) (p : Word) : Candidate := { k with words := setNth k.words 5 (p, (nth (0, false) k.words 5).2) }

/-- An answer of a callable group is taken (R363). -/
def State.spargeTake (s : State) (cl : Nat) : Option State :=
  let e := s.sparge cl
  match (List.range e.teams.length).find? (fun j => !((s.grp (e.callableKey j)).queue 7).isEmpty && e.open_.any (fun o => o.1 == j)) with
  | none => none
  | some j =>
    let k := e.callableKey j
    match (s.grp k).queue 7, e.open_.find? (fun o => o.1 == j) with
    | en :: rest, some o =>
      let t := s.onGrp k (fun g => (g.setQueue 7 rest).wake (s.clockOf k) (WaitOn.onQueue 7))
      some (t.onSparge cl (fun e => { e with
        open_ := e.open_.erase o
        ready := e.ready ++ o.2.map (fun p => p.2.answered (phatOf en p.1)) }))
    | [], _ => none
    | _ :: _, none => none

/-- The candidate of a kind of a pixel is not answered. -/
def Sparge.pending (e : Sparge) (n : Nat) : Bool :=
  e.todo.any (fun k => k.ordinal == n) || e.open_.any (fun o => o.2.any (fun p => p.2.ordinal == n))

/-- What a ray of R364 finds: its end is visible, its status is not OK, and the addresses that it fetched. -/
structure Sight where
  visible : Bool
  bad : Bool
  used : List Nat
  deriving DecidableEq, Repr

/-- A ray of R364 from a pixel's position to a payload. -/
def State.spargeRay (s : State) (c : Cmd) (pos payload : List Word) (i : Nat) : Sight :=
  let w := [nth 0 pos 0, nth 0 pos 1, nth 0 pos 2, pTmin c.desc, nth 0 payload 0, nth 0 payload 1, nth 0 payload 2,
    (fsub 0x3F800000 (pTmin c.desc)).1]
  let (r, used) := s.rayRecord c.floors c.space c.seg c.desc2 true true (pRmask c.desc) 0 0 i w
  let bad := bits (nth 0 r 7).toNat 0 8 != 0
  ⟨!bad && nth 0 r 0 == 1, bad, used⟩

/-- Merge the candidates of a pixel in order: the record, and the rays cast (R362, R364). -/
def State.spargeMerge (s : State) (c : Cmd) (p : Nat) (pos : List Word) : List Candidate → List Word → List Sight → List Word × List Sight
  | [], r, rays => (r, rays)
  | k :: ks, r, rays =>
    let w := k.words.map Prod.fst
    let ray := if pRecon c.desc && k.kind ≠ 0 then [s.spargeRay c pos [nth 0 w 1, nth 0 w 2, nth 0 w 3] (1 + k.kind)] else []
    let w1 := if ray.all Sight.visible then w else setNth w 5 0
    let u := c.draw p (if k.kind = 0 then 0 else 3 * (k.kind - 1) + 1)
    s.spargeMerge c p pos ks (rsvSelect true r w1 u).1 (rays ++ ray)

/-- The record a pixel writes, its mark, and the rays cast (R362, R365). -/
def State.spargeResult (s : State) (c : Cmd) (src : Candidate) (cs : List Candidate) : List Word × Bool × List Sight :=
  let (x, y) := src.pixel
  let r0 := (src.words.take 8).map Prod.fst
  let pos := (src.words.drop 8).map Prod.fst
  let (r1, n1) := s.spargeMerge c (y * s.dieC.rsW + x) pos cs r0 []
  let r2 := (rsvNormal r1 (BitVec.ofNat 32 (pCapF c.desc))).1
  let vis := pVis c.desc && recM r2 != 0 && !(val32 (nth 0 r2 6)).isZero
  let ray := if vis then [s.spargeRay c pos [nth 0 r2 1, nth 0 r2 2, nth 0 r2 3] 0] else []
  (if ray.all Sight.visible then r2 else setNth r2 6 0, src.words.any Prod.snd || cs.any (fun k => k.words.any Prod.snd), n1 ++ ray)

/-- Candidates in the order of their kinds. -/
def byKind (l : List Candidate) : List Candidate := (List.range kindSource).flatMap (fun k => l.filter (fun c => c.kind == k))

/-- Write a whole record for a command and note it (R239, R365). -/
def State.recordWrite (s : State) (c : Cmd) (va x : Nat) (bad : Bool) : State × Cmd :=
  match s.access c.space va .write 0 with
  | .error _ => (s, c)
  | .ok l =>
    let cs := cellsOf (s.keyOf c.space l va) x 32
    let t := ((s.touch c.space l true).applyAs true (s.cmdAgent c) cs).1
    let u := t.spoil (if bad then cs.map Prod.fst else [])
    (u, u.noteParts c cs)

/-- A pixel whose candidates are all answered is written, once the ways of its rays and of its record are open (R327, R362, R365); lines
that held an error no fetch had met are marked (R232). -/
def State.spargeWrite (s : State) (cl : Nat) (c : Cmd) : Option State :=
  let e := s.sparge cl
  match e.ready.find? (fun k => k.kind == kindSource && !e.pending k.ordinal) with
  | none => none
  | some src =>
    let cs := byKind (e.ready.filter (fun k => k.ordinal == src.ordinal))
    let (r, mark, rays) := (s.withErrors s.strikes).spargeResult c src cs
    let used := distinct (rays.flatMap Sight.used)
    let bad := (rays.filter Sight.bad).length
    let va := (s.dieC.recordVa src.pixel.1 src.pixel.2 (pDst c.desc)).getD 0
    let drop := fun (t : State) => t.onSparge cl (fun e => { e with ready := e.ready.filter (fun k => k.ordinal != src.ordinal) })
    let d := cl / 16
    let s0 := s.meetErrors c.space used
    let s1 := s0.setDie d { s0.die d with rayErrors := fset 0 (s0.die d).rayErrors (cl % 16) (fget 0 (s0.die d).rayErrors (cl % 16) + bad) }
    if !used.all (s.wayAt (spargeEnd cl) c.space) || !s.wayAt (spargeEnd cl) c.space va then none
    else match s1.pixelDest c src.pixel.1 src.pixel.2 with
    | some f => some ((drop s1).setSparge cl (c.note f src.ordinal)).spent
    | none =>
      let (t, d) := s1.recordWrite c va (joinWords r) mark
      some ((drop t).setSparge cl d).spent

/-- The callable teams of a running command, and the one that a waiting command keeps, end (R363). -/
def State.dropCallables (s : State) (cl : Nat) (c : Cmd) : State :=
  ((s.sparge cl).teams).foldl (fun t tk => t.dropTeam tk) (s.dropTeam c.m)

/-- The command has no further candidates: every pixel is read, and every candidate answered (R363). -/
def Sparge.spent (e : Sparge) (c : Cmd) : Bool := decide (c.pixels ≤ c.done) && e.todo.isEmpty && e.open_.isEmpty

/-- A lane of a callable group has not exited. -/
def State.callableRuns (s : State) (cl : Nat) : Bool :=
  (s.sparge cl).teams.any (fun tk => (s.grp (groupKey tk 0)).lanes.any (fun l => l.st != .exited && l.st != .absent))

/-- The engine makes every lane of its callable groups EXITED once the command has no further candidates (R363). -/
def State.spargeExit (s : State) (cl : Nat) (c : Cmd) : Option State :=
  if (s.sparge cl).spent c && s.callableRuns cl then
    some ((s.sparge cl).teams.foldl (fun t tk => t.onGrp (groupKey tk 0) (fun g =>
      { g with lanes := g.lanes.map (fun l => if l.st = .absent then l else { l with st := .exited }) })) s)
  else none

/-- The command leaves its engine, with its callables (R363). -/
def State.dropSparge (s : State) (cl : Nat) (c : Cmd) : State :=
  (s.dropCallables cl c).onSparge cl (fun e => { e with
    queue := e.queue.filter (fun d => d.id != c.id), teams := [], todo := [], open_ := [], ready := [], fault := none, border := [] })

/-- A command that has done all its pixels, and whose callable groups have ended EXITED, ends (R363, R365). -/
def State.spargeEnd (s : State) (cl : Nat) (c : Cmd) : Option State :=
  let e := s.sparge cl
  if e.spent c && !s.callableRuns cl && e.ready.isEmpty && s.tellOpen (Machine.spargeEnd cl) c then some ((s.dropSparge cl c).finish c 5) else none

/-- The lowest pixel of a stopped command that was not written (R363). -/
def State.spargeLowest (s : State) (cl : Nat) (c : Cmd) : Nat :=
  let later := ((List.range (c.pixels - c.done)).map (fun j => c.done + j)).find? (fun n =>
    s.dieC.onScreen (c.pixelAt n).1 (c.pixelAt n).2)
  let waiting := ((s.sparge cl).ready.filter (fun k => k.kind == kindSource)).map Candidate.ordinal
  let all := waiting ++ (c.fault.map (fun f => [f.2])).getD [] ++ (later.map (fun n => [n])).getD []
  match all with
  | [] => 0
  | a :: as => minOf a (a :: as)

/-- The first of some steps, from one of them on, that can be taken. -/
def firstStep (s : State) (from_ : Nat) (l : List (State → Option State)) : State :=
  (((l.drop (from_ % l.length)) ++ l.take (from_ % l.length)).findSome? (fun f => f s)).getD s

/-- SPARGE_COMPLETE: the running command goes on by one step, freely chosen among those it can take; it stops where a callable has
trapped, and ends without a token where its launch has been stopped (R362, R363, R365). -/
def execSpargeComplete (cluster : Nat) : Meaning := fun s =>
  match (s.sparge cluster).queue with
  | [] => .next s
  | c :: _ =>
    if !s.lives c.team then .next (s.dropSparge cluster c)
    else if !c.started then .next s
    else match (s.sparge cluster).fault with
      | some code => if !s.tellOpen (spargeEnd cluster) c then .next s else .next ((s.dropSparge cluster c).finish { c with fault := some (code, s.spargeLowest cluster c) } 5)
      | none =>
        let x := s.choice
        .next (firstStep s.spent x [fun t => t.spargePrepare cluster c, fun t => t.spargePush cluster (x / 8) (x / 64),
          fun t => t.spargeTake cluster, fun t => t.spargeExit cluster c, fun t => t.spargeWrite cluster c,
          fun t => t.spargeEnd cluster c])

end Sys2Proof.Machine
end

