-- ==== Sys2Proof/Machine/Domains.lean ====
section
/-!
DEFINITION.  Fences and reset domains of the compute dies, package barriers that time out, and start-up (R413, R415 to R421,
R424, R441, R442, R444, R446, R447, R450).
-/

namespace Sys2Proof.Machine

/-! ### Memory that is lost -/

/-- The key lies in device memory or in a window, on one die or, with none named, on either. -/
def onDie (d : Option Nat) (key : Nat) : Bool :=
  !isHost key && (match d with
    | none => true
    | some n => keyDie key == n)

/-- Device memory of a die, or of both, reads 0 and is unmarked; its slices count from 0 (R417, R446). -/
def State.wipe (s : State) (d : Option Nat) : State :=
  let gone := fun (p : Nat) => onDie d (8 * p)
  let t := { s with
    mem := s.mem.filter (fun c => !onDie d c.1)
    marks := s.marks.filter (fun e => !onDie d (32 * e.1))
    parts := s.parts.filter (fun e => !gone e.1)
    wcount := s.wcount.filter (fun e => match d with
      | none => false
      | some n => e.1 / 256 != n) }
  t.forget gone

/-! ### Teams that are lost -/

/-- Some page of a saved team's block cannot be read: it does not translate, or a byte of it is homed on a die (R420). -/
def State.blockLost (s : State) (t : Team) (d : Nat) : Bool :=
  let e := s.exec t.exec
  let va := e.context + blockBytes * t.block.getD 0
  (List.range (blockBytes / 4096)).any (fun j =>
    match s.access e.as (va + 4096 * j) .read 0 with
    | .error _ => true
    | .ok l =>
      let key := s.keyOf e.as l (va + 4096 * j)
      !isHost key && keyDie key == d)

/-- The teams that a fence of a die loses: those on its cores, and at a full fence those whose saved context cannot be read
back (R416, R420). -/
def State.lostTeams (s : State) (d grade : Nat) : List Nat :=
  (s.teams.filter (fun t => !t.2.callable &&
    (if t.2.saved then decide (grade = 2) && s.blockLost t.2 d else coreDie t.2.core == d))).map Prod.fst

/-- The lowest TEAMID of some teams of an execution. -/
def State.lowestLost (s : State) (ek : Nat) (lost : List Nat) : Nat :=
  match (lost.filter (fun t => (s.team t).exec == ek)).map (fun t => (s.team t).teamId.toNat) with
  | [] => 0
  | a :: as => minOf a (a :: as)

/-- An execution has lost a team (R420): it is failed, its first fault says so, and its staged contributions are discarded. -/
def State.failExec (s : State) (ek : Nat) (lost : List Nat) : State :=
  let e := s.exec ek
  (s.setExec ek { e.addFault ⟨0x0A, 0x300, 0, 0, 0, BitVec.ofNat 32 (s.lowestLost ek lost), 0, true⟩ with failed := true }).dropStaged ek

/-- The package barriers of a failed execution at which a group stands or has arrived are broken (R424). -/
def State.breakGbars (s : State) (ek : Nat) : State :=
  (List.range 16).foldl (fun t b =>
    if !((t.exec ek).gbar b).came.isEmpty || t.groups.any (fun g => (t.team g.2.team).exec == ek && g.2.barredAt true b != 0)
    then t.breakGbar ek b else t) s

/-- The Sparge engines and the sorter of a die lose their commands; no token is written (R415, R416). -/
def State.dropEngines (s : State) (d : Nat) : State :=
  let t := (List.range 16).foldl (fun (u : State) c =>
    let n := 16 * d + c
    ((u.sparge n).queue.foldl (fun (v : State) q => v.dropCallables n q) u).onSparge n (fun _ => Sparge.idle)) s
  t.setDie d { t.die d with grist := [] }

/-- The cores of a die lose their contents (R415). -/
def State.clearCores (s : State) (d : Nat) : State := { s with cores := s.cores.filter (fun c => coreDie c.1 != d) }

/-- Merge two rising lists of TEAMIDs. -/
def insertId (x : Nat) : List Nat → List Nat
  | [] => [x]
  | y :: ys => if x < y then x :: y :: ys else y :: insertId x ys
/-- Merge a list of TEAMIDs into another. -/
def mergeIds (a b : List Nat) : List Nat := a.foldl (fun l x => insertId x l) b

/-- Teams pending for a die that takes none go to the other die (R348). -/
def State.repend (s : State) (d : Nat) : State :=
  if !s.dieDown d || s.dieDown (otherDie d) then s
  else { s with execs := fmapVals (fun _ (e : Exec) =>
    if d = 0 then { e with pendA := [], pendB := mergeIds e.pendA e.pendB }
    else { e with pendA := mergeIds e.pendB e.pendA, pendB := [] }) s.execs }

/-- The teams of a fence are lost (R420). -/
def State.loseTeams (s : State) (d grade : Nat) : State :=
  let lost := s.lostTeams d grade
  let eks := distinct (lost.map (fun t => (s.team t).exec))
  let s1 := eks.foldl (fun t ek => t.failExec ek lost) s
  let s2 := s1.dropEngines d
  let s3 := eks.foldl (fun t ek => t.breakGbars ek) s2
  let s4 := lost.foldl (fun t tk => t.endTeam tk) s3
  (s4.clearCores d).settle

/-! ### Fences -/

/-- Start-up has passed its self-tests: step 5 is done (R446, R450). -/
def State.bootOn (s : State) : State :=
  if s.dieC.bootstat = 4 && !s.dieA.testing && !s.dieB.testing then s.onC (fun c => { c with bootstat := 5 }) else s

/-- A fence of a grade has something to do: the die is not fenced so far, nor in a reset that is as deep (R418). -/
def State.fences (s : State) (d grade : Nat) : Bool := decide (d < 2) && decide (s.dieFence d < grade)

/-- Die C fences a compute die: 1 its cores, 2 all of it; one event record is sent (R418, R420, R421). -/
def State.fenceDie (s : State) (d grade cause : Nat) : State :=
  if !s.fences d grade then s
  else
    let s1 := s.setDie d { s.die d with state := grade, cause := cause, testing := false, domain := 0 }
    let s2 := (s1.loseTeams d grade).repend d
    (s2.event 6 (BitVec.ofNat 32 d) (BitVec.ofNat 32 grade) (BitVec.ofNat 32 cause)).bootOn

/-- DIE_CORE_FENCE: an uncorrectable error in core-domain control logic (R418). -/
def execDieCoreFence (die : Nat) : Meaning := fun s => .next (s.fenceDie die 1 2)

/-- DIE_FULL_FENCE: a fatal uncore error (R418). -/
def execDieFullFence (die : Nat) : Meaning := fun s => .next (s.fenceDie die 2 3)

/-! ### DIECTL -/

/-- DIECTL.CMD and the die that it names (R421). -/
def ctlCmd (v : Word) : Nat := bits v.toNat 0 2
def ctlDie (v : Word) : Nat := bits v.toNat 2 1

/-- A write of DIECTL with a command acts: it does not name a die in reset (R421). -/
def State.takesCtl (s : State) (v : Word) (cmd : Nat) : Bool :=
  s.dieC.open_ && decide (ctlCmd v = cmd) && decide ((s.die (ctlDie v)).state ≠ 3)

/-- LINKA as a write of DIECTL leaves it. -/
def State.putLinka (s : State) (v : Word) : State := s.onC (fun c => { c with linka := v.getLsbD 3 })

/-- DIECTL_CORE_FENCE (R418, R421). -/
def execDiectlCoreFence (v : Word) : Meaning := fun s =>
  if s.takesCtl v 1 then .next ((s.putLinka v).fenceDie (ctlDie v) 1 1) else .next s

/-- A domain of a die enters reset: 1 core, 2 uncore, 3 core of a fully fenced die (R416, R417). -/
def State.enterReset (s : State) (d domain : Nat) : State := s.setDie d { s.die d with state := 3, domain := domain }

/-- DIECTL_CORE_RESET: a running die is core-fenced first (R416, R421). -/
def execDiectlCoreReset (v : Word) : Meaning := fun s =>
  if !s.takesCtl v 2 then .next s
  else
    let d := ctlDie v
    let t := (s.putLinka v).fenceDie d 1 1
    .next (t.enterReset d (if (t.die d).state = 2 then 3 else 1))

/-- DIECTL_UNCORE_RESET: the die is fully fenced first (R417, R421). -/
def execDiectlUncoreReset (v : Word) : Meaning := fun s =>
  if s.takesCtl v 3 then .next (((s.putLinka v).fenceDie (ctlDie v) 2 1).enterReset (ctlDie v) 2) else .next s

/-! ### The ends of resets -/

/-- A core domain leaves reset: the width history is clear and the self-test begins (R26, R415, R416, R450). -/
def Die.coreStart (x : Die) : Die :=
  { x with state := 0, domain := 0, history := [], grist := [], rayErrors := [], testing := true }

/-- An uncore domain leaves reset (R251, R326, R371, R375, R415, R417). -/
def Die.uncoreStart (x : Die) : Die :=
  { x with netarb := Die.start.netarb, ordwd := Die.start.ordwd, display := Display.off, cycle := 0, walkErr := 0 }

/-- The routers, endpoints and links of a die hold nothing (R415). -/
def State.quietNet (s : State) (d : Nat) : State :=
  { s with
    links := s.links.filter (fun e => colDie (linkX e.1) != d)
    arbiters := s.arbiters.filter (fun e => arbiterDie e.1 != d) }

/-- The record of a self-test launch: priority 23, 64 lanes (R249, R450). -/
def testRecord : List Word :=
  (List.range 64).map (fun i => if i = 4 then 0x1700 else if i = 5 then 64 else if i = 6 then 0x00180000 else if i = 7 then 1 else 0)

/-- The end of the controller's test code, as it stands in the instruction buffer: EXIT. -/
def testCode : List (Nat × List Word) := [(0, List.replicate 4 0x4C000000)]

/-- A self-test launch starts on a core: its group in supervisor mode, HSET every lane, TVEC 0 (R450).  The controller's test code up to its
EXIT is not in the spec (log entry 39). -/
def State.startTest (s : State) (core : Nat) : State :=
  let ek := s.nextKey
  let tk := s.nextKey + 1
  let e : Exec := { Exec.blank with slot := controllerSlot, record := testRecord, width := 64, total := 1, teams := [tk], ran := [tk] }
  let g := e.group tk 0 ⟨0, 0, 0, 64, 24⟩ 0 64 (s.cycle (coreDie core))
  ((({ s with nextKey := s.nextKey + 2 }.setExec ek e).setTeam tk (e.team ek core 0)).addGroup (groupKey tk 0)
    { g with csr := { g.csr with sup := true, hset := BitVec.allOnes 64 }, ibuf := testCode })

/-- The self-test launches of a die's cores start (R450). -/
def State.startTests (s : State) (d : Nat) : State := (coresOf d).foldl State.startTest s

/-- The teams of a die's self-test launches that have not completed. -/
def State.testTeams (s : State) (d : Nat) : List Nat :=
  (s.teams.filter (fun t => coreDie t.2.core == d && (s.exec t.2.exec).slot == controllerSlot)).map Prod.fst

/-- The open package phases count on as die A's cycles start anew (R424). -/
def State.carryGbars (s : State) : State :=
  { s with execs := fmapVals (fun _ (e : Exec) => { e with gbars := fmapVals (fun _ (x : GBar) => x.carry s.dieA.cycle) e.gbars }) s.execs }

/-- CORE_RESET_DONE (R416). -/
def execCoreResetDone (die : Nat) : Meaning := fun s =>
  if die < 2 && (s.die die).state = 3 && (s.die die).domain ≠ 2 then
    .next (((s.clearCores die).setDie die (s.die die).coreStart).startTests die) else .next s

/-- UNCORE_RESET_DONE (R415, R417): the translation caches are empty. -/
def execUncoreResetDone (die : Nat) : Meaning := fun s =>
  if die < 2 && (s.die die).state = 3 && (s.die die).domain = 2 then
    let t := ((((if die = 0 then s.carryGbars else s).clearCores die).wipe (some die)).quietNet die).setDie die
      (s.die die).coreStart.uncoreStart
    .next ({ t with tlb := [] }.startTests die)
  else .next s

/-- The cores of a die whose bits are set in a mask and not in CORESTAT: bit i is core 6 × cluster + core number (R450). -/
def Die.newFails (x : Die) (mask : Nat) : List Nat := (List.range 96).filter (fun i => mask.testBit i && !fget false x.corestat i)

/-- The COREID of bit i of CORESTAT on a die. -/
def coreOfBit (die i : Nat) : Nat := 256 * die + 16 * (i / 6) + i % 6

/-- The cores of a mask fail their self-test: their bits are set, with one RAS record of kind 7 each (R450, R451). -/
def State.failCores (s : State) (d mask : Nat) : State :=
  ((s.die d).newFails mask).foldl (fun t i =>
    let u := t.setDie d { t.die d with corestat := fset false (t.die d).corestat i true }
    u.logRas d 7 false (coreOfBit d i) 0) s

/-- SELF_TEST: every core of a die that has left reset has run its self-test launch; bit i of `failing` says that core i is defective and
has failed a test (R450). -/
def execSelfTest (die failing : Nat) : Meaning := fun s =>
  if 2 ≤ die || !(s.die die).testing || (s.die die).state ≠ 0 || !(s.testTeams die).isEmpty then .next s
  else
    let t := s.failCores die failing
    let u := t.setDie die { t.die die with testing := false }
    .next (if (List.range 96).all (fun i => fget false (u.die die).corestat i) then u.fenceDie die 1 2 else u.bootOn)

/-! ### A package barrier that times out -/

/-- GBAR_TIMEOUT: a phase that has had an arrival has not completed for 2^30 cycles (R424). -/
def execGbarTimeout (e b : Nat) : Meaning := fun s =>
  if (ffind s.execs e).any (fun x => (x.gbar b).overdue s.dieA.cycle) then .next (s.breakGbar e b) else .next s

/-! ### Start-up -/

/-- The package before its start-up: nothing runs, device memory is lost, the flash and the fuses keep what they hold (R441, R443, R446,
R447). -/
def State.powerOff (s : State) : State :=
  { State.reset with
    nextKey := s.nextKey, mem := s.mem.filter (fun c => isHost c.1), tick := s.tick, fresh := s.fresh, pace := s.pace, agenda := s.agenda,
    dieC := { DieC.start with
      flash := s.dieC.flash
      fuseKey := s.dieC.fuseKey
      fuseVersion := s.dieC.fuseVersion
      fuseSecret := s.dieC.fuseSecret } }

/-- The bytes of a part of the firmware image in the flash (R443). -/
def DieC.imageBytes (c : DieC) (part : Nat) : List Byte :=
  let at_ := Config.imagePart part c.flashAt
  (List.range at_.2).map (fun j => c.flashAt (at_.1 + j))

/-- The security version of the image. -/
def DieC.imageVersion (c : DieC) : Nat := (c.imageBytes 5).foldr (fun b n => b.toNat + 256 * n) 0

/-- What the ROM finds: 0 an image that passes; else the first check that fails, 1 digest, 2 signature and key, 3 security version (R441,
R442). -/
def DieC.imageCheck (c : DieC) : Nat :=
  if sha256 (c.imageBytes 0) ≠ c.imageBytes 1 then 1
  else if sha256 (c.imageBytes 4) ≠ c.fuseKey || !ecdsaVerifies (c.imageBytes 4) (c.imageBytes 2) (c.imageBytes 3) then 2
  else if c.imageVersion < c.fuseVersion then 3 else 0

/-- An image that passes runs: the measurements are set, and it may advance the counter to its own version (R441, R444). -/
def State.runImage (s : State) : State :=
  (s.onC (fun c => { c with
    bootstat := 2
    meas0 := sha256 (c.imageBytes 0)
    meas1 := sha256 (c.imageBytes 6)
    fuseVersion := if s.choice % 2 = 0 then c.fuseVersion else c.imageVersion })).spent

/-- A port whose EN is set hears of a secure-boot refusal (R442). -/
def State.tellRefusal (s : State) (p : Nat) : State :=
  if (s.port p).evEn && !fget false s.dieC.told p then
    (s.eventTo p 8 (BitVec.ofNat 32 s.dieC.refusal) 0 0).onC (fun c => { c with told := fset false c.told p true })
  else s

/-- An image that fails stays unrun: the module is in recovery mode, for a reason (R442). -/
def State.recover (s : State) (reason : Nat) : State :=
  ((s.onC (fun c => { c with recovery := true, refusal := reason })).tellRefusal 0).tellRefusal 1

/-- Start-up goes on by itself: it waits neither for self-tests nor for a package reset (R442, R446, R447). -/
def DieC.booting (c : DieC) : Bool := decide (c.bootstat < 6) && c.bootstat != 4 && !c.recovery && !c.stopped

/-- The step of start-up after the last completed one (R441, R446): power and clocks; the firmware check; device memory reads 0; the uncore
domains leave reset and the cores' self-tests begin; and, once these are done, ready. -/
def State.bootStep (s : State) : State :=
  if s.dieC.bootstat = 0 then s.onC (fun c => { c with bootstat := 1 })
  else if s.dieC.bootstat = 1 then (if s.dieC.imageCheck = 0 then s.runImage else s.recover s.dieC.imageCheck)
  else if s.dieC.bootstat = 2 then (s.wipe none).onC (fun c => { c with bootstat := 3 })
  else if s.dieC.bootstat = 3 then
    let t := s.onC (fun c => { c with bootstat := 4 })
    (({ t with dieA := { t.dieA with testing := true }, dieB := { t.dieB with testing := true } }).startTests 0).startTests 1
  else s.onC (fun c => { c with bootstat := 6 })

/-- PACKAGE_RESET (R446).  With `pass` the package is reset, before step 1; else the step of start-up after step `reason` takes place, where
that is the last completed one (log entry 39). -/
def execPackageReset (pass : Bool) (reason : Nat) : Meaning := fun s =>
  if pass then .next s.powerOff
  else if s.dieC.booting && s.dieC.bootstat == reason then .next s.bootStep else .next s

/-- PKGRST: a write of 1 restarts the package from step 1; the ROM checks whatever image the flash then holds (R441, R447). -/
def execPkgrst (v : Word) : Meaning := fun s => .next (if v = 1 then s.powerOff else s)

/-- DIE_C_FATAL: every launch stops and no write reaches device memory; the package is in recovery mode (R442, R447). -/
def execDieCFatal : Meaning := fun s =>
  let t : State := { s with
    groups := [], teams := [], execs := [], cores := [], sparges := []
    dieA := { s.dieA with grist := [] }
    dieB := { s.dieB with grist := [] } }
  .next (t.onC (fun c =>
    { c with stopped := true, recovery := true, bootstat := 1, meas0 := DieC.start.meas0, meas1 := DieC.start.meas1,
             rsPhase := 0, launches := [], comms := [] }))

end Sys2Proof.Machine
end

