-- ==== Sys2Proof/Machine/Coll.lean ====
section
/-!
DEFINITION.  The scale-up switch and its collectives (R427 to R432).
-/

namespace Sys2Proof.Machine

/-! ### Links and routes -/

/-- LINKCTLj.BOND, 3 at reset (R427). -/
def DieC.bond (c : DieC) (j : Nat) : Nat := bits (fget 3 c.linkctl j).toNat 0 2
/-- The lane is the lowest of a link of its group. -/
def DieC.lowestLane (c : DieC) (lane : Nat) : Bool :=
  let b := c.bond (lane / 4)
  decide (lane < 288) && (b == 0 || (b == 1 && decide (lane % 2 = 0)) || (b == 2 && decide (lane % 4 = 0)))
/-- Lanes of a link. -/
def bondWidth (b : Nat) : Nat := if b = 0 then 1 else if b = 1 then 2 else 4
/-- The link of a lane is trained (R427). -/
def DieC.laneUp (c : DieC) (lane : Nat) : Bool :=
  let w := bondWidth (c.bond (lane / 4))
  decide (c.bond (lane / 4) ≠ 3) && fget false c.trained (lane / w * w)

/-- FABRIC_LINK_UP (R427). -/
def execFabricLinkUp (lane : Nat) : Meaning := fun s =>
  if s.dieC.lowestLane lane then .next (s.onC (fun c => { c with trained := fset false c.trained lane true })) else .next s
/-- FABRIC_LINK_DOWN (R427). -/
def execFabricLinkDown (lane : Nat) : Meaning := fun s =>
  if s.dieC.lowestLane lane then .next (s.onC (fun c => { c with trained := fset false c.trained lane false })) else .next s

/-- LINKCTL_WRITE: another bonding takes the group's links down (R427). -/
def execLinkctlWrite (j : Nat) (v : Word) : Meaning := fun s =>
  if !s.dieC.open_ || 72 ≤ j || s.dieC.bond j = bits v.toNat 0 2 then .next s
  else .next (s.onC (fun c => { c with
    linkctl := fset 3 c.linkctl j (v &&& 3)
    trained := (List.range 4).foldl (fun m i => fset false m (4 * j + i) false) c.trained }))

/-- A module has a route: the lowest lane of a trained link (R427). -/
def DieC.hasRoute (c : DieC) (k : Nat) : Bool :=
  let l := bits (fget 0x1FF c.routes k).toNat 0 9
  decide (l < 288) && c.lowestLane l && fget false c.trained l

/-! ### Communicators -/

/-- Fields of COMMn (R428). -/
def commEn (w : Word) : Bool := w.getLsbD 31
def commRanks (w : Word) : Nat := bits w.toNat 10 10 + 1
def commBase (w : Word) : Nat := bits w.toNat 0 10
/-- The bits of COMMn that a write stores. -/
def commMask : Word := 0x800FFFFF

/-- A communicator of which nothing is written. -/
def Comm.blank : Comm := ⟨0, none, [], [], []⟩
/-- Communicator n. -/
def State.comm (s : State) (n : Nat) : Comm := (ffind s.dieC.comms n).getD Comm.blank
/-- Replace it. -/
def State.setComm (s : State) (n : Nat) (x : Comm) : State := s.onC (fun c => { c with comms := fins c.comms n x })
/-- The module's identifier, and its rank in a communicator. -/
def DieC.module (c : DieC) : Nat := bits c.modid.toNat 0 10
def DieC.ownRank (c : DieC) (w : Word) : Nat := c.module - commBase w

/-- The rank can be reached (R427, R431). -/
def DieC.reachable (c : DieC) (w : Word) (r : Nat) : Bool := commBase w + r == c.module || c.hasRoute (commBase w + r)

/-- The communicator is usable (R428). -/
def DieC.usable (c : DieC) (w : Word) : Bool :=
  commEn w && decide (commBase w ≤ c.module) && decide (c.module < commBase w + commRanks w)
    && (List.range (commRanks w)).all (c.reachable w)

/-- COMM_WRITE: it takes effect at once, or after the operation that is pending (R428). -/
def execCommWrite (n : Nat) (v : Word) : Meaning := fun s =>
  if !s.dieC.open_ || 16 ≤ n then .next s
  else
    let x := s.comm n
    .next (s.setComm n (if x.cmds.isEmpty && x.parts.isEmpty then { x with reg := v &&& commMask } else { x with next := some (v &&& commMask) }))

/-! ### COLL -/

/-- The codes of KIND and FN (R429). -/
def collKindCode : CollKind → Nat
  | .allred => 0 | .rscat => 1 | .bcast => 2
def collFnCode : CollFn → Nat
  | .add => 0 | .fadd => 1 | .bfadd => 2 | .minn => 3 | .maxn => 4 | .maxa => 5

/-- A format suits a function (R429): N32 11, N64 12, FP32 5, BF16 4. -/
def collFormat (kind : CollKind) (fn : CollFn) (f : Nat) : Bool :=
  if kind = .bcast then [4, 5, 11, 12].contains f
  else match fn with
    | .add => f == 11 || f == 12
    | .minn => f == 11 || f == 12
    | .maxn => f == 11 || f == 12
    | .fadd => f == 5
    | .maxa => f == 5
    | .bfadd => f == 4

/-- Argument scalars of a COLL. -/
def collArgs (kind : CollKind) : Nat := if kind = .bcast then 3 else 2

/-- The lowest reason for which a COLL's slot or arguments fail; arguments past the file have no value to fail for (R175, R429; log
entry 58). -/
def State.collReason (s : State) (tid ar : Nat) (kind : CollKind) (fn : CollFn) : Option Nat :=
  match s.myTeam.slot tid with
  | none => some 1
  | some d =>
    let n := (s.rs (ar + 1)).toNat
    let w := (s.comm (s.rs ar).toNat).reg
    if !Desc.allows d s.me.csr.role.toNat false || !Desc.allows d s.me.csr.role.toNat true then some 2
    else if Desc.kind d ≠ 0 then some 3
    else if Desc.rank d ≠ 1 || Desc.space d ≠ 0 || !collFormat kind fn (Desc.fmt d) || 15 < (s.rs ar).toNat
        || (ar < 127 && (n = 0 || 2 ^ 28 < n || Desc.dim d 0 < n))
        || (kind = .bcast && ar < 126 && s.dieC.usable w && commRanks w ≤ (s.rs (ar + 2)).toNat) then some 4
    else if 128 < ar + collArgs kind then some 6
    else none

/-- A command of a COLL: `op` is KIND and FN, `m` the communicator; the root counts for `bcast` alone. -/
def State.collCmd (s : State) (tid ar : Nat) (tok : Reg) (kind : CollKind) (fn : CollFn) : Cmd :=
  { s.command 8 tok (16 * collKindCode kind + collFnCode fn) [s.rs ar, s.rs (ar + 1), if kind = .bcast then s.rs (ar + 2) else 0] (s.descOf tid) [] with
    m := (s.rs ar).toNat % 16 }

/-- A command is received by die C: it is numbered, or it completes at once (R430, R431). -/
def State.enterColl (s : State) (c : Cmd) : State :=
  let x := s.comm c.m
  if !s.dieC.usable x.reg then s.finish { c with fault := some (0x15, 0) } 8
  else match x.missed with
    | r :: rs => (s.setComm c.m { x with missed := rs }).finish { c with fault := some (0x10, r) } 8
    | [] => s.setComm c.m { x with cmds := x.cmds ++ [c] }

/-- COLL (R429). -/
def execColl (tid : Tid) (ar tok : Reg) (kind : CollKind) (fn : CollFn) : Meaning :=
  fun s => issue (scalarNeed (argRun ar.toNat (collArgs kind)) [])
    (fun s i => if i = s.lead then
        firstSome [(s.collReason tid.toNat ar.toNat kind fn).map (s.tensorId tid.toNat), s.tokenBusy tok] else none) 0
    (fun s =>
      let c := s.collCmd tid.toNat ar.toNat tok kind fn
      (s.issued c).enterColl c) s

/-! ### Contributions -/

/-- The fields of a command that all ranks must share. -/
def Cmd.collN (c : Cmd) : Nat := (nth 0 c.args 1).toNat
def Cmd.collRoot (c : Cmd) : Nat := (nth 0 c.args 2).toNat
def Cmd.collFmt (c : Cmd) : Nat := Desc.fmt c.desc
def Cmd.collSize (c : Cmd) : Nat := fmtBytes (Desc.fmt c.desc)
/-- The address of an element of the buffer (R429). -/
def Cmd.collVa (c : Cmd) (e : Nat) : Nat := (Desc.base c.desc + c.collSize * e) % 2 ^ 64

/-- The part of a rank in the oldest operation. -/
def Comm.part (x : Comm) (r : Nat) : Option Contribution := x.parts.find? (fun p => p.rank == r)
/-- The rank has joined with its whole contribution. -/
def Comm.joined (x : Comm) (r : Nat) : Bool := match x.part r with
  | none => false
  | some p => decide (p.elems.length = p.n)

/-- The `n` elements of a size that a rank sends: their bytes, and after them, where some could not be read, a bit map of those, element 0
in bit 0 of its first byte; an element of which bytes are missing could not be read either (R431; log entry 46). -/
def elemsOf (size n : Nat) (data : List Byte) : List (Dword × Bool) :=
  let map := data.drop (size * n)
  (List.range n).map (fun e =>
    let bs := (data.drop (size * e)).take size
    (BitVec.ofNat 64 (bs.foldr (fun b x => b.toNat + 256 * x) 0), decide (bs.length < size) || (nth 0 map (e / 8)).getLsbD (e % 8)))

/-- The team of a command runs on: it is there, not stopped, and its launch is not fenced (R431). -/
def State.collLives (s : State) (c : Cmd) : Bool := s.lives c.team && !(s.exec (s.team c.team).exec).fenced

/-- Replace the oldest command of a communicator. -/
def State.setColl (s : State) (n : Nat) (c : Cmd) : State :=
  s.setComm n { s.comm n with cmds := c :: (s.comm n).cmds.tail }

/-- Read one element of this module's buffer (R431, R432). -/
def State.collRead (s : State) (c : Cmd) (e : Nat) : State × Cmd × (Dword × Bool) :=
  let va := c.collVa e
  if c.op / 16 = 2 && s.dieC.ownRank (s.comm c.m).reg ≠ c.collRoot then (s, c, (0, false))
  else
    let g := s.cmdRead c (Segs.covers c.seg 0 va c.collSize) va c.collSize
    let t := s.engineTouch c.space va .read
    match g.fault with
    | some f => (t, c.note f e, (0, true))
    | none =>
      let d := { c with pins := Floors.join c.pins g.seen }
      (t, if g.bad then d.note 0x0A e else d, (BitVec.ofNat 64 g.val, g.bad))

/-- This module sends the next piece of its contribution, of a free length, as far as the elements' ways are open (R327). -/
def State.collSend (s : State) (n : Nat) (c : Cmd) : State :=
  let own := s.dieC.ownRank (s.comm n).reg
  let old := ((s.comm n).part own).getD ⟨own, c.op / 16, c.op % 16, c.collFmt, c.collN, c.collRoot, []⟩
  let left := c.collN - old.elems.length
  let k := if left = 0 then 0 else 1 + s.choice % left
  let (t, d, es) := ((List.range k).takeWhile (fun j => s.wayAt .dieC c.space (c.collVa (old.elems.length + j)))).foldl (fun (p : State × Cmd × List (Dword × Bool)) j =>
    let (u, d, e) := p.1.collRead p.2.1 (old.elems.length + j)
    (u, d, p.2.2 ++ [e])) (s, c, [])
  let x := t.comm n
  ((t.setComm n { x with parts := x.parts.filter (fun p => p.rank != own) ++ [{ old with elems := old.elems ++ es }] }).setColl n d).spent

/-- COLL_CONTRIBUTION: a rank's contribution to the oldest operation of a communicator arrives; of this module's own rank, the next
piece is read from its buffer and the other arguments are not used (R430, R431). -/
def execCollContribution (comm rank kind fn fmt n root : Nat) (data : List Byte) : Meaning := fun s =>
  let x := s.comm comm
  if 16 ≤ comm || !s.dieC.usable x.reg || commRanks x.reg ≤ rank then .next s
  else if rank = s.dieC.ownRank x.reg then
    match x.cmds with
    | [] => .next s
    | c :: _ => if x.joined rank || !s.collLives c then .next s else .next (s.collSend comm c)
  else if (x.part rank).isSome || 2 < kind || 5 < fn || !([4, 5, 11, 12].contains fmt) then .next s
  else .next (s.setComm comm { x with parts := x.parts ++ [⟨rank, kind, fn, fmt, n, root, elemsOf (fmtBytes fmt) n data⟩] })

/-! ### The result -/

/-- The operation of a function on elements of some bytes (R284, R430). -/
def collOp (fn size : Nat) (a b : Dword) : Dword :=
  let f : AtomFn := if fn = 0 then .add else if fn = 1 then .fadd else if fn = 2 then .bfadd2 else if fn = 3 then .minn
    else if fn = 4 then .maxn else .maxa
  BitVec.ofNat 64 ((opx f size a.toNat b.toNat 0).1 % 2 ^ (8 * size))

/-- An element of a rank's contribution. -/
def Comm.elem (x : Comm) (r e : Nat) : Dword × Bool := match x.part r with
  | none => (0, false)
  | some p => nth (0, false) p.elems e

/-- res[e], strictly in rank order; poisoned where a rank could not read its element (R430, R431). -/
def Comm.result (x : Comm) (fn size e : Nat) : Dword × Bool :=
  (List.range (commRanks x.reg - 1)).foldl (fun a r =>
    let b := x.elem (r + 1) e
    (collOp fn size a.1 b.1, a.2 || b.2)) (x.elem 0 e)

/-- The ranks' parameters agree with rank 0's: the lowest that differs, or none (R431). -/
def Comm.differs (x : Comm) : Option Nat :=
  match x.part 0 with
  | none => none
  | some z => (List.range (commRanks x.reg)).find? (fun r => match x.part r with
    | none => true
    | some p => p.kind != z.kind || p.fn != z.fn || p.fmt != z.fmt || p.n != z.n || p.root != z.root)

/-- The fault of an operation whose ranks have all joined (R431). -/
def Comm.refused (x : Comm) (c : Cmd) : Option Nat :=
  match x.differs with
  | some r => some r
  | none => if c.op / 16 = 1 && c.collN % commRanks x.reg ≠ 0 then some 0 else none

/-- The elements that this module's buffer takes: from the first, how many (R430). -/
def State.collSpan (s : State) (x : Comm) (c : Cmd) : Nat × Nat :=
  if c.op / 16 = 1 then
    let k := c.collN / commRanks x.reg
    (k * s.dieC.ownRank x.reg, k)
  else (0, c.collN)

/-- The value of an element as this module writes it. -/
def Comm.value (x : Comm) (c : Cmd) (e : Nat) : Dword × Bool :=
  if c.op / 16 = 2 then x.elem c.collRoot e else x.result (c.op % 16) c.collSize e

/-- The elements from one on, `n` at most, that lie in its 8-byte part, which are written together (R194, R432). -/
def Cmd.collTogether (c : Cmd) (e n : Nat) : List Nat :=
  ((List.range (min n 4)).map (e + ·)).takeWhile (fun v => c.collVa v / 8 == c.collVa e / 8)

/-- Write the elements of one part; a write that faults goes to the token (R431). -/
def State.collPut (s : State) (x : Comm) (c : Cmd) (es : List Nat) : State × Cmd :=
  let at_ := fun (e : Nat) => s.engineAt c.space (Segs.covers c.seg 0 (c.collVa e) c.collSize) (c.collVa e) .write
  let (t, d) := es.foldl (fun (p : State × Cmd) e => match at_ e with
    | .error f => (p.1.engineTouch c.space (c.collVa e) .write, p.2.note f e)
    | .ok _ => p) (s, c)
  let ws := es.filterMap (fun e => match at_ e with
    | .error _ => none
    | .ok q => some (q.1, cellsOf q.2 (x.value c e).1.toNat c.collSize, (x.value c e).2))
  match ws with
  | [] => (t, d)
  | w :: _ => t.cmdCells d w.1 (ws.flatMap (fun q => q.2.1)) ((ws.filter (fun q => q.2.2)).flatMap (fun q => q.2.1.map Prod.fst))

/-- The oldest operation of a communicator is over here; a write of COMMn that waited takes effect (R428). -/
def State.endColl (s : State) (n : Nat) : State :=
  let x := s.comm n
  s.setComm n { x with reg := x.next.getD x.reg, next := none, cmds := x.cmds.tail, parts := [] }

/-- The next `n` parts of the results are written, as far as their ways are open (R327); `first` and `len` are the elements that this
module's buffer takes. -/
def State.collPuts (s : State) (x : Comm) (c : Cmd) (first len : Nat) : Nat → State × Cmd
  | 0 => (s, c)
  | n + 1 =>
    if len ≤ c.done || !s.wayAt .dieC c.space (c.collVa (first + c.done)) then (s, c)
    else
      let es := c.collTogether (first + c.done) (len - c.done)
      let (t, d) := s.collPut x c es
      t.collPuts x { d with done := c.done + es.length } first len n

/-- The results are written, some next parts of them, of a free number, and the token after the last (R430, R431). -/
def State.collAdvance (s : State) (n : Nat) (x : Comm) (c : Cmd) : State :=
  let (first, len) := s.collSpan x c
  let left := len - c.done
  let k := if left = 0 then 0 else 1 + s.choice % left
  let (t, e) := s.spent.collPuts x c first len k
  if len ≤ e.done && t.tellOpen .dieC e then (t.endColl n).finish e 8 else t.setColl n e

/-- COLL_OPERATION_COMPLETE: every rank has joined; a command of a fenced launch completes or withdraws without a token (R430,
R431). -/
def execCollOperationComplete (comm : Nat) : Meaning := fun s =>
  let x := s.comm comm
  match x.cmds with
  | [] => .next s
  | c :: _ =>
    let own := s.dieC.ownRank x.reg
    let all := (List.range (commRanks x.reg)).all x.joined
    if !s.collLives c then (if all || !x.joined own then .next (s.endColl comm) else .next s)
    else if !all then .next s
    else match x.refused c with
      | some r => if !s.tellOpen .dieC c then .next s else .next ((s.endColl comm).finish { c with fault := some (0x15, r) } 8)
      | none => .next (s.collAdvance comm x c)

/-- The lowest rank that has not joined or cannot be reached (R431). -/
def State.missing (s : State) (x : Comm) : Option Nat :=
  (List.range (commRanks x.reg)).find? (fun r => !x.joined r || !s.dieC.reachable x.reg r)

/-- COLL_TIMEOUT: the oldest operation breaks, a rank not having joined or being out of reach (R431). -/
def execCollTimeout (comm : Nat) : Meaning := fun s =>
  let x := s.comm comm
  if x.cmds.isEmpty && x.parts.isEmpty then .next s
  else match s.missing x with
    | none => .next s
    | some r =>
      match x.cmds with
      | [] => .next ((s.endColl comm).setComm comm { (s.endColl comm).comm comm with missed := x.missed ++ [r] })
      | c :: _ => if s.collLives c then if !s.tellOpen .dieC c then .next s else .next ((s.endColl comm).finish { c with fault := some (0x10, r) } 8) else .next (s.endColl comm)

end Sys2Proof.Machine
end

