-- ==== Sys2Proof/Machine/Cross.lean ====
section
/-!
DEFINITION.  Moves between lanes and scalars, and the cross-lane instructions (R98, R142 to R147).
-/

namespace Sys2Proof.Machine

/-- L(x) of R98: a lane of the group. -/
def State.laneMod (s : State) (w : Word) : Nat := w.toNat % s.pre.width

/-- The lpc that RDLPC sees of a lane (R98). -/
def State.lpcSeen (s : State) (i : Nat) : Word :=
  match (s.pre.lane i).st with
  | .run => (s.pre.lane i).lpc
  | .parked => (s.pre.lane i).lpc
  | .barred => (s.pre.lane i).lpc
  | .exited => 0xFFFFFFFF
  | .absent => 0xFFFFFFFF

/-- A poisoned word of another lane, consumed by a lane's result (R98, R142). -/
def State.poisonFrom (s : State) (j r i : Nat) : Option Cause :=
  if s.pre.vPoison j r then some (s.cause 0x0A (BitVec.ofNat 32 r) 0 i) else none

/-- A poisoned word of some ACTIVE lane, consumed by every lane's result: attributed to the lowest ACTIVE lane (R142). -/
def State.poisonAmong (s : State) (r i : Nat) : Option Cause :=
  if i = s.lead && s.acts.any (fun j => s.pre.vPoison j r) then some (s.cause 0x0A (BitVec.ofNat 32 r) 0 i) else none

/-- What an instruction names whose results depend on the words of every ACTIVE lane. -/
def amongNeed (d a : Nat) (own : List (Nat × Nat)) : Need := ⟨own, [(d, 1), (a, 1)], [], []⟩

/-- BCAST (R98). -/
def execBcast (d b : Reg) : Meaning :=
  issue ⟨[], [(d.toNat, 1)], [(b.toNat, 1)], []⟩ noCheck 0 (fun s =>
    s.vecResult 0 d.toNat (fun _ => [s.rs b.toNat]) (fun _ => 0))

/-- RDFIRST (R98).  It consumes the word of the lowest ACTIVE lane alone: R98 says so of RDLANE, and R271 counts any named source of an
ACTIVE lane (DESIGN CHOICE, log entry 79). -/
def execRdfirst (d a : Reg) : Meaning :=
  issue ⟨[], [(a.toNat, 1)], [], [(d.toNat, 1)]⟩
    (fun s i => if i = s.lead then s.poisonFrom i a.toNat i else none) 0 (fun s =>
    s.putS d.toNat (s.rv s.lead a.toNat))

/-- RDLANE (R98): any lane, ACTIVE or not. -/
def execRdlane (d a b : Reg) : Meaning :=
  issue ⟨[], [(a.toNat, 1)], [(b.toNat, 1)], [(d.toNat, 1)]⟩
    (fun s i => s.poisonFrom (s.laneMod (s.rs b.toNat)) a.toNat i) 0 (fun s =>
    s.putS d.toNat (s.rv (s.laneMod (s.rs b.toNat)) a.toNat))

/-- WRLANE (R98): only a lane that is ACTIVE. -/
def execWrlane (d a b : Reg) : Meaning :=
  issue ⟨[], [(d.toNat, 1)], [(a.toNat, 1), (b.toNat, 1)], []⟩ noCheck 0 (fun s =>
    let i := s.laneMod (s.rs b.toNat)
    if s.unit.mask.getLsbD i then s.onMe (fun g => g.write [⟨vkey i d.toNat, s.rs a.toNat, false⟩]) else s)

/-- RDLPC (R98). -/
def execRdlpc (d a : Reg) : Meaning :=
  issue (need2 d.toNat a.toNat) noCheck 0 (fun s =>
    s.vecResult 0 d.toNat (fun i => [s.lpcSeen (s.laneMod (s.rv i a.toNat))]) (fun _ => 0))

/-- LANEID (R98). -/
def execLaneid (d : Reg) : Meaning :=
  issue ⟨[], [(d.toNat, 1)], [], []⟩ noCheck 0 (fun s =>
    s.vecResult 0 d.toNat (fun i => [BitVec.ofNat 32 i]) (fun _ => 0))

/-- A shuffle: the source lane of each ACTIVE lane from its own index, the width and b (R143). -/
def shuffle (d a b : Reg) (src : Nat → Nat → Nat → Nat) : Meaning :=
  issue ⟨[(b.toNat, 1)], [(a.toNat, 1), (d.toNat, 1)], [], []⟩
    (fun s i => s.poisonFrom (src i s.pre.width (s.rv i b.toNat).toNat) a.toNat i) 0 (fun s =>
    s.vecResult 0 d.toNat (fun i => [s.rv (src i s.pre.width (s.rv i b.toNat).toNat) a.toNat]) (fun _ => 0))

/-- SHFLI (R143). -/
def execShfli (d a b : Reg) : Meaning := shuffle d a b (fun _ w x => x % w)
/-- SHFLU (R143). -/
def execShflu (d a b : Reg) : Meaning := shuffle d a b (fun i _ x => if i < bits x 0 6 then i else i - bits x 0 6)
/-- SHFLD (R143). -/
def execShfld (d a b : Reg) : Meaning := shuffle d a b (fun i w x => if w ≤ i + bits x 0 6 then i else i + bits x 0 6)
/-- SHFLX (R143). -/
def execShflx (d a b : Reg) : Meaning :=
  shuffle d a b (fun i w x => if w ≤ Nat.xor i (bits x 0 6) then i else Nat.xor i (bits x 0 6))

/-- A reduction whose one result every ACTIVE lane receives (R144). -/
def reduceLanes (d a : Reg) (f : List Word → Word) : Meaning :=
  issue (amongNeed d.toNat a.toNat []) (fun s => s.poisonAmong a.toNat) 0 (fun s =>
    s.vecResult 0 d.toNat (fun _ => [f (s.acts.map (fun j => s.rv j a.toNat))]) (fun _ => 0))

/-- A function folded over a list that is not empty; 0 for an empty one. -/
def fold1 (f : Word → Word → Word) : List Word → Word
  | [] => 0
  | x :: xs => xs.foldl f x

/-- REDADD (R144). -/
def execRedadd (d a : Reg) : Meaning := reduceLanes d a (fold1 (fun x y => x + y))
/-- REDMIN (R144). -/
def execRedmin (d a : Reg) : Meaning := reduceLanes d a (fold1 aluMins)
/-- REDMAX (R144). -/
def execRedmax (d a : Reg) : Meaning := reduceLanes d a (fold1 aluMaxs)

/-- SCANADD (R144). -/
def execScanadd (d a : Reg) : Meaning :=
  issue (need2 d.toNat a.toNat) noCheck 0 (fun s =>
    s.vecResult 0 d.toNat
      (fun i => [fold1 (fun x y => x + y) ((s.acts.filter (fun j => decide (j ≤ i))).map (fun j => s.rv j a.toNat))])
      (fun _ => 0))

/-- A node of the tree of R145. -/
def treeNode : Option Word → Option Word → Option Word × Flags
  | none, y => (y, 0)
  | some x, none => (some x, 0)
  | some x, some y => (some (fadd x y).1, (fadd x y).2)

/-- One level of the tree: the nodes above, and the flags raised. -/
def treeLevel : List (Option Word) → List (Option Word) × Flags
  | [] => ([], 0)
  | [x] => ([x], 0)
  | x :: y :: r =>
    let n := treeNode x y
    let up := treeLevel r
    (n.1 :: up.1, n.2 ||| up.2)

/-- The tree of R145 over `levels` levels. -/
def treeSum : Nat → List (Option Word) → Flags → Word × Flags
  | 0, l, f => ((nth none l 0).getD 0, f)
  | n + 1, l, f => let up := treeLevel l; treeSum n up.1 (f ||| up.2)

/-- tree(S): the lanes of S give their words; a NaN among them gives the canonical NaN, a lone one too (R65, R145). -/
def State.tree (s : State) (a : Nat) (p : Nat → Bool) : Word × Flags :=
  let r := treeSum s.pre.width.log2
    ((List.range s.pre.width).map (fun j => if s.unit.mask.getLsbD j && p j then some (s.rv j a) else none)) 0
  (if (val32 r.1).isNan then 0x7FC00000 else r.1, r.2)

/-- REDFADD (R145): its flags are the lowest ACTIVE lane's. -/
def execRedfadd (d a : Reg) : Meaning :=
  issue (amongNeed d.toNat a.toNat []) (fun s => s.poisonAmong a.toNat) 0 (fun s =>
    let r := s.tree a.toNat (fun _ => true)
    s.vecResult 0 d.toNat (fun _ => [r.1]) (fun i => if i = s.lead then r.2 else 0))

/-- SCANFADD (R145). -/
def execScanfadd (d a : Reg) : Meaning :=
  issue (need2 d.toNat a.toNat) noCheck 0 (fun s =>
    let r := fun i => s.tree a.toNat (fun j => decide (j ≤ i))
    s.vecResult 0 d.toNat (fun i => [(r i).1]) (fun i => (r i).2))

/-- The prefixes of R146: lane and sum so far, in lane order, with the flags of the additions. -/
def catsPrefix (f : Nat → Word) : List Nat → Word → Flags → List (Nat × Word) × Word × Flags
  | [], p, fl => ([], p, fl)
  | j :: js, p, fl =>
    let (q, g) := fadd p (f j)
    let (l, t, h) := catsPrefix f js q (fl ||| g)
    ((j, q) :: l, t, h)

/-- A weight CATS refuses: NaN, infinite or below −0 (R146). -/
def badWeight (w : Word) : Bool :=
  (val32 w).isNan || (val32 w).isInf || ((val32 w).isNeg && !(val32 w).isZero)

/-- CATS (R146). -/
def execCats (d a b : Reg) : Meaning :=
  issue (amongNeed d.toNat a.toNat [(b.toNat, 1)]) (fun s => s.poisonAmong a.toNat) 0 (fun s =>
    let (pre, total, fl) := catsPrefix (fun j => s.rv j a.toNat) s.acts 0 0
    let bad := s.acts.any (fun j => badWeight (s.rv j a.toNat)) || (val32 total).isInf
    let zero := (val32 total).isZero
    let t := fun i => fmul (s.rv i b.toNat) total
    let pick := fun i => match pre.find? (fun e => (val32 (t i).1).lt (val32 e.2)) with
      | some e => BitVec.ofNat 32 e.1
      | none => 0xFFFFFFFF
    s.vecResult 0 d.toNat (fun i => [if bad || zero then 0xFFFFFFFF else pick i])
      (fun i => (if bad || zero then 0 else (t i).2) ||| (if i = s.lead then fl ||| nvIf bad else 0)))

/-- ELECT (R147). -/
def execElect (d a : Pred) : Meaning :=
  issue ⟨[], [], [], []⟩ noCheck 0 (fun s =>
    s.predResult d.toNat (fun i => decide ((s.acts.filter (fun j => s.rp j a.toNat)).head? = some i)))

end Sys2Proof.Machine
end

