-- ==== Sys2Proof/Machine/Display.lean ====
section
/-!
DEFINITION.  The display engine of a die: its registers, its accesses, its heads, and the colours that Kiln starts from (R375 to
R385, R387, R393).
-/

namespace Sys2Proof.Machine

/-- Change the display engine of a die. -/
def State.onDisp (s : State) (die : Nat) (f : Display → Display) : State :=
  s.setDie die { s.die die with display := f (s.die die).display }
/-- The display engine of a die. -/
def State.disp (s : State) (die : Nat) : Display := (s.die die).display
/-- A display engine acts: its die is there, and its uncore domain is not in reset (R375). -/
def State.displays (s : State) (die : Nat) : Bool := decide (die < 2) && !(decide ((s.die die).state = 3) && decide ((s.die die).domain = 2))

/-- A head of an engine. -/
def Display.head (d : Display) (n : Nat) : Head := if n = 0 then d.head0 else if n = 1 then d.head1 else d.head2
/-- Replace a head. -/
def Display.setHead (d : Display) (n : Nat) (h : Head) : Display :=
  if n = 0 then { d with head0 := h } else if n = 1 then { d with head1 := h } else { d with head2 := h }
/-- Change a head. -/
def State.onHead (s : State) (die n : Nat) (f : Head → Head) : State := s.onDisp die (fun d => d.setHead n (f (d.head n)))

/-! ### Fields -/

/-- Fields of HCTL (R377). -/
def hEn (w : Word) : Bool := w.getLsbD 0
def hKiln (w : Word) : Bool := w.getLsbD 1
def hFmt (w : Word) : Nat := bits w.toNat 2 2
def hLanes (w : Word) : Nat := bits w.toNat 4 3
def hRate (w : Word) : Nat := bits w.toNat 8 3
def hMcnt (w : Word) : Nat := bits w.toNat 12 3
/-- The bits of HCTL and of HCLK that a write stores. -/
def hctlMask : Word := 0x0000777F
def hclkMask : Word := 0x003FFFFF
/-- HACT, HTOT, VACT and VTOT in force. -/
def Head.hact (h : Head) : Nat := bits h.tim0.toNat 0 16
def Head.vact (h : Head) : Nat := bits h.tim1.toNat 0 16
def Head.vtot (h : Head) : Nat := bits h.tim1.toNat 16 16
/-- Fields of KCTL (R381). -/
def kEn (w : Word) : Bool := w.getLsbD 0
def kHead (w : Word) : Nat := bits w.toNat 1 2
def kFblead (w : Word) : Nat := bits w.toNat 4 4
def kLlead (w : Word) : Nat := bits w.toNat 8 12
def kAs (w : Word) : Nat := bits w.toNat 20 8
/-- The bits of KCTL that a write stores. -/
def kctlMask : Word := 0x0FFFFFF7

/-- Bands of a frame of some active lines (R378). -/
def bandsOf (vact : Nat) : Nat := (vact + 15) / 16
/-- The pitch of a history frame (R382). -/
def histPitch (hact : Nat) : Nat := (4 * hact + 255) / 256 * 256
/-- The history frame of a frame number (R392). -/
def Display.hist (d : Display) (f : Nat) : Nat := if f % 2 = 0 then d.khist0.toNat else d.khist1.toNat
/-- The bound head of the engine (R381). -/
def Display.bound (d : Display) : Head := d.head (kHead d.kcur)

/-- A counter moves on by a number and saturates (R382). -/
def Display.count (d : Display) (i n : Nat) : Display :=
  { d with counters := fset 0 d.counters i (BitVec.ofNat 32 (min ((fget 0 d.counters i).toNat + n) 0xFFFFFFFF)) }

/-! ### The checks of a head -/

/-- HTIM0, HTIM1 and HCLK are in range (R377). -/
def Head.timingOk (h : Head) : Bool :=
  let hact := bits h.htim0.toNat 0 16
  let htot := bits h.htim0.toNat 16 16
  let vact := bits h.htim1.toNat 0 16
  let vtot := bits h.htim1.toNat 16 16
  let pclk := bits h.hclk.toNat 0 22
  decide (16 ≤ hact) && decide (hact ≤ 16384) && decide (hact + 16 ≤ htot) && decide (16 ≤ vact) && decide (vact ≤ 7936)
    && decide (vact + 8 ≤ vtot) && decide (vtot ≤ 16383) && decide (25000 ≤ pclk) && decide (pclk ≤ 2600000)

/-- The fields of a head's HCTL are in range (R377). -/
def hctlOk (n : Nat) (w : Word) : Bool :=
  decide (hFmt w ≤ 1)
    && (if n = 2 then hRate w == 0 && hLanes w == 0 else decide (hRate w ≤ 6) && decide (hLanes w ≤ 2) && hMcnt w == 0)

/-- HCTL and the pitches are in range (R377, R382). -/
def Display.controlOk (d : Display) (n : Nat) : Bool :=
  let h := d.head n
  hctlOk n h.hctl
    && (n != 2 || (decide (d.mpitch.toNat % 256 = 0) && decide (4 * bits h.htim0.toNat 0 16 ≤ d.mpitch.toNat)))
    && (hKiln h.hctl || decide (h.hpitch.toNat % 256 = 0))

/-- A head that scans the band buffer has the timing of the bound head (R377). -/
def Display.kilnOk (d : Display) (n : Nat) : Bool :=
  let h := d.head n
  let b := d.head (kHead d.kcur)
  !hKiln h.hctl || (decide (kHead d.kcur ≤ 2) && h.htim0 == b.htim0 && h.htim1 == b.htim1 && h.hclk == b.hclk)

/-- A head with EN set runs (R377). -/
def Display.headOk (d : Display) (n : Nat) : Bool := (d.head n).timingOk && d.controlOk n && d.kilnOk n

/-- A head takes its registers at line 0 (R377, R380). -/
def Head.latch (h : Head) : Head :=
  { h with ctl := h.hctl, tim0 := h.htim0, tim1 := h.htim1, clk := h.hclk, fb := h.hfb, pitch := h.hpitch }

/-- A head begins a frame, with its registers as they are written (R376); its frames are counted since EN was set (R378). -/
def Head.begins (h : Head) (n : Nat) : Head :=
  { h.latch with running := true, badcfg := false, line := 0, training := decide (n < 2), up := false }

/-- Kiln forgets its frames and its band buffer. -/
def Display.dropFrames (d : Display) : Display := { d with frames := [], ready := [], held := [], paths := [] }

/-- A head whose EN is 1 and that does not run is looked at again: it begins, or BADCFG reads 1 (R377). -/
def Display.lookAt (d : Display) (n : Nat) : Display :=
  let h := d.head n
  if !hEn h.hctl || h.running then d
  else if d.headOk n then
    let e := d.setHead n (h.begins n)
    if n = kHead d.kcur then e.dropFrames else e
  else d.setHead n { h with badcfg := true }

/-- Heads that do not run are looked at again: a register that their checks read has changed (R377). -/
def Display.look (d : Display) : Display := ((d.lookAt 0).lookAt 1).lookAt 2

/-- HEAD_ENABLE: a write of HCTL sets EN, and the frames count from 0 (R376 to R378). -/
def execHeadEnable (die head : Nat) (v : Word) : Meaning := fun s =>
  if !s.displays die || !s.dieC.open_ || 2 < head || hEn ((s.disp die).head head).hctl || !hEn v then .next s
  else .next (s.onDisp die (fun d => (d.setHead head { d.head head with hctl := v &&& hctlMask, frame := 0 }).look))

/-- HEAD_DISABLE: a write of HCTL clears EN, and the head stops at once (R377). -/
def execHeadDisable (die head : Nat) (v : Word) : Meaning := fun s =>
  if !s.displays die || !s.dieC.open_ || 2 < head || !hEn ((s.disp die).head head).hctl || hEn v then .next s
  else .next (s.onDisp die (fun d =>
    let e := d.setHead head { d.head head with hctl := v &&& hctlMask, running := false, badcfg := false, up := false, training := false }
    (if head = kHead d.kcur then e.dropFrames else e).look))

/-- The pixel rate of a head, by its registers in force, does not exceed the payload rate of its link (R376). -/
def Head.fits (h : Head) : Bool :=
  decide (bits h.clk.toNat 0 22 * (if hFmt h.ctl = 0 then 24 else 30) ≤ Config.linkPayload (hLanes h.ctl) (hRate h.ctl))

/-- HEAD_LINK_TRAINED (R376). -/
def execHeadLinkTrained (die head : Nat) : Meaning := fun s =>
  let h := (s.disp die).head head
  if s.displays die && decide (head < 2) && h.running && h.training && !h.up && h.fits then
    .next (s.onHead die head (fun h => { h with up := true })) else .next s

/-- DISPLAY_LINK_LOSS: one event record is sent (R376, R439). -/
def execDisplayLinkLoss (die head : Nat) : Meaning := fun s =>
  if s.displays die && decide (head < 2) && ((s.disp die).head head).up then
    .next ((s.onHead die head (fun h => { h with up := false, training := false })).event 3 (BitVec.ofNat 32 die) (BitVec.ofNat 32 head) 0)
  else .next s

/-! ### Accesses -/

/-- What the engine has read: the value, the trouble it met (1 translation, 2 permission, 3 poison, with its key), and the
addresses read. -/
structure DispGot where
  val : Nat
  bad : Option (Nat × Nat)
  vas : List Nat
  deriving DecidableEq, Repr

/-- The kind of a band's fault for a translation's code (R397). -/
def faultKind (code : Nat) : Nat := if code = 7 then 2 else 1

/-- Bytes of the display engine, each run of them as it is read. -/
def State.dispGather (s : State) (space va n : Nat) (read : Nat → Nat → Got) : DispGot :=
  let rs := Machine.runs (n + 1) va n
  let gs := rs.map (fun r => (read r.1 r.2, r))
  { val := gs.foldr (fun g v => g.1.val + 2 ^ (8 * g.2.2) * v) 0
    bad := gs.findSome? (fun g => match g.1.fault with
      | some c => some (faultKind c, 0)
      | none => if g.1.bad then some (3, match s.engineAt space true g.2.1 .read with
          | .ok x => x.2
          | .error _ => 0) else none)
    vas := rs.map Prod.fst }

/-- Read bytes for the display engine, as they stand at their homes. -/
def State.dispFetch (s : State) (space va n : Nat) : DispGot := s.dispGather space va n (s.engineRead space true)

/-- Read bytes of a plane of the source that became current at a time: for each 8-byte part what a write that comes too early has
left, or what stood before it (R383). -/
def State.planeFetch (s : State) (since space va n : Nat) : DispGot := s.dispGather space va n (s.engineSince since space true)

/-- The trouble of several reads: the first. -/
def firstTrouble (l : List DispGot) : Option (Nat × Nat) := l.findSome? DispGot.bad

/-- The walker's part in some reads or writes (R354). -/
def State.dispTouch (s : State) (space : Nat) (vas : List Nat) (acc : Access) : State :=
  (distinct (vas.map (fun a => a / 4096))).foldl (fun t p => t.engineTouch space (4096 * p) acc) s

/-- A read that returns poisoned data writes one RAS record (R278, R396). -/
def State.dispRas (s : State) : Option (Nat × Nat) → State
  | none => s
  | some (kind, key) => if kind = 3 && !isHost key then s.logRas (keyDie key) 2 false (sliceOn key) (key % 2 ^ 37) else s

/-- The reads of an engine are done: the walker's marks and the record of poison. -/
def State.dispNote (s : State) (space : Nat) (l : List DispGot) : State :=
  (s.dispTouch space (l.flatMap DispGot.vas) .read).dispRas (firstTrouble l)

/-- The runs of an access inside 128-byte lines. -/
def lineRuns : Nat → Nat → Nat → List (Nat × Nat)
  | 0, _, _ => []
  | fuel + 1, a, n =>
    if n = 0 then []
    else
      let l := min n (128 - a % 128)
      (a, l) :: lineRuns fuel (a + l) (n - l)

/-- A number from bytes, the first least significant. -/
def natOfBytes (l : List Byte) : Nat := l.foldr (fun b n => b.toNat + 256 * n) 0

/-- Write bytes for the display engine, or drop them all where a page refuses: the fault code. -/
def State.dispWrite (s : State) (die space va : Nat) (data : List Byte) : State × Option Nat :=
  let rs := lineRuns (data.length + 1) va data.length
  match s.pageFault space .write rs with
  | some c => (s.dispTouch space [va] .write, some c)
  | none => (rs.foldl (fun t r => t.engineWrite (.dieEngine die) space r.1 r.2 (natOfBytes ((data.drop (r.1 - va)).take r.2)) false) s, none)

/-- The parts that a write of the engine has reached, at their latest versions. -/
def State.dispParts (s : State) (space va n : Nat) : Floors :=
  (lineRuns (n + 1) va n).foldl (fun f r =>
    match s.engineAt space true r.1 .write with
    | .error _ => f
    | .ok x => (partsOf (cellsOf x.2 0 r.2)).foldl (fun g p => Floors.raise g p (s.part p).count) f) []

/-- The bytes of words. -/
def wordsBytes (ws : List Word) : List Byte := ws.flatMap (fun w => bytesOf w.toNat 4)

/-- A faulted access is counted in HSTAT (R380, R382, R396). -/
def Head.countFault (h : Head) : Head := { h with faults := min (h.faults + 1) 65535 }

/-! ### The time of a head -/

/-- The head has come to a line of a frame: the line starts next, or has started.  A negative line lies in the frame before
(R378). -/
def Head.reached (h : Head) (f : Nat) (l : Int) : Bool :=
  if 0 ≤ l then decide (f < h.frame) || (decide (f = h.frame) && decide (l ≤ h.line))
  else decide (f ≤ h.frame) || (decide (f = h.frame + 1) && decide ((h.vtot : Int) + l ≤ h.line))

/-- The deadline of a band, and the deadline of its network, as lines of its frame (R378, R392). -/
def bandDeadline (b : Nat) : Int := 16 * (b : Int) - 2
def netDeadline (ctl : Word) (b : Nat) : Int := bandDeadline b - (kFblead ctl : Int)

/-- The frame that the bound head scans. -/
def Display.frameAt (d : Display) (f : Nat) : Option KFrame := d.frames.find? (fun x => x.frame == f)
/-- Replace a frame. -/
def Display.setFrame (d : Display) (f : KFrame) : Display := { d with frames := d.frames.map (fun x => if x.frame = f.frame then f else x) }

/-- The latch of the next frame falls at the line that starts next (R384). -/
def Display.latchDue (d : Display) : Bool :=
  let h := d.bound
  d.run && h.running && (d.frameAt (h.frame + 1)).isNone && decide (h.line + kLlead d.kcur = h.vtot)

/-- The oldest frame with a network deadline that has come (R392). -/
def Display.deadlineAt (d : Display) : Option KFrame :=
  let h := d.bound
  if !d.run || !h.running then none
  else d.frames.find? (fun f => decide (f.due < bandsOf h.vact) && h.reached f.frame (netDeadline f.ctl f.due))

/-- The oldest frame with a fallback that has not ended at its band's deadline (R396). -/
def Display.underAt (d : Display) : Option KFrame :=
  let h := d.bound
  if !d.run || !h.running then none else d.frames.find? (fun f => f.fall != 0 && h.reached f.frame (bandDeadline f.fallBand))

/-- The line that starts next on a head waits for what falls at its start, and head 2's next frame for the release of its last. -/
def Display.lineWaits (d : Display) (n : Nat) : Bool :=
  (n == kHead d.kcur && (d.latchDue || d.deadlineAt.isSome || d.underAt.isSome))
    || (n == 2 && decide ((d.head 2).line = 0) && d.owed.isSome)

/-! ### Scan-out -/

/-- A 10-bit pixel as a head with FMT 0 sends it (R378). -/
def narrowPixel (w : Word) : Word :=
  BitVec.ofNat 32 (bits w.toNat 2 8 + 256 * bits w.toNat 12 8 + 65536 * bits w.toNat 22 8 + 0xFF000000)

/-- A pixel of KFILL or of the band buffer in a head's format. -/
def Head.pixel (h : Head) (w : Word) : Word := if hFmt h.ctl = 0 then narrowPixel w else w

/-- A line of the band buffer in 10-bit pixels: KFILL where it is not complete, or where Kiln does not run; and whether the
network wrote it (R378, R381, R394). -/
def Display.bandLine (d : Display) (y n : Nat) : List Word × Bool :=
  let row := 16 * (y / 16 % 4) + y % 16
  if d.run && fget false d.ready row then
    ((List.range n).map (fun x => fget 0 d.buffer (16384 * row + x)), fget 0 d.paths (y / 16 % 4) == 0)
  else (List.replicate n d.kfill, false)

/-- The pixels of a direct frame's line (R380). -/
def State.directLine (s : State) (d : Display) (h : Head) (y : Nat) : List DispGot :=
  (List.range h.hact).map (fun x => s.dispFetch (kAs d.kcur) (h.fb.toNat + h.pitch.toNat * y + 4 * x) 4)

/-- A head sends a line: its pixels, and what that leaves (R378, R380). -/
def State.sendLine (s : State) (die n : Nat) (y : Nat) : State × List Word :=
  let d := s.disp die
  let h := d.head n
  if hKiln h.ctl then
    let (ws, net) := d.bandLine y h.hact
    (if n = 2 && !net then s.onDisp die (fun d => { d with fallback := true }) else s, ws.map h.pixel)
  else
    let fs := s.directLine d h y
    let t := s.dispNote (kAs d.kcur) fs
    match firstTrouble fs with
    | some _ => (t.onHead die n Head.countFault, List.replicate h.hact (h.pixel d.kfill))
    | none => (t, fs.map (fun f => BitVec.ofNat 32 f.val))

/-- A pixel as head 2 writes it (R379). -/
def Head.opaquePixel (h : Head) (w : Word) : Word := if hFmt h.ctl = 0 then w ||| 0xFF000000 else w ||| 0xC0000000

/-- Head 2 writes a line (R379). -/
def State.writeLine (s : State) (die y : Nat) (ws : List Word) : State :=
  let d := s.disp die
  let h := d.head2
  let va := d.mbase.toNat + d.mpitch.toNat * (h.vact * (h.frame % (hMcnt h.ctl + 1)) + y)
  let (t, f) := s.dispWrite die (kAs d.kcur) va (wordsBytes (ws.map h.opaquePixel))
  match f with
  | some _ => (t.onHead die 2 Head.countFault).onDisp die (fun d => { d with lost := true })
  | none => t.onDisp die (fun d => { d with wrote := Floors.join d.wrote (t.dispParts (kAs d.kcur) va (4 * ws.length)) })

/-- The last active line of head 2's frame leaves a sequence word to be written (R379). -/
def Display.owe (d : Display) : Display :=
  { d with owed := some (d.head2.frame, BitVec.ofNat 32 ((if d.lost then 1 else 0) + (if d.fallback then 2 else 0))) }

/-- The bound head scans a line of a latched frame: its history is written, and at the last line of a band its path is counted
(R392, R396, R397). -/
def State.historyLine (s : State) (die y : Nat) : State :=
  let d := s.disp die
  let h := d.bound
  match (if d.run then d.frameAt h.frame else none) with
  | none => s
  | some f =>
    let (t, bad) := s.dispWrite die (kAs f.ctl) (d.hist f.frame + histPitch h.hact * y) (wordsBytes (d.bandLine y h.hact).1)
    let u := if bad.isSome then t.onHead die (kHead d.kcur) Head.countFault else t
    if y % 16 = 15 || y + 1 = h.vact then
      u.onDisp die (fun d => d.count ((fget ⟨0, false, false, false, 0⟩ f.log (y / 16)).path % 4) 1)
    else u

/-- A band byte (R397). -/
def BandLog.byte (l : BandLog) : Byte :=
  BitVec.ofNat 8 (l.path % 4 + (if l.miss then 4 else 0) + (if l.fault then 8 else 0) + (if l.under then 16 else 0) + 32 * (l.kind % 8))

/-- The band log entry of a frame (R397). -/
def KFrame.entry (f : KFrame) (nb : Nat) : List Byte :=
  wordsBytes [BitVec.ofNat 32 f.frame, f.latseq, BitVec.ofNat 32 (f.j + if f.late then 256 else 0), BitVec.ofNat 32 nb]
    ++ (List.range nb).map (fun b => (fget ⟨0, false, false, false, 0⟩ f.log b).byte)

/-- BAND_LOG_WRITE: at the end of a frame the engine writes its band log, and tells of a frame with a byte that is not 0 (R397,
R439). -/
def State.logFrame (s : State) (die : Nat) : State :=
  let d := s.disp die
  let h := d.bound
  match (if d.run then d.frameAt h.frame else none) with
  | none => s
  | some f =>
    let bs := f.entry (bandsOf h.vact)
    let (t, bad) := s.dispWrite die (kAs f.ctl) (d.klog.toNat + 512 * (f.frame % 8)) bs
    let u := if bad.isSome then t.onHead die (kHead d.kcur) Head.countFault else t
    let v := u.onDisp die (fun d => { d with frames := d.frames.filter (fun x => decide (f.frame < x.frame)) })
    if (bs.drop 16).any (· != 0) then v.event 5 (BitVec.ofNat 32 die) (BitVec.ofNat 32 f.frame) f.latseq else v

/-- The line after a line. -/
def Head.next (h : Head) : Head :=
  if h.line + 1 < h.vtot then { h with line := h.line + 1 } else { h with line := 0, frame := h.frame + 1 }

/-- A running head's line, with its registers in force: it is sent where its link is up (R376, R398), written by head 2, and followed by
Kiln (R378 to R380, R392, R397). -/
def State.scanLine (s : State) (die n : Nat) : State :=
  let h := (s.disp die).head n
  let y := h.line
  let bound := n == kHead (s.disp die).kcur
  let s1 := if y < h.vact then
      let (t, ws) := s.sendLine die n y
      let u := (if n = 2 then t.writeLine die y ws else t).onHead die n (fun h => { h with sent := if n = 2 || h.up then ws else h.sent })
      let v := if bound then u.historyLine die y else u
      if n = 2 && y + 1 = h.vact then v.onDisp die Display.owe else v
    else s
  let s2 := if bound && y + 1 = h.vtot then s1.logFrame die else s1
  s2.onHead die n Head.next

/-- SCANOUT_LINE: the next line of a head starts; at line 0 its registers take effect and are checked (R377, R378). -/
def execScanoutLine (die head : Nat) : Meaning := fun s =>
  let d := s.disp die
  let h := d.head head
  if !s.displays die || 2 < head || !h.running || d.lineWaits head then .next s
  else if h.line ≠ 0 then .next (s.scanLine die head)
  else if !d.headOk head then .next (s.onHead die head (fun h => { h with running := false, badcfg := true }))
  else
    let t := s.onHead die head Head.latch
    let u := if head = 2 then t.onDisp die (fun d => { d with lost := false, fallback := false, wrote := [] }) else t
    .next (u.scanLine die head)

/-- HEAD2_FRAME_RELEASE: the sequence word of head 2's frame is written as a release at system scope (R305, R379). -/
def execHead2FrameRelease (die : Nat) : Meaning := fun s =>
  let d := s.disp die
  match (if s.displays die then d.owed else none) with
  | none => .next s
  | some (f, flags) =>
    let va := d.mseqa.toNat + 8 * (f % (hMcnt d.head2.ctl + 1))
    let (t, bad) := s.dispWrite die (kAs d.kcur) va (wordsBytes [BitVec.ofNat 32 f, flags])
    let u := t.onDisp die (fun d => { d with owed := none })
    .next (match bad with
      | some _ => u.onHead die 2 Head.countFault
      | none => u.publish (.dieEngine die) (.scope .sys) (Floors.join d.wrote (u.dispParts (kAs d.kcur) va 8)))

end Sys2Proof.Machine
end

