-- ==== Sys2Proof/Machine/FloatOps.lean ====
section
/-!
DEFINITION.  The floating-point, special-function and conversion instructions (R100 to R109).
-/

namespace Sys2Proof.Machine

/-- CORECTL.EXACT of the group's core, read at issue (R107). -/
def State.exactMode (s : State) : Bool := (s.coreOf s.unit.g).exact

/-- FADD (R100). -/
def execFadd (d a b : Reg) : Meaning :=
  lane3 false false d a b (fun x y _ => fadd x y)

/-- FSUB (R100). -/
def execFsub (d a b : Reg) : Meaning :=
  lane3 false false d a b (fun x y _ => fsub x y)

/-- FMUL (R100). -/
def execFmul (d a b : Reg) : Meaning :=
  lane3 false false d a b (fun x y _ => fmul x y)

/-- FMAC (R100). -/
def execFmac (d a b : Reg) : Meaning :=
  lane3 true false d a b (fun x y c => fmac x y c)

/-- FMSC (R100). -/
def execFmsc (d a b : Reg) : Meaning :=
  lane3 true false d a b (fun x y c => fmsc x y c)

/-- FMIN (R101). -/
def execFmin (d a b : Reg) : Meaning :=
  lane3 false false d a b (fun x y _ => (fminmax false x y, 0))

/-- FMAX (R101). -/
def execFmax (d a b : Reg) : Meaning :=
  lane3 false false d a b (fun x y _ => (fminmax true x y, 0))

/-- FMINN (R101). -/
def execFminn (d a b : Reg) : Meaning :=
  lane3 false false d a b (fun x y _ => (fminmaxN false x y, 0))

/-- FMAXN (R101). -/
def execFmaxn (d a b : Reg) : Meaning :=
  lane3 false false d a b (fun x y _ => (fminmaxN true x y, 0))

/-- FCPS (R102). -/
def execFcps (d a b : Reg) : Meaning :=
  lane3 false false d a b (fun x y _ => (fcps x y, 0))

/-- FSCL (R102). -/
def execFscl (d a b : Reg) : Meaning :=
  lane3 false false d a b (fun x y _ => fscl x y)

/-- FADD with a scalar B (R100). -/
def execFaddS (d a b : Reg) : Meaning :=
  lane3 false true d a b (fun x y _ => fadd x y)

/-- FSUB with a scalar B (R100). -/
def execFsubS (d a b : Reg) : Meaning :=
  lane3 false true d a b (fun x y _ => fsub x y)

/-- FMUL with a scalar B (R100). -/
def execFmulS (d a b : Reg) : Meaning :=
  lane3 false true d a b (fun x y _ => fmul x y)

/-- FMAC with a scalar B (R100). -/
def execFmacS (d a b : Reg) : Meaning :=
  lane3 true true d a b (fun x y c => fmac x y c)

/-- FMSC with a scalar B (R100). -/
def execFmscS (d a b : Reg) : Meaning :=
  lane3 true true d a b (fun x y c => fmsc x y c)

/-- FMIN with a scalar B (R101). -/
def execFminS (d a b : Reg) : Meaning :=
  lane3 false true d a b (fun x y _ => (fminmax false x y, 0))

/-- FMAX with a scalar B (R101). -/
def execFmaxS (d a b : Reg) : Meaning :=
  lane3 false true d a b (fun x y _ => (fminmax true x y, 0))

/-- FMINN with a scalar B (R101). -/
def execFminnS (d a b : Reg) : Meaning :=
  lane3 false true d a b (fun x y _ => (fminmaxN false x y, 0))

/-- FMAXN with a scalar B (R101). -/
def execFmaxnS (d a b : Reg) : Meaning :=
  lane3 false true d a b (fun x y _ => (fminmaxN true x y, 0))

/-- FCPS with a scalar B (R102). -/
def execFcpsS (d a b : Reg) : Meaning :=
  lane3 false true d a b (fun x y _ => (fcps x y, 0))

/-- FSCL with a scalar B (R102). -/
def execFsclS (d a b : Reg) : Meaning :=
  lane3 false true d a b (fun x y _ => fscl x y)

/-- FCMP.EQ (R103). -/
def execFcmpEq (d : Pred) (a b : Reg) : Meaning :=
  laneCmp false d a b (fcmp .eq)

/-- FCMP.NE (R103). -/
def execFcmpNe (d : Pred) (a b : Reg) : Meaning :=
  laneCmp false d a b (fcmp .ne)

/-- FCMP.LT (R103). -/
def execFcmpLt (d : Pred) (a b : Reg) : Meaning :=
  laneCmp false d a b (fcmp .lt)

/-- FCMP.LE (R103). -/
def execFcmpLe (d : Pred) (a b : Reg) : Meaning :=
  laneCmp false d a b (fcmp .le)

/-- FCMP.GT (R103). -/
def execFcmpGt (d : Pred) (a b : Reg) : Meaning :=
  laneCmp false d a b (fcmp .gt)

/-- FCMP.GE (R103). -/
def execFcmpGe (d : Pred) (a b : Reg) : Meaning :=
  laneCmp false d a b (fcmp .ge)

/-- FCMP.UN (R103). -/
def execFcmpUn (d : Pred) (a b : Reg) : Meaning :=
  laneCmp false d a b (fcmp .un)

/-- FCMP.OR (R103). -/
def execFcmpOr (d : Pred) (a b : Reg) : Meaning :=
  laneCmp false d a b (fcmp .or)

/-- FCMP.EQ against a scalar (R103). -/
def execFcmpEqS (d : Pred) (a b : Reg) : Meaning :=
  laneCmp true d a b (fcmp .eq)

/-- FCMP.NE against a scalar (R103). -/
def execFcmpNeS (d : Pred) (a b : Reg) : Meaning :=
  laneCmp true d a b (fcmp .ne)

/-- FCMP.LT against a scalar (R103). -/
def execFcmpLtS (d : Pred) (a b : Reg) : Meaning :=
  laneCmp true d a b (fcmp .lt)

/-- FCMP.LE against a scalar (R103). -/
def execFcmpLeS (d : Pred) (a b : Reg) : Meaning :=
  laneCmp true d a b (fcmp .le)

/-- FCMP.GT against a scalar (R103). -/
def execFcmpGtS (d : Pred) (a b : Reg) : Meaning :=
  laneCmp true d a b (fcmp .gt)

/-- FCMP.GE against a scalar (R103). -/
def execFcmpGeS (d : Pred) (a b : Reg) : Meaning :=
  laneCmp true d a b (fcmp .ge)

/-- FCMP.UN against a scalar (R103). -/
def execFcmpUnS (d : Pred) (a b : Reg) : Meaning :=
  laneCmp true d a b (fcmp .un)

/-- FCMP.OR against a scalar (R103). -/
def execFcmpOrS (d : Pred) (a b : Reg) : Meaning :=
  laneCmp true d a b (fcmp .or)

/-- HADD (R104). -/
def execHadd (d a b : Reg) : Meaning :=
  lane3 false false d a b (hop fp16 .add)

/-- HSUB (R104). -/
def execHsub (d a b : Reg) : Meaning :=
  lane3 false false d a b (hop fp16 .sub)

/-- HMUL (R104). -/
def execHmul (d a b : Reg) : Meaning :=
  lane3 false false d a b (hop fp16 .mul)

/-- HMAC (R104). -/
def execHmac (d a b : Reg) : Meaning :=
  lane3 true false d a b (hop fp16 .mac)

/-- HMIN (R104). -/
def execHmin (d a b : Reg) : Meaning :=
  lane3 false false d a b (hop fp16 .min)

/-- HMAX (R104). -/
def execHmax (d a b : Reg) : Meaning :=
  lane3 false false d a b (hop fp16 .max)

/-- BADD (R104). -/
def execBadd (d a b : Reg) : Meaning :=
  lane3 false false d a b (hop bf16 .add)

/-- BSUB (R104). -/
def execBsub (d a b : Reg) : Meaning :=
  lane3 false false d a b (hop bf16 .sub)

/-- BMUL (R104). -/
def execBmul (d a b : Reg) : Meaning :=
  lane3 false false d a b (hop bf16 .mul)

/-- BMAC (R104). -/
def execBmac (d a b : Reg) : Meaning :=
  lane3 true false d a b (hop bf16 .mac)

/-- BMIN (R104). -/
def execBmin (d a b : Reg) : Meaning :=
  lane3 false false d a b (hop bf16 .min)

/-- BMAX (R104). -/
def execBmax (d a b : Reg) : Meaning :=
  lane3 false false d a b (hop bf16 .max)

/-- HADD with a scalar B (R104). -/
def execHaddS (d a b : Reg) : Meaning :=
  lane3 false true d a b (hop fp16 .add)

/-- HSUB with a scalar B (R104). -/
def execHsubS (d a b : Reg) : Meaning :=
  lane3 false true d a b (hop fp16 .sub)

/-- HMUL with a scalar B (R104). -/
def execHmulS (d a b : Reg) : Meaning :=
  lane3 false true d a b (hop fp16 .mul)

/-- HMAC with a scalar B (R104). -/
def execHmacS (d a b : Reg) : Meaning :=
  lane3 true true d a b (hop fp16 .mac)

/-- HMIN with a scalar B (R104). -/
def execHminS (d a b : Reg) : Meaning :=
  lane3 false true d a b (hop fp16 .min)

/-- HMAX with a scalar B (R104). -/
def execHmaxS (d a b : Reg) : Meaning :=
  lane3 false true d a b (hop fp16 .max)

/-- BADD with a scalar B (R104). -/
def execBaddS (d a b : Reg) : Meaning :=
  lane3 false true d a b (hop bf16 .add)

/-- BSUB with a scalar B (R104). -/
def execBsubS (d a b : Reg) : Meaning :=
  lane3 false true d a b (hop bf16 .sub)

/-- BMUL with a scalar B (R104). -/
def execBmulS (d a b : Reg) : Meaning :=
  lane3 false true d a b (hop bf16 .mul)

/-- BMAC with a scalar B (R104). -/
def execBmacS (d a b : Reg) : Meaning :=
  lane3 true true d a b (hop bf16 .mac)

/-- BMIN with a scalar B (R104). -/
def execBminS (d a b : Reg) : Meaning :=
  lane3 false true d a b (hop bf16 .min)

/-- BMAX with a scalar B (R104). -/
def execBmaxS (d a b : Reg) : Meaning :=
  lane3 false true d a b (hop bf16 .max)

/-- RCP (R105 to R108). -/
def execRcp (la : La) (d a : Reg) : Meaning :=
  lane1 la d a (fun s x => sfu s.exactMode .rcp x)

/-- RSQ (R105 to R108). -/
def execRsq (la : La) (d a : Reg) : Meaning :=
  lane1 la d a (fun s x => sfu s.exactMode .rsq x)

/-- SQRT (R105 to R108). -/
def execSqrt (la : La) (d a : Reg) : Meaning :=
  lane1 la d a (fun s x => sfu s.exactMode .sqrt x)

/-- EX2 (R105 to R108). -/
def execEx2 (la : La) (d a : Reg) : Meaning :=
  lane1 la d a (fun s x => sfu s.exactMode .ex2 x)

/-- LG2 (R105 to R108). -/
def execLg2 (la : La) (d a : Reg) : Meaning :=
  lane1 la d a (fun s x => sfu s.exactMode .lg2 x)

/-- SINPI (R105 to R108). -/
def execSinpi (la : La) (d a : Reg) : Meaning :=
  lane1 la d a (fun s x => sfu s.exactMode .sinpi x)

/-- COSPI (R105 to R108). -/
def execCospi (la : La) (d a : Reg) : Meaning :=
  lane1 la d a (fun s x => sfu s.exactMode .cospi x)

/-- TANH (R105 to R108). -/
def execTanh (la : La) (d a : Reg) : Meaning :=
  lane1 la d a (fun s x => sfu s.exactMode .tanh x)

/-- CVT.F32.S32 (R109). -/
def execCvtF32S32 (la : La) (d a : Reg) (rnd : Rnd) : Meaning :=
  lane1 la d a (fun _ x => cvtF32S32 rnd x)

/-- CVT.F32.N32 (R109). -/
def execCvtF32N32 (la : La) (d a : Reg) (rnd : Rnd) : Meaning :=
  lane1 la d a (fun _ x => cvtF32N32 rnd x)

/-- CVT.S32.F32 (R109). -/
def execCvtS32F32 (la : La) (d a : Reg) (rnd : Rnd) : Meaning :=
  lane1 la d a (fun _ x => cvtS32F32 rnd x)

/-- CVT.N32.F32 (R109). -/
def execCvtN32F32 (la : La) (d a : Reg) (rnd : Rnd) : Meaning :=
  lane1 la d a (fun _ x => cvtN32F32 rnd x)

/-- CVT.F16.F32 (R109). -/
def execCvtF16F32 (la : La) (d a : Reg) (rnd : Rnd) : Meaning :=
  lane1 la d a (fun _ x => cvtNarrow fp16 rnd x)

/-- CVT.BF16.F32 (R109). -/
def execCvtBf16F32 (la : La) (d a : Reg) (rnd : Rnd) : Meaning :=
  lane1 la d a (fun _ x => cvtNarrow bf16 rnd x)

/-- CVT.F32.F16; the rounding has no effect (R109). -/
def execCvtF32F16 (la : La) (d a : Reg) (_rnd : Rnd) : Meaning :=
  lane1 la d a (fun _ x => (cvtWiden fp16 x, 0))

/-- CVT.F32.BF16; the rounding has no effect (R109). -/
def execCvtF32Bf16 (la : La) (d a : Reg) (_rnd : Rnd) : Meaning :=
  lane1 la d a (fun _ x => (cvtWiden bf16 x, 0))

/-- FRINT (R109). -/
def execFrint (la : La) (d a : Reg) (rnd : Rnd) : Meaning :=
  lane1 la d a (fun _ x => frint rnd x)

end Sys2Proof.Machine
end

