-- ==== Sys2Proof/Machine/Integer.lean ====
section
/-!
DEFINITION.  The integer, compare, select, immediate and literal instructions (R88 to R95, R99).
-/

namespace Sys2Proof.Machine

/-- ADD (R88). -/
def execAdd (d a b : Reg) : Meaning :=
  lane2 false d a b (fun x y => x + y)

/-- SUB (R88). -/
def execSub (d a b : Reg) : Meaning :=
  lane2 false d a b (fun x y => x - y)

/-- MUL (R88). -/
def execMul (d a b : Reg) : Meaning :=
  lane2 false d a b (fun x y => x * y)

/-- MULHS (R88). -/
def execMulhs (d a b : Reg) : Meaning :=
  lane2 false d a b aluMulhs

/-- MULHN (R88). -/
def execMulhn (d a b : Reg) : Meaning :=
  lane2 false d a b aluMulhn

/-- MINS (R88). -/
def execMins (d a b : Reg) : Meaning :=
  lane2 false d a b aluMins

/-- MAXS (R88). -/
def execMaxs (d a b : Reg) : Meaning :=
  lane2 false d a b aluMaxs

/-- MINN (R88). -/
def execMinn (d a b : Reg) : Meaning :=
  lane2 false d a b aluMinn

/-- MAXN (R88). -/
def execMaxn (d a b : Reg) : Meaning :=
  lane2 false d a b aluMaxn

/-- AND (R88). -/
def execAnd (d a b : Reg) : Meaning :=
  lane2 false d a b (fun x y => x &&& y)

/-- OR (R88). -/
def execOr (d a b : Reg) : Meaning :=
  lane2 false d a b (fun x y => x ||| y)

/-- XOR (R88). -/
def execXor (d a b : Reg) : Meaning :=
  lane2 false d a b (fun x y => x ^^^ y)

/-- ANDN (R88). -/
def execAndn (d a b : Reg) : Meaning :=
  lane2 false d a b aluAndn

/-- SHL (R88). -/
def execShl (d a b : Reg) : Meaning :=
  lane2 false d a b aluShl

/-- SHRN (R88). -/
def execShrn (d a b : Reg) : Meaning :=
  lane2 false d a b aluShrn

/-- SHRS (R88). -/
def execShrs (d a b : Reg) : Meaning :=
  lane2 false d a b aluShrs

/-- ADD with a scalar B (R88). -/
def execAddS (d a b : Reg) : Meaning :=
  lane2 true d a b (fun x y => x + y)

/-- SUB with a scalar B (R88). -/
def execSubS (d a b : Reg) : Meaning :=
  lane2 true d a b (fun x y => x - y)

/-- MUL with a scalar B (R88). -/
def execMulS (d a b : Reg) : Meaning :=
  lane2 true d a b (fun x y => x * y)

/-- MULHS with a scalar B (R88). -/
def execMulhsS (d a b : Reg) : Meaning :=
  lane2 true d a b aluMulhs

/-- MULHN with a scalar B (R88). -/
def execMulhnS (d a b : Reg) : Meaning :=
  lane2 true d a b aluMulhn

/-- MINS with a scalar B (R88). -/
def execMinsS (d a b : Reg) : Meaning :=
  lane2 true d a b aluMins

/-- MAXS with a scalar B (R88). -/
def execMaxsS (d a b : Reg) : Meaning :=
  lane2 true d a b aluMaxs

/-- MINN with a scalar B (R88). -/
def execMinnS (d a b : Reg) : Meaning :=
  lane2 true d a b aluMinn

/-- MAXN with a scalar B (R88). -/
def execMaxnS (d a b : Reg) : Meaning :=
  lane2 true d a b aluMaxn

/-- AND with a scalar B (R88). -/
def execAndS (d a b : Reg) : Meaning :=
  lane2 true d a b (fun x y => x &&& y)

/-- OR with a scalar B (R88). -/
def execOrS (d a b : Reg) : Meaning :=
  lane2 true d a b (fun x y => x ||| y)

/-- XOR with a scalar B (R88). -/
def execXorS (d a b : Reg) : Meaning :=
  lane2 true d a b (fun x y => x ^^^ y)

/-- ANDN with a scalar B (R88). -/
def execAndnS (d a b : Reg) : Meaning :=
  lane2 true d a b aluAndn

/-- SHL with a scalar B (R88). -/
def execShlS (d a b : Reg) : Meaning :=
  lane2 true d a b aluShl

/-- SHRN with a scalar B (R88). -/
def execShrnS (d a b : Reg) : Meaning :=
  lane2 true d a b aluShrn

/-- SHRS with a scalar B (R88). -/
def execShrsS (d a b : Reg) : Meaning :=
  lane2 true d a b aluShrs

/-- ROT (R89). -/
def execRot (d a b : Reg) : Meaning :=
  lane2 false d a b aluRot

/-- ABSD (R89). -/
def execAbsd (d a b : Reg) : Meaning :=
  lane2 false d a b aluAbsd

/-- MAC (R89). -/
def execMac (d a b : Reg) : Meaning :=
  lane3 true false d a b (fun x y c => (c + x * y, 0))

/-- ADD64 (R89, R111). -/
def execAdd64 (d a b : Reg) : Meaning :=
  lanePair false d a b (fun x y => x + y)

/-- SUB64 (R89, R111). -/
def execSub64 (d a b : Reg) : Meaning :=
  lanePair false d a b (fun x y => x - y)

/-- BFEN (R90). -/
def execBfen (d a b : Reg) : Meaning :=
  lane2 false d a b aluBfen

/-- BFES (R90). -/
def execBfes (d a b : Reg) : Meaning :=
  lane2 false d a b aluBfes

/-- BFI (R90). -/
def execBfi (d a b : Reg) : Meaning :=
  lane3 true false d a b (fun x y c => (aluBfi x y c, 0))

/-- POPC (R89). -/
def execPopc (d a : Reg) : Meaning :=
  lane1 0 d a (fun _ x => (aluPopc x, 0))

/-- CLZ (R89). -/
def execClz (d a : Reg) : Meaning :=
  lane1 0 d a (fun _ x => (aluClz x, 0))

/-- BREV (R89). -/
def execBrev (d a : Reg) : Meaning :=
  lane1 0 d a (fun _ x => (aluBrev x, 0))

/-- BSEL (R91). -/
def execBsel (d a b : Reg) : Meaning :=
  lane3 true false d a b (fun x y c => (aluBsel x y c, 0))

/-- LEA0 (R89). -/
def execLea0 (d a b : Reg) : Meaning :=
  laneLea false 0 d a b

/-- LEA1 (R89). -/
def execLea1 (d a b : Reg) : Meaning :=
  laneLea false 1 d a b

/-- LEA2 (R89). -/
def execLea2 (d a b : Reg) : Meaning :=
  laneLea false 2 d a b

/-- LEA3 (R89). -/
def execLea3 (d a b : Reg) : Meaning :=
  laneLea false 3 d a b

/-- ROT in the scalar-B major (R89). -/
def execRotS (d a b : Reg) : Meaning :=
  lane2 true d a b aluRot

/-- ABSD in the scalar-B major (R89). -/
def execAbsdS (d a b : Reg) : Meaning :=
  lane2 true d a b aluAbsd

/-- MAC in the scalar-B major (R89). -/
def execMacS (d a b : Reg) : Meaning :=
  lane3 true true d a b (fun x y c => (c + x * y, 0))

/-- ADD64 in the scalar-B major (R89, R111). -/
def execAdd64S (d a b : Reg) : Meaning :=
  lanePair true d a b (fun x y => x + y)

/-- SUB64 in the scalar-B major (R89, R111). -/
def execSub64S (d a b : Reg) : Meaning :=
  lanePair true d a b (fun x y => x - y)

/-- BFEN in the scalar-B major (R90). -/
def execBfenS (d a b : Reg) : Meaning :=
  lane2 true d a b aluBfen

/-- BFES in the scalar-B major (R90). -/
def execBfesS (d a b : Reg) : Meaning :=
  lane2 true d a b aluBfes

/-- BFI in the scalar-B major (R90). -/
def execBfiS (d a b : Reg) : Meaning :=
  lane3 true true d a b (fun x y c => (aluBfi x y c, 0))

/-- POPC in the scalar-B major (R89). -/
def execPopcS (d a : Reg) : Meaning :=
  lane1 0 d a (fun _ x => (aluPopc x, 0))

/-- CLZ in the scalar-B major (R89). -/
def execClzS (d a : Reg) : Meaning :=
  lane1 0 d a (fun _ x => (aluClz x, 0))

/-- BREV in the scalar-B major (R89). -/
def execBrevS (d a : Reg) : Meaning :=
  lane1 0 d a (fun _ x => (aluBrev x, 0))

/-- BSEL in the scalar-B major (R91). -/
def execBselS (d a b : Reg) : Meaning :=
  lane3 true true d a b (fun x y c => (aluBsel x y c, 0))

/-- LEA0 in the scalar-B major (R89). -/
def execLea0S (d a b : Reg) : Meaning :=
  laneLea true 0 d a b

/-- LEA1 in the scalar-B major (R89). -/
def execLea1S (d a b : Reg) : Meaning :=
  laneLea true 1 d a b

/-- LEA2 in the scalar-B major (R89). -/
def execLea2S (d a b : Reg) : Meaning :=
  laneLea true 2 d a b

/-- LEA3 in the scalar-B major (R89). -/
def execLea3S (d a b : Reg) : Meaning :=
  laneLea true 3 d a b

/-- ICMP.EQ (R92). -/
def execIcmpEq (d : Pred) (a b : Reg) : Meaning :=
  laneCmp false d a b (fun x y => (icmp .eq x y, 0))

/-- ICMP.NE (R92). -/
def execIcmpNe (d : Pred) (a b : Reg) : Meaning :=
  laneCmp false d a b (fun x y => (icmp .ne x y, 0))

/-- ICMP.LTS (R92). -/
def execIcmpLts (d : Pred) (a b : Reg) : Meaning :=
  laneCmp false d a b (fun x y => (icmp .lts x y, 0))

/-- ICMP.LES (R92). -/
def execIcmpLes (d : Pred) (a b : Reg) : Meaning :=
  laneCmp false d a b (fun x y => (icmp .les x y, 0))

/-- ICMP.GTS (R92). -/
def execIcmpGts (d : Pred) (a b : Reg) : Meaning :=
  laneCmp false d a b (fun x y => (icmp .gts x y, 0))

/-- ICMP.GES (R92). -/
def execIcmpGes (d : Pred) (a b : Reg) : Meaning :=
  laneCmp false d a b (fun x y => (icmp .ges x y, 0))

/-- ICMP.LTN (R92). -/
def execIcmpLtn (d : Pred) (a b : Reg) : Meaning :=
  laneCmp false d a b (fun x y => (icmp .ltn x y, 0))

/-- ICMP.LEN (R92). -/
def execIcmpLen (d : Pred) (a b : Reg) : Meaning :=
  laneCmp false d a b (fun x y => (icmp .len x y, 0))

/-- ICMP.GTN (R92). -/
def execIcmpGtn (d : Pred) (a b : Reg) : Meaning :=
  laneCmp false d a b (fun x y => (icmp .gtn x y, 0))

/-- ICMP.GEN (R92). -/
def execIcmpGen (d : Pred) (a b : Reg) : Meaning :=
  laneCmp false d a b (fun x y => (icmp .gen x y, 0))

/-- ICMP.TST (R92). -/
def execIcmpTst (d : Pred) (a b : Reg) : Meaning :=
  laneCmp false d a b (fun x y => (icmp .tst x y, 0))

/-- ICMP.NTST (R92). -/
def execIcmpNtst (d : Pred) (a b : Reg) : Meaning :=
  laneCmp false d a b (fun x y => (icmp .ntst x y, 0))

/-- ICMP.EQ against a scalar (R92). -/
def execIcmpEqS (d : Pred) (a b : Reg) : Meaning :=
  laneCmp true d a b (fun x y => (icmp .eq x y, 0))

/-- ICMP.NE against a scalar (R92). -/
def execIcmpNeS (d : Pred) (a b : Reg) : Meaning :=
  laneCmp true d a b (fun x y => (icmp .ne x y, 0))

/-- ICMP.LTS against a scalar (R92). -/
def execIcmpLtsS (d : Pred) (a b : Reg) : Meaning :=
  laneCmp true d a b (fun x y => (icmp .lts x y, 0))

/-- ICMP.LES against a scalar (R92). -/
def execIcmpLesS (d : Pred) (a b : Reg) : Meaning :=
  laneCmp true d a b (fun x y => (icmp .les x y, 0))

/-- ICMP.GTS against a scalar (R92). -/
def execIcmpGtsS (d : Pred) (a b : Reg) : Meaning :=
  laneCmp true d a b (fun x y => (icmp .gts x y, 0))

/-- ICMP.GES against a scalar (R92). -/
def execIcmpGesS (d : Pred) (a b : Reg) : Meaning :=
  laneCmp true d a b (fun x y => (icmp .ges x y, 0))

/-- ICMP.LTN against a scalar (R92). -/
def execIcmpLtnS (d : Pred) (a b : Reg) : Meaning :=
  laneCmp true d a b (fun x y => (icmp .ltn x y, 0))

/-- ICMP.LEN against a scalar (R92). -/
def execIcmpLenS (d : Pred) (a b : Reg) : Meaning :=
  laneCmp true d a b (fun x y => (icmp .len x y, 0))

/-- ICMP.GTN against a scalar (R92). -/
def execIcmpGtnS (d : Pred) (a b : Reg) : Meaning :=
  laneCmp true d a b (fun x y => (icmp .gtn x y, 0))

/-- ICMP.GEN against a scalar (R92). -/
def execIcmpGenS (d : Pred) (a b : Reg) : Meaning :=
  laneCmp true d a b (fun x y => (icmp .gen x y, 0))

/-- ICMP.TST against a scalar (R92). -/
def execIcmpTstS (d : Pred) (a b : Reg) : Meaning :=
  laneCmp true d a b (fun x y => (icmp .tst x y, 0))

/-- ICMP.NTST against a scalar (R92). -/
def execIcmpNtstS (d : Pred) (a b : Reg) : Meaning :=
  laneCmp true d a b (fun x y => (icmp .ntst x y, 0))

/-- SEL (R99): both operands are read. -/
def execSel (p : Pred) (d a b : Reg) : Meaning :=
  issue (need3 false false d.toNat a.toNat b.toNat) noCheck 0 (fun s =>
    s.vecResult 0 d.toNat (fun i => [if s.rp i p.toNat then s.rv i a.toNat else s.rb false i b.toNat]) (fun _ => 0))

/-- SEL with a scalar B (R99): both operands are read. -/
def execSelS (p : Pred) (d a b : Reg) : Meaning :=
  issue (need3 false true d.toNat a.toNat b.toNat) noCheck 0 (fun s =>
    s.vecResult 0 d.toNat (fun i => [if s.rp i p.toNat then s.rv i a.toNat else s.rb true i b.toNat]) (fun _ => 0))

/-- ADDI (R93). -/
def execAddi (d a : Reg) (imm : Imm11) : Meaning :=
  laneImm d a (fun x => x + immWord imm)

/-- ANDI (R93). -/
def execAndi (d a : Reg) (imm : Imm11) : Meaning :=
  laneImm d a (fun x => x &&& immWord imm)

/-- ORI (R93). -/
def execOri (d a : Reg) (imm : Imm11) : Meaning :=
  laneImm d a (fun x => x ||| immWord imm)

/-- XORI (R93). -/
def execXori (d a : Reg) (imm : Imm11) : Meaning :=
  laneImm d a (fun x => x ^^^ immWord imm)

/-- SHI.SHL (R94). -/
def execShiShl (d a : Reg) (n : BitVec 5) : Meaning :=
  laneImm d a (fun x => aluShl x (n.setWidth 32))

/-- SHI.SHRN (R94). -/
def execShiShrn (d a : Reg) (n : BitVec 5) : Meaning :=
  laneImm d a (fun x => aluShrn x (n.setWidth 32))

/-- SHI.SHRS (R94). -/
def execShiShrs (d a : Reg) (n : BitVec 5) : Meaning :=
  laneImm d a (fun x => aluShrs x (n.setWidth 32))

/-- SHI.ROT (R94). -/
def execShiRot (d a : Reg) (n : BitVec 5) : Meaning :=
  laneImm d a (fun x => aluRot x (n.setWidth 32))

/-- MOVI (R93). -/
def execMovi (d : Reg) (imm : Imm11) : Meaning :=
  issue ⟨[], [(d.toNat, 1)], [], []⟩ noCheck 0 (fun s => s.vecResult 0 d.toNat (fun _ => [immWord imm]) (fun _ => 0))

/-- LIT (R95): every ACTIVE lane of a vector register, or a scalar once for the issue. -/
def execLit (sd : Bool) (d : Reg) (value : Word) : Meaning :=
  if sd then issue ⟨[], [], [], [(d.toNat, 1)]⟩ noCheck 0 (fun s => s.putS d.toNat value)
  else issue ⟨[], [(d.toNat, 1)], [], []⟩ noCheck 0 (fun s => s.vecResult 0 d.toNat (fun _ => [value]) (fun _ => 0))

end Sys2Proof.Machine
end

