-- ==== Sys2Proof/Machine/Kiln.lean ====
section
/-!
DEFINITION.  Kiln: its sources, its programs, its network, motion estimation, and the fallback of a band (R381 to R397).
-/

namespace Sys2Proof.Machine

/-! ### Control -/

/-- Setting EN passes the checks (R395); HEAD 3 binds no head whose HCTL could be valid. -/
def Display.kilnFits (d : Display) : Bool :=
  let h := d.head (kHead d.kctl)
  let hact := bits h.htim0.toNat 0 16
  let htot := bits h.htim0.toNat 16 16
  decide (kHead d.kctl ≤ 2) && hctlOk (kHead d.kctl) h.hctl && decide (kFblead d.kctl ≠ 0)
    && decide ((hact * 16 / 4 + 64) * (1000 * bits h.hclk.toNat 0 22) ≤ kFblead d.kctl * htot * 940000000)
    && decide (kFblead d.kctl + 2 ≤ kLlead d.kctl) && decide (kLlead d.kctl < bits h.htim1.toNat 16 16)

/-- Kiln has no source, no frame and no validation under way, and its current fields are those of KCTL (R381, R384); a program whose
validation is cut short stays marked. -/
def Display.kilnFresh (d : Display) : Display :=
  { d.dropFrames with kcur := d.kctl, sources := [], cur := none, j := 0, reading := none, marked := d.marked || d.reading.isSome }

/-- KILN_ENABLE: a write of KCTL sets EN (R381, R395). -/
def execKilnEnable (die : Nat) (v : Word) : Meaning := fun s =>
  if !s.displays die || !s.dieC.open_ || kEn (s.disp die).kctl || !kEn v then .next s
  else .next (s.onDisp die (fun d =>
    let e := ({ d with kctl := v &&& kctlMask } : Display).kilnFresh
    ({ e with run := e.kilnFits, badcfg := !e.kilnFits } : Display).look))

/-- KILN_DISABLE: a write of KCTL clears EN, and Kiln stops at once (R381). -/
def execKilnDisable (die : Nat) (v : Word) : Meaning := fun s =>
  if !s.displays die || !s.dieC.open_ || !kEn (s.disp die).kctl || kEn v then .next s
  else .next (s.onDisp die (fun d =>
    ({ ({ d with kctl := v &&& kctlMask } : Display).kilnFresh with run := false, badcfg := false } : Display).look))

/-- KPROG_WRITE: the program is marked for validation (R382, R386). -/
def execKprogWrite (die : Nat) (v : Dword) : Meaning := fun s =>
  if s.displays die && s.dieC.open_ then .next (s.onDisp die (fun d => { d with kprog := v, marked := true })) else .next s

/-! ### Sources -/

/-- Fields of a source entry (R383). -/
def eWord (e : List Word) (off : Nat) : Word := nth 0 e (off / 4)
def eFseq (e : List Word) : Word := eWord e 0x00
def eFmt (e : List Word) : Nat := bits (eWord e 0x04).toNat 0 8
def eNout (e : List Word) : Nat := bits (eWord e 0x04).toNat 8 3 + 1
def eMvv (e : List Word) : Bool := (eWord e 0x04).getLsbD 11
def eWs (e : List Word) : Nat := bits (eWord e 0x08).toNat 0 16
def eHs (e : List Word) : Nat := bits (eWord e 0x08).toNat 16 16
def ePstep (e : List Word) : Word := eWord e 0x0C
def eBase (e : List Word) (off : Nat) : Nat := (eWord e off).toNat + (eWord e (off + 4)).toNat * 2 ^ 32
def eCbase (e : List Word) : Nat := eBase e 0x10
def eZbase (e : List Word) : Nat := eBase e 0x18
def eMvbase (e : List Word) : Nat := eBase e 0x20
def eCpitch (e : List Word) : Nat := (eWord e 0x28).toNat
def eZpitch (e : List Word) : Nat := (eWord e 0x2C).toNat
def eMvpitch (e : List Word) : Nat := (eWord e 0x30).toNat
def eSx (e : List Word) : Word := eWord e 0x34
def eSy (e : List Word) : Word := eWord e 0x38

/-- A finite number above 0. -/
def positiveWord (w : Word) : Bool := match (val32 w).frac with
  | none => false
  | some q => (Frac.ofInt 0).lt q

/-- A number from 0 to 1. -/
def unitWord (w : Word) : Bool := match (val32 w).frac with
  | none => false
  | some q => (Frac.ofInt 0).le q && q.le (Frac.ofInt 1)

/-- An entry is well formed for a head's active size (R383). -/
def entryOk (e : List Word) (hact vact : Nat) : Bool :=
  [0, 4, 6].contains (eFmt e) && decide (eNout e ≤ 4) && decide ((eWord e 0x04).toNat / 4096 = 0)
    && decide (eWs e ≤ hact) && decide (hact ≤ 2 * eWs e) && decide (eHs e ≤ vact) && decide (vact ≤ 2 * eHs e)
    && unitWord (ePstep e) && (eMvv e || decide (eMvbase e = 0))
    && decide (eCpitch e % 16 = 0) && decide (eZpitch e % 4 = 0) && decide (eMvpitch e % 4 = 0)
    && positiveWord (eSx e) && positiveWord (eSy e) && eWord e 0x3C == 0

/-- The current source. -/
def Display.source (d : Display) : Option Source := d.cur.bind (fun k => ffind d.sources k)
/-- The source of a frame. -/
def Display.sourceOf (d : Display) (f : KFrame) : Option Source := f.src.bind (fun k => ffind d.sources k)
/-- FSEQ of the current source: 0 before the first. -/
def Display.curSeq (d : Display) : Word := match d.source with
  | none => 0
  | some x => eFseq x.entry

/-- phi := RNE(j × PSTEP) (R384). -/
def phaseOf (j : Nat) (e : List Word) : Word := (fmul (natFp j) (ePstep e)).1

/-- Indices of the counters KLATE, KSKIP, KMISS and KREFUSE. -/
def cMiss : Nat := 4
def cLate : Nat := 5
def cSkip : Nat := 6
def cRefuse : Nat := 7

/-- What a latch finds published: PUBSEQ, and its entry where that is well formed (R384). -/
def State.published_ (s : State) (die hact vact : Nat) : Option Word × Option (List Word) × List DispGot :=
  let d := s.disp die
  let p := s.dispFetch (kAs d.kctl) (d.ksrc.toNat + 256) 4
  let w := BitVec.ofNat 32 p.val
  let es := (List.range 16).map (fun i => s.dispFetch (kAs d.kctl) (d.ksrc.toNat + 64 * (w.toNat % 4) + 4 * i) 4)
  let e := es.map (fun g => BitVec.ofNat 32 g.val)
  if p.bad.isSome then (none, none, [p])
  else (some w, if (firstTrouble es).isNone && eFseq e == w && entryOk e hact vact then some e else none, p :: es)

/-- A new source becomes current under a key (R384). -/
def Display.take (d : Display) (key : Nat) (p : Word) (e : List Word) : Display :=
  let x : Source := ⟨e, d.source.map Source.entry, [], 0⟩
  { d.count cSkip (p - d.curSeq - 1).toNat with sources := fins d.sources key x, cur := some key, j := 0 }

/-- The source and the phase of a latch: a new source, the next output of the current one, or a late frame (R384). -/
def Display.advance (d : Display) (key : Nat) (p : Option Word) (e : Option (List Word)) : Display × Bool :=
  let stay := fun (d : Display) => match d.source with
    | none => (d.count cLate 1, true)
    | some x => if d.j + 1 < eNout x.entry then ({ d with j := d.j + 1 }, false) else (d.count cLate 1, true)
  match p with
  | none => stay d
  | some w =>
    if atOrAfter w d.curSeq && w != d.curSeq then
      match e with
      | some x => (d.take key w x, false)
      | none => stay (d.count cSkip 1)
    else stay d

/-- The frame of a latch enters (R384, R386). -/
def Display.enterFrame (d : Display) (f : Nat) (late : Bool) : Display :=
  let phi := match d.source with
    | none => 0
    | some x => phaseOf d.j x.entry
  let waits := d.marked || d.reading.isSome
  let x : KFrame := ⟨f, d.kcur, d.cur, d.j, late, phi, d.curSeq, if waits then none else d.prog, waits, 0, false, [], 0, 0, 0, []⟩
  { d with
    latseq := d.curSeq
    reading := if d.marked then some d.kprog else d.reading
    marked := false
    frames := d.frames ++ [x]
    sources := d.sources.filter (fun e => d.cur == some e.1 || d.frames.any (fun y => y.src == some e.1)) }

/-- KILN_LATCH: the latch of the bound head's next frame (R381, R384, R386). -/
def execKilnLatch (die : Nat) : Meaning := fun s =>
  let d := s.disp die
  if !s.displays die || !d.latchDue then .next s
  else
    let h := d.head (kHead d.kctl)
    let (p, e, gs) := s.published_ die h.hact h.vact
    let t := s.dispNote (kAs d.kctl) gs
    .next (t.onDisp die (fun d =>
      let d0 := if kHead d.kctl = kHead d.kcur then d else d.dropFrames
      let (d1, late) := ({ d0 with kcur := d0.kctl } : Display).look.advance t.tick p e
      d1.enterFrame (h.frame + 1) late))

/-! ### Programs -/

/-- A word of a program, and a byte. -/
def progByte (p : List Byte) (o : Nat) : Nat := (nth 0 p o).toNat
def progWord (p : List Byte) (o : Nat) : Word := BitVec.ofNat 32 (natOfBytes ((p.drop o).take 4))

/-- Fields of the header (R385). -/
def pLayers (p : List Byte) : Nat := bits (progWord p 0).toNat 0 4 + 1
def pFeat (p : List Byte) : Nat := bits (progWord p 0).toNat 16 10
def pBytes (p : List Byte) : Nat := (progWord p 4).toNat
def pScale (p : List Byte) (f : Nat) : Word := progWord p (8 + 4 * f)
/-- The features of a program, in ascending order of code (R387). -/
def progFeatures (p : List Byte) : List Nat := (List.range 10).filter (fun f => (pFeat p).testBit f)

/-- A layer of a program (R385). -/
structure Layer where
  cin : Nat
  cout : Nat
  relu : Bool
  sl : Word
  boff : Nat
  woff : Nat
  deriving DecidableEq, Repr

/-- A layer record with its input channels. -/
def layerAt (p : List Byte) (l cin : Nat) : Layer :=
  let o := 64 + 32 * l
  let w := progWord p o
  ⟨cin, bits w.toNat 0 7, w.getLsbD 8, progWord p (o + 4), (progWord p (o + 8)).toNat, (progWord p (o + 12)).toNat⟩

/-- The layers from one of them on. -/
def layersFrom (p : List Byte) : Nat → Nat → Nat → List Layer
  | 0, _, _ => []
  | n + 1, l, cin => let y := layerAt p l cin; y :: layersFrom p n (l + 1) y.cout
/-- The layers of a program. -/
def progLayers (p : List Byte) : List Layer := layersFrom p (pLayers p) 0 (progFeatures p).length

/-- Bytes of a trit vector of a layer. -/
def Layer.vector (y : Layer) : Nat := (9 * y.cin + 4) / 5

/-- Reserved bits of the header and of a layer record are 0: refusal reason 1 (R385, R386). -/
def headerReserved (p : List Byte) : Bool :=
  decide (bits (progWord p 0).toNat 4 12 = 0) && decide (bits (progWord p 0).toNat 26 6 = 0)
    && ((p.drop 0x30).take 16).all (· == 0)
def layerReserved (p : List Byte) (l : Nat) : Bool :=
  let w := (progWord p (64 + 32 * l)).toNat
  decide (bits w 7 1 = 0) && decide (bits w 9 23 = 0) && ((p.drop (64 + 32 * l + 16)).take 16).all (· == 0)

/-- The header's fields are in range: refusal reason 2 (R385, R386). -/
def headerRange (p : List Byte) : Bool :=
  decide (64 + 32 * pLayers p ≤ pBytes p) && decide (pBytes p ≤ 65536) && !(progFeatures p).isEmpty

/-- A layer's fields and offsets are in range (R385). -/
def Layer.inRange (y : Layer) (bytes : Nat) : Bool :=
  decide (1 ≤ y.cin) && decide (y.cin ≤ 28) && decide (4 ≤ y.cout) && decide (y.cout ≤ 64) && decide (y.cout % 4 = 0)
    && decide (y.boff % 4 = 0) && decide (y.boff + 4 * y.cout ≤ bytes) && decide (y.woff + y.cout * y.vector ≤ bytes)

/-- The layers of a program are in range, and the last has four channels. -/
def layersRange (p : List Byte) : Bool :=
  (progLayers p).all (fun y => y.inRange (pBytes p)) && ((progLayers p).getLast?.map Layer.cout == some 4)

/-- A weight byte is 243–255: refusal reason 3 (R68, R386). -/
def weightBad (p : List Byte) : Bool :=
  (progLayers p).any (fun y => ((p.drop y.woff).take (y.cout * y.vector)).any (fun b => decide (243 ≤ b.toNat)))

/-- The reasons to refuse a program of which header or whole has been read. -/
def refusals (p : List Byte) : List Nat :=
  let ls := List.range (pLayers p)
  let res := headerReserved p && (!headerRange p || ls.all (layerReserved p))
  (if res then [] else [1]) ++ (if headerRange p && layersRange p then (if weightBad p then [3] else []) else [2])

/-- A program read from its base: its bytes, or nothing where a read fails (R386). -/
def State.readProgram (s : State) (space base : Nat) : Option (List Byte) × List DispGot :=
  let h := (List.range 64).map (fun i => s.dispFetch space (base + i) 1)
  let hb := h.map (fun g => BitVec.ofNat 8 g.val)
  if (firstTrouble h).isSome then (none, h)
  else if !headerRange hb then (some hb, h)
  else
    let r := (List.range (pBytes hb - 64)).map (fun i => s.dispFetch space (base + 64 + i) 1)
    (if (firstTrouble r).isSome then none else some (hb ++ r.map (fun g => BitVec.ofNat 8 g.val)), h ++ r)

/-- The program of the frames that wait for it. -/
def Display.answer (d : Display) (p : Option (List Byte)) : Display :=
  { d with reading := none, prog := p, progok := p.isSome,
           frames := d.frames.map (fun f => if f.waits then { f with waits := false, prog := p } else f) }

/-- PROGRAM_VALIDATED: the program is read whole and checked; a refused one runs no network (R385, R386, R439).  Where several
reasons hold, one of them is given, freely. -/
def execProgramValidated (die : Nat) : Meaning := fun s =>
  let d := s.disp die
  match (if s.displays die && d.run then d.reading else none) with
  | none => .next s
  | some base =>
    let (p, gs) := s.readProgram (kAs d.kcur) base.toNat
    let t := s.dispNote (kAs d.kcur) gs
    let rs := match p with
      | none => [4]
      | some x => refusals x
    match rs with
    | [] => .next (t.onDisp die (fun d => d.answer p))
    | r :: _ =>
      let why := nth r rs (s.choice % rs.length)
      .next (((t.onDisp die (fun d => { (d.answer none).count cRefuse 1 with reason := why })).event 4 (BitVec.ofNat 32 die)
        (BitVec.ofNat 32 why) 0).spent)

/-! ### Colour -/

/-- An FP32 word rounded to an integer in a range, NaN giving 0, of the exact product with an integer (R75). -/
def scaledInt (w : Word) (n lo hi : Int) : Int := (toIntRange .rne 0 lo hi ((val32 w).mul (FNum.ofInt n)).1).1

/-- A number clamped to 0 … 1, NaN giving 0. -/
def clampColour (w : Word) : Word := if (val32 w).isNan then 0 else fminmax false (fminmax true w 0) fpOne

/-- A colour component as 10 bits (R388, R393). -/
def tenBits (w : Word) : Nat := (scaledInt (clampColour w) 1023 0 1023).toNat

/-- A pixel of three 10-bit components with alpha 3 (R388, R393). -/
def tenPixel (c : List Word) : Word :=
  BitVec.ofNat 32 (tenBits (nth 0 c 0) + 1024 * tenBits (nth 0 c 1) + 1048576 * tenBits (nth 0 c 2) + 0xC0000000)

/-- (x + 0.5) × S, rounded (R387, R393). -/
def centreOf (x : Nat) (sc : Word) : Word := (fmul (weightWord (2 * x + 1) 1) sc).1

/-- The source coordinate of an output coordinate: clamped to the source (R387). -/
def sourceAt (x : Nat) (sc : Word) (n : Nat) : Nat :=
  match floorWord (centreOf x sc) with
  | none => n - 1
  | some i => (clampInt 0 ((n : Int) - 1) i).toNat

/-- A colour of a source's plane, read for the source that became current at a time. -/
def State.colourAt (s : State) (since space : Nat) (e : List Word) (sx sy : Nat) : DispGot :=
  s.planeFetch since space (eCbase e + eCpitch e * sy + texBytes (eFmt e) * sx) (texBytes (eFmt e))

/-- The motion word at a source pixel. -/
def State.motionAt (s : State) (since space : Nat) (e : List Word) (sx sy : Nat) : DispGot :=
  s.planeFetch since space (eMvbase e + eMvpitch e * sy + 4 * sx) 4

/-- A motion component: NaN and infinity are taken as 0 (R393). -/
def finiteHalf (h : Nat) : Word := if notFinite (halfWord h) then 0 else halfWord h

/-- Half of an integer, exact. -/
def halfInt (i : Int) : Word := (rne32 ((FNum.ofInt i).scale (-1))).1

/-- Blocks of a source across. -/
def blocksAcross (e : List Word) : Nat := (eWs e + 7) / 8
/-- Blocks of a source in all. -/
def blocksIn (e : List Word) : Nat := blocksAcross e * ((eHs e + 7) / 8)

/-- The motion vector of a block, where it is done (R390). -/
def Source.vector (x : Source) (sx sy : Nat) : Option (Int × Int × Nat) :=
  let b := sy / 8 * blocksAcross x.entry + sx / 8
  if b < x.blocks then some (fget (0, 0, 0) x.motion b) else none

/-- When the source of a frame became current: its key (R384). -/
def KFrame.since (f : KFrame) : Nat := f.src.getD 0

/-- (mx, my) at a source pixel, with what was read (R393). -/
def State.motionOf (s : State) (since space : Nat) (x : Source) (sx sy : Nat) : Word × Word × List DispGot :=
  if eMvv x.entry then
    let g := s.motionAt since space x.entry sx sy
    (finiteHalf (bits g.val 0 16), finiteHalf (bits g.val 16 16), [g])
  else match x.vector sx sy with
    | some (mx, my, _) => (halfInt mx, halfInt my, [])
    | none => (0, 0, [])

/-- A bilinear coordinate: integer and 256ths (R247, R393). -/
def splitCoord (xs : Word) : Option (Int × Nat) :=
  (val32 xs).frac.map (fun q => (q.floor, ((q.sub (Frac.ofInt q.floor)).mul (Frac.ofInt 256)).floor.toNat))

/-- A coordinate on cur that reprojection filters at (R393). -/
def warped (x : Nat) (sc phi m : Word) : Word := (fadd (fsub (centreOf x sc) 0x3F000000).1 (fmul phi m).1).1

/-- The base colour at an output pixel, with what was read (R393); a coordinate that is not finite leaves its value open. -/
def State.baseColour (s : State) (f : KFrame) (x : Source) (px py : Nat) : List Word × List DispGot :=
  let e := x.entry
  let sp := kAs f.ctl
  let (mx, my, gs) := s.motionOf f.since sp x (sourceAt px (eSx e) (eWs e)) (sourceAt py (eSy e) (eHs e))
  let cx := fun (i : Int) => (clampInt 0 ((eWs e : Int) - 1) i).toNat
  let cy := fun (i : Int) => (clampInt 0 ((eHs e : Int) - 1) i).toNat
  match splitCoord (warped px (eSx e) f.phi mx), splitCoord (warped py (eSy e) f.phi my) with
  | some (x0, ax), some (y0, ay) =>
    let g := fun i j => s.colourAt f.since sp e (cx (x0 + i)) (cy (y0 + j))
    let t := fun (d : DispGot) => texChannels (eFmt e) d.val 0 0
    let wt := fun p q (d : DispGot) => map4 (fun z => (fmul (weightWord (p * q) 16) z).1) (t d)
    let add := zip4 (fun p q => (fadd p q).1)
    (add (add (wt (256 - ax) (256 - ay) (g 0 0)) (wt ax (256 - ay) (g 1 0))) (add (wt (256 - ax) ay (g 0 1)) (wt ax ay (g 1 1))),
      gs ++ [g 0 0, g 1 0, g 0 1, g 1 1])
  | some _, none => ((List.range 4).map (fun k => Config.freeWord (s.fresh + 4 * (16384 * py + px) + k)), gs)
  | none, _ => ((List.range 4).map (fun k => Config.freeWord (s.fresh + 4 * (16384 * py + px) + k)), gs)

/-! ### The network -/

/-- A pixel of a history frame (R387, R394). -/
def State.histAt (s : State) (d : Display) (f : KFrame) (px py : Nat) : DispGot :=
  s.dispFetch (kAs f.ctl) (d.hist (f.frame + 1) + histPitch d.bound.hact * py + 4 * px) 4

/-- What the number of a feature is divided by: components of the previous output are over 1,023 (R387). -/
def featureOver (code : Nat) : Nat := if 3 ≤ code ∧ code ≤ 5 then 1023 else 1

/-- The number of a feature at an output pixel, with what was read (R387). -/
def State.feature (s : State) (d : Display) (f : KFrame) (x : Source) (code px py : Nat) : Word × List DispGot :=
  let e := x.entry
  let sx := sourceAt px (eSx e) (eWs e)
  let sy := sourceAt py (eSy e) (eHs e)
  if code ≤ 2 then
    let (c, gs) := s.baseColour f x px py
    (nth 0 c code, gs)
  else if code ≤ 5 then
    let g := s.histAt d f px py
    (natFp (bits g.val (10 * (code - 3)) 10), [g])
  else if code = 6 then
    let g := s.planeFetch f.since (kAs f.ctl) (eZbase e + eZpitch e * sy + 4 * sx) 4
    (BitVec.ofNat 32 g.val, [g])
  else if code ≤ 8 then
    let (mx, my, gs) := s.motionOf f.since (kAs f.ctl) x sx sy
    (if code = 7 then mx else my, gs)
  else match x.vector sx sy with
    | some (_, _, c) => ((Frac.mk c 64).rne, [])
    | none => (0, [])

/-- A rational rounded to the nearest integer, ties to even (R75). -/
def Frac.nearest (q : Frac) : Int :=
  let n := q.floor
  let two := (q.sub (Frac.ofInt n)).mul (Frac.ofInt 2)
  if (Frac.ofInt 1).lt two || (two.same (Frac.ofInt 1) && n % 2 == 1) then n + 1 else n

/-- A feature as S8: one rounding of the exact product (R387). -/
def State.featureInt (s : State) (d : Display) (f : KFrame) (x : Source) (p : List Byte) (ci px py : Nat) : Int :=
  let code := nth 0 (progFeatures p) ci
  let v := ((val32 (s.feature d f x code px py).1).mul (val32 (pScale p code))).1
  match v.frac with
  | some q => clampInt (-128) 127 (q.div (Frac.ofInt (featureOver code))).nearest
  | none => (toIntRange .rne 0 (-128) 127 v).1

/-- A weight: trit k of vector c of a layer (R68, R385, R388). -/
def Layer.weight (y : Layer) (p : List Byte) (k c : Nat) : Int :=
  digitTrit (tritByteDigit (progByte p (y.woff + c * y.vector + k / 5)) (k % 5))

/-- A position at the frame's edge stands for those outside it (R388). -/
def nearIn (n : Nat) (i : Int) : Nat := (clampInt 0 ((n : Int) - 1) i).toNat

/-- t of a layer at a pixel and channel (R388). -/
def Layer.sum (y : Layer) (p : List Byte) (w h : Nat) (inp : Nat → Nat → Nat → Int) (c px py : Nat) : Word :=
  let acc := (List.range 9).foldl (fun a t => (List.range y.cin).foldl (fun b ci =>
    b + y.weight p (t * y.cin + ci) c * inp ci (nearIn w ((px : Int) + (t % 3 : Nat) - 1)) (nearIn h ((py : Int) + (t / 3 : Nat) - 1))) a) (0 : Int)
  let t := (fadd (fmul (rne32 (FNum.ofInt acc)).1 y.sl).1 (progWord p (y.boff + 4 * c))).1
  if y.relu && !(val32 t).isNan then fminmax true t 0 else t

/-- A layer's output between layers, as S8 (R75, R388). -/
def Layer.out (y : Layer) (p : List Byte) (w h : Nat) (inp : Nat → Nat → Nat → Int) (c px py : Nat) : Int :=
  (toIntRange .rne 0 (-128) 127 (val32 (y.sum p w h inp c px py))).1

/-- The last layer's values over the layers of a program (R388). -/
def netValue (p : List Byte) (w h : Nat) : List Layer → (Nat → Nat → Nat → Int) → Nat → Nat → Nat → Word
  | [], _, _, _, _ => 0
  | [y], inp, c, px, py => y.sum p w h inp c px py
  | y :: ys, inp, c, px, py => netValue p w h ys (y.out p w h inp) c px py

/-- The rows of a band on a head. -/
def bandRows (vact b : Nat) : List Nat := ((List.range 16).map (fun r => 16 * b + r)).filter (fun y => decide (y < vact))

/-- The rows that the network's features are read at (R388). -/
def featureRows (vact b layers : Nat) : List Nat :=
  (List.range (min vact (16 * b + 16 + layers))).filter (fun y => decide (16 * b ≤ y + layers))

/-- What the network of a band reads (R387, R388). -/
def State.bandReads (s : State) (d : Display) (f : KFrame) (x : Source) (p : List Byte) (b : Nat) : List DispGot :=
  let h := d.bound
  let xs := List.range h.hact
  ((featureRows h.vact b (pLayers p)).flatMap (fun py => xs.flatMap (fun px =>
      (progFeatures p).flatMap (fun code => (s.feature d f x code px py).2))))
    ++ ((bandRows h.vact b).flatMap (fun py => xs.flatMap (fun px => (s.baseColour f x px py).2)))

/-- A pixel of a band as the network makes it (R388). -/
def State.netPixel (s : State) (d : Display) (f : KFrame) (x : Source) (p : List Byte) (px py : Nat) : Word :=
  let h := d.bound
  let base := (s.baseColour f x px py).1
  tenPixel ((List.range 3).map (fun c =>
    (fadd (nth 0 base c) (netValue p h.hact h.vact (progLayers p) (s.featureInt d f x p) c px py)).1))

/-- Lines of a band enter the buffer complete. -/
def Display.putLines (d : Display) (n : Nat) (rows : List Nat) (pix : Nat → Nat → Word) : Display :=
  let rowOf := fun (y : Nat) => 16 * (y / 16 % 4) + y % 16
  { d with
    buffer := rows.foldl (fun m y => (List.range n).foldl (fun m x => fset 0 m (16384 * rowOf y + x) (pix x y)) m) d.buffer
    ready := rows.foldl (fun m y => fset false m (rowOf y) true) d.ready }

/-- The slot of a band is taken: its lines are not complete (R378, R391, R392). -/
def Display.claim (d : Display) (f b : Nat) : Display :=
  { d with held := fins d.held (b % 4) (f, b)
           ready := (List.range 16).foldl (fun m r => fset false m (16 * (b % 4) + r) false) d.ready }

/-- The slot of a band is free: scan-out has come past the band that last used it (R391). -/
def Display.slotFree (d : Display) (b : Nat) : Bool :=
  match ffind d.held (b % 4) with
  | none => true
  | some (f, c) => d.bound.reached f (min (16 * c + 16) d.bound.vact : Nat)

/-- The network of a frame uses motion estimation (R391). -/
def KFrame.needsMotion (x : Source) (p : List Byte) : Bool :=
  (pFeat p).testBit 9 || (!eMvv x.entry && ((pFeat p).testBit 7 || (pFeat p).testBit 8))

/-- The blocks that cover the source rows a band's features read are done (R391). -/
def Display.motionReady (d : Display) (x : Source) (p : List Byte) (b : Nat) : Bool :=
  !KFrame.needsMotion x p ||
    (featureRows d.bound.vact b (pLayers p)).all (fun py =>
      decide (min (blocksIn x.entry) ((sourceAt py (eSy x.entry) (eHs x.entry) / 8 + 1) * blocksAcross x.entry) ≤ x.blocks))

/-- The frame whose band the network may start: those before it are done with their bands (R391). -/
def Display.nextNet (d : Display) : Option KFrame :=
  match d.frames.find? (fun f => !f.late && decide (f.next < bandsOf d.bound.vact)) with
  | none => none
  | some f =>
    match f.prog, d.sourceOf f with
    | some p, some x =>
      if d.run && d.bound.running && !f.waits && !d.frames.any KFrame.working && d.slotFree f.next && d.motionReady x p f.next
      then some f else none
    | some _, none => none
    | none, _ => none

/-- BAND_START (R391). -/
def execBandStart (die : Nat) : Meaning := fun s =>
  match (if s.displays die then (s.disp die).nextNet else none) with
  | none => .next s
  | some f => .next (s.onDisp die (fun d => (d.setFrame { f with working := true }).claim f.frame f.next))

/-- A log entry of a frame's band. -/
def KFrame.logAt (f : KFrame) (b : Nat) : BandLog := fget ⟨0, false, false, false, 0⟩ f.log b
/-- Change it. -/
def KFrame.onLog (f : KFrame) (b : Nat) (g : BandLog → BandLog) : KFrame := { f with log := fins f.log b (g (f.logAt b)) }
/-- The band met a fault of a kind: the first kind stands (R396, R397). -/
def BandLog.faults (k : Nat) (l : BandLog) : BandLog := { l with fault := true, kind := if l.fault then l.kind else k }

/-- BAND_NETWORK_DONE: the network has written every row of its band, or abandons it at a read that faults (R387 to R389, R396).
-/
def execBandNetworkDone (die : Nat) : Meaning := fun s =>
  let d := s.disp die
  match (if s.displays die && d.run then d.frames.find? KFrame.working else none) with
  | none => .next s
  | some f =>
    let b := f.next
    match f.prog, d.sourceOf f with
    | some p, some x =>
      let gs := s.bandReads d f x p b
      let t := s.dispNote (kAs f.ctl) gs
      let g := { f with working := false, next := b + 1 }
      .next ((match firstTrouble gs with
        | some k => t.onDisp die (fun d => d.setFrame (g.onLog b (BandLog.faults k.1)))
        | none => t.onDisp die (fun d =>
            (d.setFrame { g with done := b :: g.done }).putLines d.bound.hact (bandRows d.bound.vact b) (s.netPixel d f x p))).spent)
    | some _, none => .next s
    | none, _ => .next s

/-! ### Deadlines and fallback -/

/-- NETWORK_DEADLINE: the band is taken from the network, repeated, or reprojected (R392, R396). -/
def execNetworkDeadline (die : Nat) : Meaning := fun s =>
  let d := s.disp die
  match (if s.displays die then d.deadlineAt else none) with
  | none => .next s
  | some f =>
    let b := f.due
    if f.fall ≠ 0 then .next s
    else
      let g := { f with due := b + 1, next := max f.next (b + 1), working := f.working && decide (b < f.next) }
      if f.done.contains b then
        .next (s.onDisp die (fun d => { d.setFrame (g.onLog b (fun l => { l with path := 0 })) with paths := fset 0 d.paths (b % 4) 0 }))
      else
        let miss := !f.late && f.prog.isSome && !(f.logAt b).fault
        let path := if f.late then 2 else 1
        .next (s.onDisp die (fun d =>
          let e := (d.setFrame ({ g with fall := path, fallBand := b }.onLog b (fun l => { l with path := path, miss := miss }))).claim f.frame b
          { (if miss then e.count cMiss 1 else e) with paths := fset 0 e.paths (b % 4) path }))

/-- A fallback of a frame ends. -/
def Display.endFall (d : Display) (f : KFrame) : Display := d.setFrame { f with fall := 0 }

/-- The rows of a band by reprojection: what is read, and the pixels (R393). -/
def State.reprojReads (s : State) (d : Display) (f : KFrame) (x : Source) (rows : List Nat) : List DispGot :=
  rows.flatMap (fun py => (List.range d.bound.hact).flatMap (fun px => (s.baseColour f x px py).2))

/-- REPROJECTION_DONE: the reprojection of a band is whole, or a read faults and the band is repeated (R393, R396). -/
def execReprojectionDone (die : Nat) : Meaning := fun s =>
  let d := s.disp die
  match (if s.displays die && d.run then d.frames.find? (fun f => f.fall == 1) else none) with
  | none => .next s
  | some f =>
    match d.sourceOf f with
    | none => .next s
    | some x =>
      let rows := bandRows d.bound.vact f.fallBand
      let gs := s.reprojReads d f x rows
      let t := s.dispNote (kAs f.ctl) gs
      .next ((match firstTrouble gs with
        | some k => t.onDisp die (fun d =>
            { d.setFrame ({ f with fall := 2 }.onLog f.fallBand (fun l => { l.faults k.1 with path := 2 })) with
              paths := fset 0 d.paths (f.fallBand % 4) 2 })
        | none => t.onDisp die (fun d => (d.endFall f).putLines d.bound.hact rows (fun px py => tenPixel (s.baseColour f x px py).1))).spent)

/-- Lines of a band that are not complete are filled (R394). -/
def Display.fill (d : Display) (b : Nat) : Display :=
  let rows := (bandRows d.bound.vact b).filter (fun y => !fget false d.ready (16 * (y / 16 % 4) + y % 16))
  d.putLines d.bound.hact rows (fun _ _ => d.kfill)

/-- REPEAT_DONE: the lines of the frame before are copied, or a read faults and the band is filled (R394, R396). -/
def execRepeatDone (die : Nat) : Meaning := fun s =>
  let d := s.disp die
  match (if s.displays die && d.run then d.frames.find? (fun f => f.fall == 2) else none) with
  | none => .next s
  | some f =>
    let rows := bandRows d.bound.vact f.fallBand
    let gs := rows.flatMap (fun py => (List.range d.bound.hact).map (fun px => s.histAt d f px py))
    let t := s.dispNote (kAs f.ctl) gs
    .next (match firstTrouble gs with
      | some k => t.onDisp die (fun d =>
          { (d.endFall (f.onLog f.fallBand (fun l => { l.faults k.1 with path := 3 }))).fill f.fallBand with
            paths := fset 0 d.paths (f.fallBand % 4) 3 })
      | none => t.onDisp die (fun d =>
          (d.endFall f).putLines d.bound.hact rows (fun px py => BitVec.ofNat 32 (s.histAt d f px py).val)))

/-- The lines of a fallback that are complete when its band falls due: some first lines of it, freely, where their reads succeed
(R396). -/
def State.partFall (s : State) (die : Nat) (f : KFrame) : State :=
  let d := s.disp die
  let rows := (bandRows d.bound.vact f.fallBand).take (s.choice % 16)
  if f.fall = 1 then match d.sourceOf f with
    | none => s
    | some x =>
      let gs := s.reprojReads d f x rows
      if (firstTrouble gs).isSome then s
      else (s.dispNote (kAs f.ctl) gs).onDisp die (fun d => d.putLines d.bound.hact rows (fun px py => tenPixel (s.baseColour f x px py).1))
  else
    let gs := rows.flatMap (fun py => (List.range d.bound.hact).map (fun px => s.histAt d f px py))
    if (firstTrouble gs).isSome then s
    else (s.dispNote (kAs f.ctl) gs).onDisp die (fun d => d.putLines d.bound.hact rows (fun px py => BitVec.ofNat 32 (s.histAt d f px py).val))

/-- BAND_UNDERRUN: at its deadline a band's lines that the fallback has not completed are filled, and UNDER is logged (R396). -/
def execBandUnderrun (die : Nat) : Meaning := fun s =>
  match (if s.displays die then (s.disp die).underAt else none) with
  | none => .next s
  | some f =>
    let t := (s.partFall die f).spent
    .next (t.onDisp die (fun d => (d.endFall (f.onLog f.fallBand (fun l => { l with under := true }))).fill f.fallBand))

/-! ### Motion estimation -/

/-- Luma of a colour (R390). -/
def luma (c : List Word) : Nat :=
  let b := fun k => (scaledInt (clampColour (nth 0 c k)) 255 0 255).toNat
  (54 * b 0 + 183 * b 1 + 19 * b 2 + 128) / 256

/-- The luma of a source at a position, the nearest edge standing for those outside, with what is read (R390). -/
def State.lumaAt (s : State) (since space : Nat) (e : List Word) (x y : Int) : Nat × DispGot :=
  let g := s.colourAt since space e (nearIn (eWs e) x) (nearIn (eHs e) y)
  (luma (texChannels (eFmt e) g.val 0 0), g)

/-- A sum of absolute differences over the 64 pixels of a block (R390). -/
def blockCost (cur prev : Int → Int → Nat) (bx by_ : Int) : Nat :=
  (List.range 64).foldl (fun a k =>
    let x := bx + (k % 8 : Nat)
    let y := by_ + (k / 8 : Nat)
    a + ((cur x y : Int) - prev x y).natAbs) 0

/-- Whether a displacement is better than another of greater or equal cost: cost, |dx| + |dy|, dy, dx (R390). -/
def betterMove (a b : Nat × Int × Int) : Bool :=
  let n := fun (m : Nat × Int × Int) => m.2.1.natAbs + m.2.2.natAbs
  if a.1 ≠ b.1 then decide (a.1 < b.1)
  else if n a ≠ n b then decide (n a < n b)
  else if a.2.2 ≠ b.2.2 then decide (a.2.2 < b.2.2)
  else decide (a.2.1 < b.2.1)

/-- The integer displacements: dx and dy (R390). -/
def moves : List (Int × Int) :=
  (List.range 65).flatMap (fun (j : Nat) => (List.range 65).map (fun (i : Nat) => ((i : Int) - 32, (j : Int) - 32)))

/-- The best integer displacement of a block, with its cost (R390). -/
def bestMove (cur prev : Int → Int → Nat) (bx by_ : Int) : Nat × Int × Int :=
  let at_ := fun (m : Int × Int) => (blockCost cur (fun x y => prev (x + m.1) (y + m.2)) bx by_, m.1, m.2)
  moves.foldl (fun a m => if betterMove (at_ m) a then at_ m else a) (at_ (0, 0))

/-- Luma at a position in half pixels (R390). -/
def halfLuma (prev : Int → Int → Nat) (x2 y2 : Int) : Nat :=
  let x := x2 / 2
  let y := y2 / 2
  if x2 % 2 = 0 && y2 % 2 = 0 then prev x y
  else if y2 % 2 = 0 then (prev x y + prev (x + 1) y + 1) / 2
  else if x2 % 2 = 0 then (prev x y + prev x (y + 1) + 1) / 2
  else (prev x y + prev (x + 1) y + prev x (y + 1) + prev (x + 1) (y + 1) + 2) / 4

/-- The half-pixel neighbours, the least (hy, hx) first (R390). -/
def halfSteps : List (Int × Int) := [(-1, -1), (0, -1), (1, -1), (-1, 0), (1, 0), (-1, 1), (0, 1), (1, 1)]

/-- The vector of a block in half pixels, and its cost (R390). -/
def bestVector (cur prev : Int → Int → Nat) (bx by_ : Int) : Int × Int × Nat :=
  let m := bestMove cur prev bx by_
  let cost := fun (h : Int × Int) =>
    blockCost cur (fun x y => halfLuma prev (2 * (x + m.2.1) + h.1) (2 * (y + m.2.2) + h.2)) bx by_
  let h := halfSteps.foldl (fun (a : Nat × Int × Int) h => if cost h < a.1 then (cost h, h.1, h.2) else a) (m.1, 0, 0)
  (2 * m.2.1 + h.2.1, 2 * m.2.2 + h.2.2, h.1)

/-- What the search of a block reads: the block, and every position it may be compared with (R390). -/
def State.motionReads (s : State) (since space : Nat) (e prev : List Word) (bx by_ : Nat) : List DispGot :=
  ((List.range 64).map (fun k => (s.lumaAt since space e ((bx + k % 8 : Nat) : Int) ((by_ + k / 8 : Nat) : Int)).2))
    ++ (List.range (74 * 74)).map (fun k => (s.lumaAt since space prev ((bx + k % 74 : Nat) - 33 : Int) ((by_ + k / 74 : Nat) - 33 : Int)).2)

/-- Motion estimation runs for the current source (R390). -/
def Display.estimates (d : Display) (x : Source) : Bool :=
  !eMvv x.entry || (d.frames.any (fun f => match f.prog with
    | some p => (pFeat p).testBit 9
    | none => false))

/-- MOTION_BLOCK_DONE: the next block of the current source is done; where a read of it fails its vector and cost are open
(R390). -/
def execMotionBlockDone (die : Nat) : Meaning := fun s =>
  let d := s.disp die
  match (if s.displays die && d.run then d.cur else none), d.source with
  | some key, some x =>
    if !d.estimates x || blocksIn x.entry ≤ x.blocks then .next s
    else
      let sp := kAs d.kcur
      let bx := 8 * (x.blocks % blocksAcross x.entry)
      let by_ := 8 * (x.blocks / blocksAcross x.entry)
      let put := fun (t : State) (v : Int × Int × Nat) => t.onDisp die (fun d =>
        { d with sources := fins d.sources key { x with motion := fset (0, 0, 0) x.motion x.blocks v, blocks := x.blocks + 1 } })
      match x.prev with
      | none => .next (put s (0, 0, 0))
      | some e =>
        let gs := s.motionReads key sp x.entry e bx by_
        let t := s.dispNote sp gs
        let w := fun j => (Config.freeWord (8 * s.fresh + j)).toNat
        .next (match firstTrouble gs with
          | none => (put t (bestVector (fun a b => (s.lumaAt key sp x.entry a b).1) (fun a b => (s.lumaAt key sp e a b).1) bx by_)).spent
          | some _ => (put t ((w 0 % 131 : Nat) - 65, (w 1 % 131 : Nat) - 65, w 2 % 16321)).spent)
  | some _, none => .next s
  | none, _ => .next s

end Sys2Proof.Machine
end

