-- ==== Sys2Proof/Machine/Links.lean ====
section
/-!
DEFINITION.  The network of the dies: the cycles of its arbiters, and the errors of its links (R317, R324 to R329, R413).
-/

namespace Sys2Proof.Machine

/-- PACKET_PROMOTION: one cycle of an arbiter, with the requesters whose head packet is eligible and the kind of each packet: a grant, and
the ages of the others, of which some may reach AGEP (R318, R324).  Timing alone depends on it (R325). -/
def execPacketPromotion (a : Nat) (heads : List (Nat × Nat)) : Meaning := fun s =>
  let netarb := (s.die (arbiterDie a)).netarb
  let elig := heads.filterMap (headFlits (requesters a))
  .next (if arbiterThere a then
    s.setArbiter a ((s.arbiter a).turn (requesters a) (ageLimit netarb a) (netWeight netarb) elig).2 else s)

/-- LINK_CRC_REPLAY: a refused flit of a plane link is replayed; with `ok` the replay passes its check (R327). -/
def execLinkCrcReplay (link : Nat) (ok : Bool) : Meaning := fun s =>
  let x := s.linkAt link
  if !linkThere link || x.training || 16 ≤ x.failed then .next s
  else .next (s.setLink link { x with failed := if ok then 0 else x.failed + 1 })

/-- LINK_RETRAIN: after 16 consecutive failed replays the link retrains, and its flits wait (R327). -/
def execLinkRetrain (link : Nat) : Meaning := fun s =>
  let x := s.linkAt link
  if x.training || x.failed < 16 then .next s else .next (s.setLink link { x with training := true })

/-- A link number names a link between the dies (R317). -/
def linkCrosses (link : Nat) : Bool := (linkPort link).any (isDieLink (linkX link))

/-- The die that a link's failure fences: its own; a link between the dies fences die B, or die A where LINKA says so (R413, R421). -/
def State.linkVictim (s : State) (link : Nat) : Nat :=
  if linkCrosses link then (if s.dieC.linka then 0 else 1) else colDie (linkX link)

/-- LINK_RETRAIN_DONE: the link is trained, or its die is fully fenced (R327, R413, R418). -/
def execLinkRetrainDone (link : Nat) (ok : Bool) : Meaning := fun s =>
  let x := s.linkAt link
  if !x.training then .next s
  else
    let t := s.setLink link { x with training := false, failed := 0 }
    .next (if ok then t else t.fenceDie (t.linkVictim link) 2 3)

end Sys2Proof.Machine
end

