-- ==== Sys2Proof/Machine/NarrowOps.lean ====
section
/-!
DEFINITION.  The narrow conversions, dot products, trit instructions and random numbers (R112 to R126).
-/

namespace Sys2Proof.Machine

/-- TRIT_BYTE at a byte of a lane (R126). -/
def State.tritByte (s : State) (k i : Nat) : Cause := s.cause 0x0B (BitVec.ofNat 32 k) 0 i

/-- The first `n` bytes of a source must be trit bytes (R126). -/
def tritCheck (a : Reg) (n : Nat) (s : State) (i : Nat) : Option Cause :=
  (badTritByte (s.rv i a.toNat) n).map (fun k => s.tritByte k i)

/-- A unary function of `n` trit bytes. -/
def tritLane (d a : Reg) (n : Nat) (f : Word → Word) : Meaning :=
  issue (need2 d.toNat a.toNat) (tritCheck a n) 0 (fun s =>
    s.vecResult 0 d.toNat (fun i => [f (s.rv i a.toNat)]) (fun _ => 0))

/-- QCVT (R115, R116, R119): the old D is read, and with SR a draw scalar and RNGKEY, once for the issue. -/
def execQcvt (la : La) (d a b : Reg) (rnd : QRnd) (sat : Bool) (fmt : QFmt) (pos : BitVec 2) (draw : Reg) : Meaning :=
  issue ⟨[(a.toNat, 1), (b.toNat, 1), (d.toNat, 1)], [], if rnd = .sr then [(draw.toNat, 1)] else [], []⟩ noCheck la.toNat (fun s =>
    let w := fun i => if rnd = .sr then laneRng (s.pre.logical i) (s.rs draw.toNat) s.pre.csr.rngkey else 0
    let r := fun i => qcvtLane fmt (QRnd.mode rnd) sat pos.toNat (w i) (s.rv i a.toNat) (s.rv i b.toNat) (s.rv i d.toNat)
    s.vecResult la.toNat d.toNat (fun i => [(r i).1]) (fun i => (r i).2))

/-- QWIDEN (R117, R126). -/
def execQwiden (la : La) (d a b : Reg) (rnd : Rnd) (sat : Bool) (fmt : QFmt) (pos : BitVec 2) : Meaning :=
  issue ⟨[(a.toNat, 1), (b.toNat, 1)], [(d.toNat, 1)], [], []⟩
    (fun s i => if fmt = .t5 && 242 < byteOf (s.rv i a.toNat) pos.toNat then some (s.tritByte pos.toNat i) else none) la.toNat (fun s =>
    let r := fun i => qwidenLane fmt (Rnd.mode rnd) sat pos.toNat (s.rv i a.toNat) (s.rv i b.toNat)
    s.vecResult la.toNat d.toNat (fun i => [(r i).1]) (fun i => (r i).2))

/-- QSCALE (R118): 32 registers of each ACTIVE lane; no flag. -/
def execQscale (la : La) (d a : Reg) (fmt : QFmt) : Meaning :=
  issue ⟨[(a.toNat, 32)], [(d.toNat, 1)], [], []⟩ noCheck la.toNat (fun s =>
    s.vecResult la.toNat d.toNat
      (fun i => [qscaleLane fmt ((List.range 32).map (fun k => s.rv i (a.toNat + k)))]) (fun _ => 0))

/-- DP4S8 (R120). -/
def execDp4s8 (d a b : Reg) : Meaning :=
  lane3 true false d a b (dotLane .s8)

/-- DP4N8 (R120). -/
def execDp4n8 (d a b : Reg) : Meaning :=
  lane3 true false d a b (dotLane .n8)

/-- DP4SN8 (R120). -/
def execDp4sn8 (d a b : Reg) : Meaning :=
  lane3 true false d a b (dotLane .sn8)

/-- DP8S4 (R120). -/
def execDp8s4 (d a b : Reg) : Meaning :=
  lane3 true false d a b (dotLane .s4)

/-- DP2BF (R120). -/
def execDp2bf (d a b : Reg) : Meaning :=
  lane3 true false d a b (dotLane .bf)

/-- DP2H (R120). -/
def execDp2h (d a b : Reg) : Meaning :=
  lane3 true false d a b (dotLane .h)

/-- DP4E4 (R120). -/
def execDp4e4 (d a b : Reg) : Meaning :=
  lane3 true false d a b (dotLane .e4)

/-- DP4E5 (R120). -/
def execDp4e5 (d a b : Reg) : Meaning :=
  lane3 true false d a b (dotLane .e5)

/-- DP4T5 (R120, R126). -/
def execDp4t5 (d a b : Reg) : Meaning :=
  issue (need3 true false d.toNat a.toNat b.toNat) (tritCheck a 4) 0 (fun s =>
    let r := fun i => dotLane .t5 (s.rv i a.toNat) (s.rv i b.toNat) (s.rv i d.toNat)
    s.vecResult 0 d.toNat (fun i => [(r i).1]) (fun i => (r i).2))

/-- T5PACK (R121). -/
def execT5pack (d a : Reg) : Meaning :=
  lane1 0 d a (fun _ x => (aluT5pack x, 0))

/-- T5UNPK (R121, R126): bytes 0–2. -/
def execT5unpk (d a : Reg) : Meaning :=
  tritLane d a 3 aluT5unpk

/-- T5ENC (R121). -/
def execT5enc (d a : Reg) : Meaning :=
  lane1 0 d a (fun _ x => (aluT5enc x, 0))

/-- T5DEC (R121, R126). -/
def execT5dec (d a : Reg) : Meaning :=
  tritLane d a 4 aluT5dec

/-- T5CHK (R121). -/
def execT5chk (d : Pred) (a : Reg) : Meaning :=
  issue ⟨[(a.toNat, 1)], [], [], []⟩ noCheck 0 (fun s => s.predResult d.toNat (fun i => aluT5chk (s.rv i a.toNat)))

/-- TERN (R121). -/
def execTern (d a b : Reg) : Meaning :=
  lane3 true false d a b ternLane

/-- TCNT (R121). -/
def execTcnt (d a : Reg) : Meaning :=
  lane1 0 d a (fun _ x => (aluTcnt x, 0))

/-- RNG (R122). -/
def execRng (d a b : Reg) : Meaning :=
  lane2 false d a b rngWord

/-- RNGF (R122). -/
def execRngf (d a b : Reg) : Meaning :=
  lane2 false d a b rngFloat

end Sys2Proof.Machine
end

