-- ==== Sys2Proof/Machine/Registers.lean ====
section
/-!
DEFINITION.  The register map of BAR0, and power and heat (R326, R338, R358, R371, R382, R421, R427, R434, R438, R443, R445, R446,
R448, R449, R451, R452).
-/

namespace Sys2Proof.Machine

/-! ### Offsets -/

/-- Where the register blocks lie (R452). -/
def rsBlock : Nat := 0x10000
def dieBlock : Nat := 0x20000
def semBlock : Nat := 0x30000
def portBlock (p : Nat) : Nat := 0x40000 + 0x10000 * p
def measBlock : Nat := 0x80000
def flashBlock : Nat := 0x90000
def fabricBlock : Nat := 0x100000
def computeBlock (d : Nat) : Nat := 0x1000000 + 0x800000 * d
/-- The place of a register in a block. -/
def place8 (block n : Nat) : Nat := block + 8 * n
/-- The index of an offset in an array of places, where it lies in it. -/
def indexIn (first n off : Nat) : Option Nat :=
  if first ≤ off && off < first + 8 * n && (off - first) % 8 = 0 then some ((off - first) / 8) else none

/-- A register of a compute die: the die and the offset in its block. -/
def inCompute (off : Nat) : Option (Nat × Nat) :=
  if computeBlock 0 ≤ off && off < computeBlock 1 then some (0, off - computeBlock 0)
  else if computeBlock 1 ≤ off && off < computeBlock 1 + 0x800000 then some (1, off - computeBlock 1)
  else none

/-- A register of a port: the port and the offset in its block. -/
def inPort (off : Nat) : Option (Nat × Nat) :=
  if portBlock 0 ≤ off && off < portBlock 1 then some (0, off - portBlock 0)
  else if portBlock 1 ≤ off && off < portBlock 1 + 0x10000 then some (1, off - portBlock 1)
  else none

/-! ### What a write stores -/

/-- NETARB as a write stores it (R326). -/
def netarbStored (v : Word) : Word :=
  let w := v &&& 0x3FFCFFFF
  let r := if bits w.toNat 24 6 = 0 then w ||| 0x01000000 else w
  if bits w.toNat 18 6 = 0 then r ||| 0x00040000 else r
/-- ORDWD as a write stores it (R371). -/
def ordwdStored (v : Word) : Word := BitVec.ofNat 32 (max 10 (bits v.toNat 0 5))
/-- A number clamped to a range. -/
def clampNat (lo hi x : Nat) : Nat := max lo (min hi x)
/-- SLOTBASE as a write stores it: HOME 3 and IGRAN 3 are not taken (R338). -/
def slotbaseStored (v : Dword) : Option Dword :=
  if bits v.toNat 9 2 = 3 || bits v.toNat 11 2 = 3 then none else some (v &&& 0xFFFFFFFFFFF01E00)

/-! ### Writes -/

/-- The low word of a write. -/
def lowWord (v : Dword) : Word := v.setWidth 32

/-- A write of a head's register (R377, R382): HCTL only where EN stays. -/
def Display.writeHead (d : Display) (n i : Nat) (v : Dword) : Display :=
  let h := d.head n
  let w := lowWord v
  let put := fun (h : Head) => (d.setHead n h).look
  if i = 0 then (if hEn h.hctl = hEn w then put { h with hctl := w &&& hctlMask } else d)
  else if i = 1 then put { h with htim0 := w }
  else if i = 2 then put { h with htim1 := w }
  else if i = 3 then put { h with hclk := w &&& hclkMask }
  else if i = 4 then put { h with hfb := v }
  else if i = 5 then put { h with hpitch := w }
  else d

/-- A write of a register of R381 and R382: KCTL only where EN stays; its fields take effect at the next latch, or at once while
Kiln does not run. -/
def Display.writeKiln (d : Display) (i : Nat) (v : Dword) : Display :=
  let w := lowWord v
  if i = 0 then
    (if kEn d.kctl = kEn w then ({ d with kctl := w &&& kctlMask, kcur := if d.run then d.kcur else w &&& kctlMask } : Display).look else d)
  else if i = 1 then { d with mbase := v }
  else if i = 2 then ({ d with mpitch := w } : Display).look
  else if i = 3 then { d with mseqa := v }
  else if i = 5 then { d with ksrc := v }
  else if i = 6 then { d with khist0 := v }
  else if i = 7 then { d with khist1 := v }
  else if i = 8 then { d with klog := v }
  else if i = 9 then { d with kfill := w }
  else d

/-- A write of a register of a compute die (R326, R371, R375, R449). -/
def State.writeDie (s : State) (d off : Nat) (v : Dword) : State :=
  let x := s.die d
  let w := lowWord v
  if off = 0 then s.setDie d { x with netarb := netarbStored w }
  else if off = 8 then s.setDie d { x with ordwd := ordwdStored w }
  else if off = 0x10 then
    s.setDie d { x with tlim := clampNat 70 95 (bits w.toNat 16 8), tmax := if bits w.toNat 8 8 = 0 then 0 else x.tmax }
  else if !s.displays d then s
  else if 0x10000 ≤ off && off < 0x10300 && off % 8 = 0 then
    s.onDisp d (fun y => y.writeHead ((off - 0x10000) / 0x100) ((off - 0x10000) % 0x100 / 8) v)
  else match indexIn 0x10400 20 off with
    | some i => s.onDisp d (fun y => y.writeKiln i v)
    | none => s

/-- Eight bytes of a window, from the one written. -/
def putBytes (m : FMap Byte) (o : Nat) (v : Dword) : FMap Byte := (cellsOf o v.toNat 8).foldl (fun m c => fset 0 m c.1 c.2) m

/-- A write of a register of a port that acts from step 1 on (R438, R442, R445): EVCTL only where it does not set EN. -/
def State.writePortArea (s : State) (p off : Nat) (v : Dword) : State :=
  let x := s.port p
  if off = 0x18 then s.setPort p { x with evbase := v &&& 0xFFFFFFFFFFFFF000 }
  else if off = 0x20 then (if (lowWord v).getLsbD 31 && !x.evEn then s else s.writeEvctl p (lowWord v))
  else if 0x8000 ≤ off && off < 0x9000 && off % 8 = 0 then
    (if x.busy then s else s.setPort p { x with window := putBytes x.window (off - 0x8000) v })
  else s

/-- A write of a port's window registers (R434). -/
def State.writePortWindow (s : State) (p off : Nat) (v : Dword) : State :=
  let x := s.port p
  if off = 0 then s.setPort p { x with hwctl := lowWord v &&& 0x800000FF }
  else if off = 8 then s.setPort p { x with hwbase := v &&& 0xFFFFFFFFFFFF0000 }
  else s

/-- A write of the flash registers (R443). -/
def DieC.writeFlash (c : DieC) (off : Nat) (v : Dword) : DieC :=
  if off = 0 then { c with floff := lowWord v }
  else if off = 8 then { c with fllen := lowWord v }
  else if 0x8000 ≤ off && off < 0x18000 && off % 8 = 0 && c.flcmd = 0 then { c with flwin := putBytes c.flwin (off - 0x8000) v }
  else c

/-- A write of the registers of the reservoir store: those that neither enable nor disable it (R358). -/
def DieC.writeStore (c : DieC) (off : Nat) (v : Dword) : DieC :=
  if c.rsEnabled then c
  else if off = 0 then (if v.getLsbD 0 then c else { c with rsctl := rsctlStored (lowWord v) })
  else if off = 8 then { c with rsdim := lowWord v }
  else if off = 0x10 then { c with rsbase := v }
  else c

/-- A write of the fabric's registers that have no event of their own: MODID and ROUTEk (R427). -/
def DieC.writeFabric (c : DieC) (off : Nat) (v : Dword) : DieC :=
  if off = 8 * 72 then { c with modid := lowWord v &&& 0x3FF }
  else match indexIn (8 * 73) 1024 off with
    | some k => { c with routes := fset 0x1FF c.routes k (lowWord v &&& 0x1FF) }
    | none => c

/-- The bits of ASROOTn that a write stores: its reserved bits 23:17 read 0 (R8, R352). -/
def asrootMask : Dword := 0xFFFFFFFFFF01FFFF

/-- A write of SLOTBASE and ASROOTn (R338). -/
def DieC.writeDispatch (c : DieC) (off : Nat) (v : Dword) : DieC :=
  if off = 8 then (match slotbaseStored v with
    | some w => { c with slotbase := w }
    | none => c)
  else match indexIn 0x10 256 off with
    | some n => { c with asroot := fset 0 c.asroot n (v &&& asrootMask) }
    | none => c

/-- The registers that act before start-up has ended and in recovery mode (R442, R446). -/
def State.writeEarly (s : State) (off : Nat) (v : Dword) : State :=
  match inPort off with
  | some (p, o) => s.writePortArea p o v
  | none => if flashBlock ≤ off && off < flashBlock + 0x18000 then s.onC (fun c => c.writeFlash (off - flashBlock) v) else s

/-- The other registers (R452). -/
def State.writeLate (s : State) (off : Nat) (v : Dword) : State :=
  if off < rsBlock then s.onC (fun c => c.writeDispatch off v)
  else if off < dieBlock then s.onC (fun c => c.writeStore (off - rsBlock) v)
  else if off = place8 dieBlock 1 then (if ctlCmd (lowWord v) = 0 then s.putLinka (lowWord v) else s)
  else if off = place8 dieBlock 6 then s.onC (fun c => { c with pwrlim := clampNat 800 1600 (lowWord v).toNat })
  else match inPort off with
    | some (p, o) => s.writePortWindow p o v
    | none => match inCompute off with
      | some (d, o) => s.writeDie d o v
      | none => if fabricBlock ≤ off then s.onC (fun c => c.writeFabric (off - fabricBlock) v) else s

/-- REGISTER_WRITE: a register with no event of its own is written; elsewhere nothing happens (R452). -/
def execRegisterWrite (off : Nat) (v : Dword) : Meaning := fun s =>
  let t := s.writeEarly off v
  .next (if t.dieC.open_ then t.writeLate off v else t)

/-- COUNTER_CLEAR: a write of 0 clears a counter, any other is ignored (R382, R421, R434, R451). -/
def execCounterClear (off : Nat) (v : Dword) : Meaning := fun s =>
  if lowWord v ≠ 0 || !s.dieC.open_ then .next s
  else if off = place8 dieBlock 2 then .next { s with dieA := { s.dieA with drops := 0 } }
  else if off = place8 dieBlock 3 then .next { s with dieB := { s.dieB with drops := 0 } }
  else match inPort off with
    | some (p, o) => .next (if o = 0x10 then s.onPort p (fun x => { x with hdrop := 0 }) else s)
    | none => match inCompute off with
      | none => .next s
      | some (d, o) =>
        if o = 0x38 then .next (s.setDie d { s.die d with cecount := 0 })
        else match indexIn 0x10460 8 o with
          | some i => .next (s.onDisp d (fun y => { y with counters := fset 0 y.counters i 0 }))
          | none => .next s

/-! ### Reads -/

/-- A word as a register's 64 bits. -/
def wide (w : Word) : Dword := w.setWidth 64
/-- A number as a register's 64 bits. -/
def wideNat (n : Nat) : Dword := BitVec.ofNat 64 n
/-- A bit at a place. -/
def bitAt (b : Bool) (n : Nat) : Nat := if b then 2 ^ n else 0

/-- A head's register (R377, R382). -/
def Head.register (h : Head) (i : Nat) : Dword :=
  if i = 0 then wide h.hctl else if i = 1 then wide h.htim0 else if i = 2 then wide h.htim1 else if i = 3 then wide h.hclk
  else if i = 4 then h.hfb else if i = 5 then wide h.hpitch
  else if i = 6 then wideNat (bitAt h.up 0 + bitAt h.badcfg 1 + 65536 * h.faults) else 0

/-- A register of R381 and R382. -/
def Display.register (d : Display) (i : Nat) : Dword :=
  if i = 0 then wide d.kctl else if i = 1 then d.mbase else if i = 2 then wide d.mpitch else if i = 3 then d.mseqa
  else if i = 4 then d.kprog else if i = 5 then d.ksrc else if i = 6 then d.khist0 else if i = 7 then d.khist1
  else if i = 8 then d.klog else if i = 9 then wide d.kfill
  else if i = 10 then wideNat (bitAt d.run 0 + bitAt d.badcfg 1 + bitAt d.progok 2 + 256 * (d.reason % 256))
  else if i = 11 then wide d.latseq
  else wide (fget 0 d.counters (i - 12))

/-- CORESTAT's word j (R450). -/
def Die.corestatWord (x : Die) (j : Nat) : Nat := (List.range 32).foldl (fun n i => n + bitAt (fget false x.corestat (32 * j + i)) i) 0

/-- A place of the error log: two words of a record (R451). -/
def Die.logPlace (x : Die) (o : Nat) : Dword :=
  let r := (ffind x.ring (o / 32)).getD []
  let j := o % 32 / 4
  wideNat ((nth 0 r j).toNat + (nth 0 r (j + 1)).toNat * 2 ^ 32)

/-- A register of a compute die (R452). -/
def State.readDie (s : State) (d off : Nat) : Dword :=
  let x := s.die d
  if off = 0 then wide x.netarb else if off = 8 then wide x.ordwd
  else if off = 0x10 then wideNat (x.tlim * 65536 + x.tmax * 256 + x.tnow)
  else if off = 0x18 then wideNat (x.corestatWord 0) else if off = 0x20 then wideNat (x.corestatWord 1)
  else if off = 0x28 then wideNat (x.corestatWord 2)
  else if off = 0x30 then wide x.errseq else if off = 0x38 then wide x.cecount
  else if 0x10000 ≤ off && off < 0x10300 && off % 8 = 0 then
    ((s.disp d).head ((off - 0x10000) / 0x100)).register ((off - 0x10000) % 0x100 / 8)
  else if 0x100000 ≤ off && off < 0x108000 && off % 8 = 0 then x.logPlace (off - 0x100000)
  else match indexIn 0x10400 20 off with
    | some i => (s.disp d).register i
    | none => 0

/-- Eight bytes of a window. -/
def getBytes (m : FMap Byte) (o : Nat) : Dword :=
  wideNat ((List.range 8).foldr (fun j n => (fget 0 m (o + j)).toNat + 256 * n) 0)

/-- A register of a port (R434, R438, R445). -/
def Port.register (x : Port) (off : Nat) : Dword :=
  if off = 0 then wide x.hwctl else if off = 8 then x.hwbase else if off = 0x10 then wide x.hdrop
  else if off = 0x18 then x.evbase else if off = 0x20 then wide x.evctl else if off = 0x28 then wide x.evseq
  else if off = 0x30 then wide x.mbcmd
  else if off = 0x38 then wideNat (bitAt x.busy 0 + 256 * x.result + 65536 * x.len)
  else if 0x8000 ≤ off && off < 0x9000 && off % 8 = 0 && !x.busy then getBytes x.window (off - 0x8000)
  else 0

/-- The flash registers (R443). -/
def DieC.readFlash (c : DieC) (off : Nat) : Dword :=
  if off = 0 then wide c.floff else if off = 8 then wide c.fllen
  else if off = 0x18 then wideNat (bitAt (decide (c.flcmd ≠ 0)) 0 + 256 * c.flresult)
  else if 0x8000 ≤ off && off < 0x18000 && off % 8 = 0 && c.flcmd = 0 then getBytes c.flwin (off - 0x8000)
  else 0

/-- DIESTAT (R421). -/
def State.diestat (s : State) : Nat := s.dieA.state + 4 * s.dieA.cause + 16 * s.dieB.state + 64 * s.dieB.cause

/-- LINKCTLj: the trained lanes and BOND (R427). -/
def DieC.linkctlRead (c : DieC) (j : Nat) : Nat :=
  c.bond j + (List.range 4).foldl (fun n i => n + bitAt (c.laneUp (4 * j + i)) (6 + i)) 0

/-- The fabric's registers (R427, R428). -/
def State.readFabric (s : State) (off : Nat) : Dword :=
  if off = 8 * 72 then wide s.dieC.modid
  else match indexIn 0 72 off, indexIn (8 * 73) 1024 off, indexIn (8 * 1097) 16 off with
    | some j, _, _ => wideNat (s.dieC.linkctlRead j)
    | none, some k, _ => wide (fget 0x1FF s.dieC.routes k)
    | none, none, some n => wide (s.comm n).reg
    | none, none, none => 0

/-- A byte string's place. -/
def measBytes (c : DieC) (o : Nat) : Dword :=
  let l := c.meas0 ++ c.meas1 ++ c.meas2 ++ c.meas3
  wideNat ((List.range 8).foldr (fun j n => (nth 0 l (o + j)).toNat + 256 * n) 0)

/-- The registers that read their values before start-up has ended (R442, R446). -/
def State.readEarly (s : State) (off : Nat) : Option Dword :=
  if off = place8 dieBlock 5 then some (wideNat s.dieC.bootstat)
  else match inPort off with
    | some (p, o) => if 0x18 ≤ o then some ((s.port p).register o) else none
    | none => if flashBlock ≤ off && off < flashBlock + 0x18000 then some (s.dieC.readFlash (off - flashBlock)) else none

/-- The other registers (R452). -/
def State.readLate (s : State) (off : Nat) : Dword :=
  if off = 0 then wide s.dieC.dispctl
  else if off = 8 then s.dieC.slotbase
  else if off < rsBlock then (match indexIn 0x10 256 off with
    | some n => fget 0 s.dieC.asroot n
    | none => 0)
  else if off = rsBlock then wide s.dieC.rsctl
  else if off = place8 rsBlock 1 then wide s.dieC.rsdim
  else if off = place8 rsBlock 2 then s.dieC.rsbase
  else if off = dieBlock then wideNat s.diestat
  else if off = place8 dieBlock 1 then wideNat (bitAt s.dieC.linka 3)
  else if off = place8 dieBlock 2 then wide s.dieA.drops
  else if off = place8 dieBlock 3 then wide s.dieB.drops
  else if off = place8 dieBlock 6 then wideNat s.dieC.pwrlim
  else if measBlock ≤ off && off < measBlock + 128 && off % 8 = 0 then measBytes s.dieC (off - measBlock)
  else match inPort off with
    | some (p, o) => (s.port p).register o
    | none => match inCompute off with
      | some (d, o) => s.readDie d o
      | none => if fabricBlock ≤ off then s.readFabric (off - fabricBlock) else 0

/-- What a register reads, apart from the semaphores, whose reads are events (R436, R442, R446, R452). -/
def State.register (s : State) (off : Nat) : Dword :=
  match s.readEarly off with
  | some v => v
  | none => if s.dieC.open_ then s.readLate off else 0

/-! ### Power and heat -/

/-- POWER_SAMPLE: what the module draws, in watts (R448). -/
def execPowerSample (w : Nat) : Meaning := fun s => .next (s.onC (fun c => { c with power := w }))

/-- THERMAL_SAMPLE: the hottest reading of a die; 105 °C fences it (R449). -/
def execThermalSample (die t : Nat) : Meaning := fun s =>
  if 2 ≤ die then .next s
  else
    let x := s.die die
    let r := min t 255
    let u := s.setDie die { x with tnow := r, tmax := max x.tmax r }
    .next (if 105 ≤ t then u.fenceDie die 2 3 else u)

/-- A die throttles (R448). -/
def State.throttles (s : State) (d : Nat) : Bool := decide (s.dieC.pwrlim < s.dieC.power) || decide ((s.die d).tlim < (s.die d).tnow)

/-- THROTTLE_STEP: 58.75 MHz down to 470 MHz, or up to 940 MHz (R448). -/
def execThrottleStep (die : Nat) : Meaning := fun s =>
  if 2 ≤ die then .next s
  else
    let x := s.die die
    .next (s.setDie die { x with clock := if s.throttles die then max 1880 (x.clock - 235) else min 3760 (x.clock + 235) })

end Sys2Proof.Machine
end

