-- ==== Sys2Proof/Machine/Scalar.lean ====
section
/-!
DEFINITION.  The scalar instructions, predicate logic and votes (R96, R97, R141).
-/

namespace Sys2Proof.Machine

/-- A two-operand predicate function in each ACTIVE lane (R141). -/
def plog (d a b : Pred) (f : Bool → Bool → Bool) : Meaning :=
  issue ⟨[], [], [], []⟩ noCheck 0 (fun s => s.predResult d.toNat (fun i => f (s.rp i a.toNat) (s.rp i b.toNat)))

/-- SADD (R96). -/
def execSadd (d a b : Reg) : Meaning :=
  scalar3 d a b (fun x y => x + y)

/-- SSUB (R96). -/
def execSsub (d a b : Reg) : Meaning :=
  scalar3 d a b (fun x y => x - y)

/-- SMUL (R96). -/
def execSmul (d a b : Reg) : Meaning :=
  scalar3 d a b (fun x y => x * y)

/-- SAND (R96). -/
def execSand (d a b : Reg) : Meaning :=
  scalar3 d a b (fun x y => x &&& y)

/-- SOR (R96). -/
def execSor (d a b : Reg) : Meaning :=
  scalar3 d a b (fun x y => x ||| y)

/-- SXOR (R96). -/
def execSxor (d a b : Reg) : Meaning :=
  scalar3 d a b (fun x y => x ^^^ y)

/-- SSHL (R96). -/
def execSshl (d a b : Reg) : Meaning :=
  scalar3 d a b aluShl

/-- SSHRN (R96). -/
def execSshrn (d a b : Reg) : Meaning :=
  scalar3 d a b aluShrn

/-- SSHRS (R96). -/
def execSshrs (d a b : Reg) : Meaning :=
  scalar3 d a b aluShrs

/-- SMINS (R96). -/
def execSmins (d a b : Reg) : Meaning :=
  scalar3 d a b aluMins

/-- SMAXS (R96). -/
def execSmaxs (d a b : Reg) : Meaning :=
  scalar3 d a b aluMaxs

/-- SADD64 on scalar pairs (R96). -/
def execSadd64 (d a b : Reg) : Meaning :=
  issue ⟨[], [], [(a.toNat, 2), (b.toNat, 2)], [(d.toNat, 2)]⟩ noCheck 0 (fun s =>
    s.putS2 d.toNat (s.rs2 a.toNat + s.rs2 b.toNat))

/-- SSETEQ (R96). -/
def execSseteq (d a b : Reg) : Meaning :=
  scalar3 d a b (fun x y => boolWord (decide (x = y)))

/-- SSETNE (R96). -/
def execSsetne (d a b : Reg) : Meaning :=
  scalar3 d a b (fun x y => boolWord (decide (x ≠ y)))

/-- SSETLT (R96). -/
def execSsetlt (d a b : Reg) : Meaning :=
  scalar3 d a b (fun x y => boolWord (decide (x.toInt < y.toInt)))

/-- SSETLTN (R96). -/
def execSsetltn (d a b : Reg) : Meaning :=
  scalar3 d a b (fun x y => boolWord (decide (x.toNat < y.toNat)))

/-- SADDI (R97). -/
def execSaddi (d a : Reg) (imm : Imm11) : Meaning :=
  issue ⟨[], [], [(a.toNat, 1)], [(d.toNat, 1)]⟩ noCheck 0 (fun s => s.putS d.toNat (s.rs a.toNat + immWord imm))

/-- PAND (R141). -/
def execPand (d a b : Pred) : Meaning :=
  plog d a b (fun x y => x && y)

/-- POR (R141). -/
def execPor (d a b : Pred) : Meaning :=
  plog d a b (fun x y => x || y)

/-- PXOR (R141). -/
def execPxor (d a b : Pred) : Meaning :=
  plog d a b (fun x y => x != y)

/-- PANDN (R141). -/
def execPandn (d a b : Pred) : Meaning :=
  plog d a b (fun x y => x && !y)

/-- P2V (R141). -/
def execP2v (d : Reg) (a : Pred) : Meaning :=
  issue ⟨[], [(d.toNat, 1)], [], []⟩ noCheck 0 (fun s =>
    s.vecResult 0 d.toNat (fun i => [boolWord (s.rp i a.toNat)]) (fun _ => 0))

/-- V2P (R141). -/
def execV2p (d : Pred) (a : Reg) : Meaning :=
  issue ⟨[(a.toNat, 1)], [], [], []⟩ noCheck 0 (fun s => s.predResult d.toNat (fun i => decide (s.rv i a.toNat ≠ 0)))

/-- VANY (R141). -/
def execVany (d a : Pred) : Meaning :=
  issue ⟨[], [], [], []⟩ noCheck 0 (fun s => s.predResult d.toNat (fun _ => s.acts.any (fun j => s.rp j a.toNat)))

/-- VALL (R141). -/
def execVall (d a : Pred) : Meaning :=
  issue ⟨[], [], [], []⟩ noCheck 0 (fun s => s.predResult d.toNat (fun _ => s.acts.all (fun j => s.rp j a.toNat)))

/-- VBAL (R141). -/
def execVbal (d : Reg) (a : Pred) : Meaning :=
  issue ⟨[], [], [], [(d.toNat, 2)]⟩ noCheck 0 (fun s =>
    s.putS2 d.toNat (maskOf (fun i => s.unit.mask.getLsbD i && s.rp i a.toNat) s.pre.width))

/-- VCNT (R141). -/
def execVcnt (d : Reg) (a : Pred) : Meaning :=
  issue ⟨[], [], [], [(d.toNat, 1)]⟩ noCheck 0 (fun s =>
    s.putS d.toNat (BitVec.ofNat 32 (s.acts.filter (fun i => s.rp i a.toNat)).length))

end Sys2Proof.Machine
end

