-- ==== Sys2Proof/Machine/Dispatch.lean ====
section
/-! DEFINITION.  One arm for each instruction and event: a direct call of its meaning. -/

namespace Sys2Proof.Machine

/-- The meaning of an instruction or event. -/
def exec (i : Instr) (s : State) : Host.Outcome State Fault Refusal :=
  match i with
  | .instructionFetch g pkt => Sys2Proof.Machine.execInstructionFetch g pkt s
  | .blockPark g => Sys2Proof.Machine.execBlockPark g s
  | .spinPark g => Sys2Proof.Machine.execSpinPark g s
  | .parkTimeoutWake g lane => Sys2Proof.Machine.execParkTimeoutWake g lane s
  | .parkLimit g lane => Sys2Proof.Machine.execParkLimit g lane s
  | .lookaheadResult g n => Sys2Proof.Machine.execLookaheadResult g n s
  | .groupRetire g => Sys2Proof.Machine.execGroupRetire g s
  | .icinvDone g => Sys2Proof.Machine.execIcinvDone g s
  | .tlbinvDone g => Sys2Proof.Machine.execTlbinvDone g s
  | .tidsetDone g => Sys2Proof.Machine.execTidsetDone g s
  | .xfenceDone g => Sys2Proof.Machine.execXfenceDone g s
  | .phaseDone g => Sys2Proof.Machine.execPhaseDone g s
  | .fenceAcqDone g => Sys2Proof.Machine.execFenceAcqDone g s
  | .redflushDone g => Sys2Proof.Machine.execRedflushDone g s
  | .sleepEnd g => Sys2Proof.Machine.execSleepEnd g s
  | .storeRequestSend g n => Sys2Proof.Machine.execStoreRequestSend g n s
  | .sliceApply g n ecc => Sys2Proof.Machine.execSliceApply g n ecc s
  | .sliceRead g key ecc => Sys2Proof.Machine.execSliceRead g key ecc s
  | .writeAck g n => Sys2Proof.Machine.execWriteAck g n s
  | .spontaneousPublish part upTo g => Sys2Proof.Machine.execSpontaneousPublish part upTo g s
  | .viewRenewal g => Sys2Proof.Machine.execViewRenewal g s
  | .reductionDrain core n ok => Sys2Proof.Machine.execReductionDrain core n ok s
  | .stagingSpill team => Sys2Proof.Machine.execStagingSpill team s
  | .ticketBatchApply e ok => Sys2Proof.Machine.execTicketBatchApply e ok s
  | .hostAtomicCompletion g ok => Sys2Proof.Machine.execHostAtomicCompletion g ok s
  | .copyStart core => Sys2Proof.Machine.execCopyStart core s
  | .copyComplete core n => Sys2Proof.Machine.execCopyComplete core n s
  | .rayRequest g q => Sys2Proof.Machine.execRayRequest g q s
  | .lightWalk g => Sys2Proof.Machine.execLightWalk g s
  | .tunCommandStart core n => Sys2Proof.Machine.execTunCommandStart core n s
  | .tunCommandComplete core n => Sys2Proof.Machine.execTunCommandComplete core n s
  | .tunTagWaitLimit core n => Sys2Proof.Machine.execTunTagWaitLimit core n s
  | .arrayRelease core => Sys2Proof.Machine.execArrayRelease core s
  | .arrayClear core => Sys2Proof.Machine.execArrayClear core s
  | .arrayHoldExpire core => Sys2Proof.Machine.execArrayHoldExpire core s
  | .tunEccError core acc row => Sys2Proof.Machine.execTunEccError core acc row s
  | .trapEntry g => Sys2Proof.Machine.execTrapEntry g s
  | .fatalTrap team => Sys2Proof.Machine.execFatalTrap team s
  | .haltRequest team => Sys2Proof.Machine.execHaltRequest team s
  | .contextSaveDone team => Sys2Proof.Machine.execContextSaveDone team s
  | .teamResume team core => Sys2Proof.Machine.execTeamResume team core s
  | .registerEccError g kind lane r => Sys2Proof.Machine.execRegisterEccError g kind lane r s
  | .registerScrub g row => Sys2Proof.Machine.execRegisterScrub g row s
  | .packetPromotion a heads => Sys2Proof.Machine.execPacketPromotion a heads s
  | .linkCrcReplay link ok => Sys2Proof.Machine.execLinkCrcReplay link ok s
  | .linkRetrain link => Sys2Proof.Machine.execLinkRetrain link s
  | .linkRetrainDone link ok => Sys2Proof.Machine.execLinkRetrainDone link ok s
  | .reqseqNotify slot => Sys2Proof.Machine.execReqseqNotify slot s
  | .executionStart slot => Sys2Proof.Machine.execExecutionStart slot s
  | .teamPlace die => Sys2Proof.Machine.execTeamPlace die s
  | .coreSplitChange core => Sys2Proof.Machine.execCoreSplitChange core s
  | .launchReqseqAdd id => Sys2Proof.Machine.execLaunchReqseqAdd id s
  | .pageWalk space va w => Sys2Proof.Machine.execPageWalk space va w s
  | .rsctlEnable v => Sys2Proof.Machine.execRsctlEnable v s
  | .reservoirFillDone => Sys2Proof.Machine.execReservoirFillDone s
  | .rsctlDisable v => Sys2Proof.Machine.execRsctlDisable v s
  | .reservoirWritebackDone => Sys2Proof.Machine.execReservoirWritebackDone s
  | .spargeStart cluster => Sys2Proof.Machine.execSpargeStart cluster s
  | .spargeComplete cluster => Sys2Proof.Machine.execSpargeComplete cluster s
  | .gristStart die => Sys2Proof.Machine.execGristStart die s
  | .gristComplete die => Sys2Proof.Machine.execGristComplete die s
  | .rasterBinning e => Sys2Proof.Machine.execRasterBinning e s
  | .fragmentGroupStart team => Sys2Proof.Machine.execFragmentGroupStart team s
  | .ordTimeout g => Sys2Proof.Machine.execOrdTimeout g s
  | .headEnable die head v => Sys2Proof.Machine.execHeadEnable die head v s
  | .headDisable die head v => Sys2Proof.Machine.execHeadDisable die head v s
  | .headLinkTrained die head => Sys2Proof.Machine.execHeadLinkTrained die head s
  | .displayLinkLoss die head => Sys2Proof.Machine.execDisplayLinkLoss die head s
  | .scanoutLine die head => Sys2Proof.Machine.execScanoutLine die head s
  | .head2FrameRelease die => Sys2Proof.Machine.execHead2FrameRelease die s
  | .kilnEnable die v => Sys2Proof.Machine.execKilnEnable die v s
  | .kilnDisable die v => Sys2Proof.Machine.execKilnDisable die v s
  | .kprogWrite die v => Sys2Proof.Machine.execKprogWrite die v s
  | .kilnLatch die => Sys2Proof.Machine.execKilnLatch die s
  | .programValidated die => Sys2Proof.Machine.execProgramValidated die s
  | .bandStart die => Sys2Proof.Machine.execBandStart die s
  | .bandNetworkDone die => Sys2Proof.Machine.execBandNetworkDone die s
  | .networkDeadline die => Sys2Proof.Machine.execNetworkDeadline die s
  | .reprojectionDone die => Sys2Proof.Machine.execReprojectionDone die s
  | .repeatDone die => Sys2Proof.Machine.execRepeatDone die s
  | .bandUnderrun die => Sys2Proof.Machine.execBandUnderrun die s
  | .motionBlockDone die => Sys2Proof.Machine.execMotionBlockDone die s
  | .dieCoreFence die => Sys2Proof.Machine.execDieCoreFence die s
  | .dieFullFence die => Sys2Proof.Machine.execDieFullFence die s
  | .diectlCoreFence v => Sys2Proof.Machine.execDiectlCoreFence v s
  | .diectlCoreReset v => Sys2Proof.Machine.execDiectlCoreReset v s
  | .diectlUncoreReset v => Sys2Proof.Machine.execDiectlUncoreReset v s
  | .coreResetDone die => Sys2Proof.Machine.execCoreResetDone die s
  | .uncoreResetDone die => Sys2Proof.Machine.execUncoreResetDone die s
  | .selfTest die failing => Sys2Proof.Machine.execSelfTest die failing s
  | .gbarTimeout e b => Sys2Proof.Machine.execGbarTimeout e b s
  | .fabricLinkUp lane => Sys2Proof.Machine.execFabricLinkUp lane s
  | .fabricLinkDown lane => Sys2Proof.Machine.execFabricLinkDown lane s
  | .commWrite n v => Sys2Proof.Machine.execCommWrite n v s
  | .collContribution comm rank kind fn fmt n root data => Sys2Proof.Machine.execCollContribution comm rank kind fn fmt n root data s
  | .collOperationComplete comm => Sys2Proof.Machine.execCollOperationComplete comm s
  | .collTimeout comm => Sys2Proof.Machine.execCollTimeout comm s
  | .hostRead p off len => Sys2Proof.Machine.execHostRead p off len s
  | .hostWrite p off data ro => Sys2Proof.Machine.execHostWrite p off data ro s
  | .hostAtomicop p off size fn b c => Sys2Proof.Machine.execHostAtomicop p off size fn b c s
  | .hostLinkDown p => Sys2Proof.Machine.execHostLinkDown p s
  | .semRead n agent => Sys2Proof.Machine.execSemRead n agent s
  | .semRelease n agent v => Sys2Proof.Machine.execSemRelease n agent v s
  | .evctlEnable p v => Sys2Proof.Machine.execEvctlEnable p v s
  | .msixInterrupt p => Sys2Proof.Machine.execMsixInterrupt p s
  | .flashErase v => Sys2Proof.Machine.execFlashErase v s
  | .flashProgram v => Sys2Proof.Machine.execFlashProgram v s
  | .flashRead v => Sys2Proof.Machine.execFlashRead v s
  | .flashCommandDone ok => Sys2Proof.Machine.execFlashCommandDone ok s
  | .getcert p v => Sys2Proof.Machine.execGetcert p v s
  | .attest p v => Sys2Proof.Machine.execAttest p v s
  | .extend p v => Sys2Proof.Machine.execExtend p v s
  | .mailboxUnknown p v => Sys2Proof.Machine.execMailboxUnknown p v s
  | .mailboxDone p => Sys2Proof.Machine.execMailboxDone p s
  | .packageReset pass reason => Sys2Proof.Machine.execPackageReset pass reason s
  | .pkgrst v => Sys2Proof.Machine.execPkgrst v s
  | .dieCFatal => Sys2Proof.Machine.execDieCFatal s
  | .thermalSample die t => Sys2Proof.Machine.execThermalSample die t s
  | .powerSample w => Sys2Proof.Machine.execPowerSample w s
  | .throttleStep die => Sys2Proof.Machine.execThrottleStep die s
  | .counterClear off v => Sys2Proof.Machine.execCounterClear off v s
  | .registerWrite off v => Sys2Proof.Machine.execRegisterWrite off v s
  | .hostLinkUp p => Sys2Proof.Machine.execHostLinkUp p s
  | .dispctlWrite v => Sys2Proof.Machine.execDispctlWrite v s
  | .linkctlWrite j v => Sys2Proof.Machine.execLinkctlWrite j v s
  | .nop => Sys2Proof.Machine.execNop s
  | .trap n => Sys2Proof.Machine.execTrap n s
  | .eret => Sys2Proof.Machine.execEret s
  | .halt a => Sys2Proof.Machine.execHalt a s
  | .csrr d e => Sys2Proof.Machine.execCsrr d e s
  | .csrw a e => Sys2Proof.Machine.execCsrw a e s
  | .segld a k => Sys2Proof.Machine.execSegld a k s
  | .tlbinv a e => Sys2Proof.Machine.execTlbinv a e s
  | .tlbinvAll => Sys2Proof.Machine.execTlbinvAll s
  | .icinv a e => Sys2Proof.Machine.execIcinv a e s
  | .isync => Sys2Proof.Machine.execIsync s
  | .sleep a => Sys2Proof.Machine.execSleep a s
  | .yield => Sys2Proof.Machine.execYield s
  | .flagrd d => Sys2Proof.Machine.execFlagrd d s
  | .flagclr m => Sys2Proof.Machine.execFlagclr m s
  | .clock d => Sys2Proof.Machine.execClock d s
  | .add d a b => Sys2Proof.Machine.execAdd d a b s
  | .sub d a b => Sys2Proof.Machine.execSub d a b s
  | .mul d a b => Sys2Proof.Machine.execMul d a b s
  | .mulhs d a b => Sys2Proof.Machine.execMulhs d a b s
  | .mulhn d a b => Sys2Proof.Machine.execMulhn d a b s
  | .mins d a b => Sys2Proof.Machine.execMins d a b s
  | .maxs d a b => Sys2Proof.Machine.execMaxs d a b s
  | .minn d a b => Sys2Proof.Machine.execMinn d a b s
  | .maxn d a b => Sys2Proof.Machine.execMaxn d a b s
  | .and d a b => Sys2Proof.Machine.execAnd d a b s
  | .or d a b => Sys2Proof.Machine.execOr d a b s
  | .xor d a b => Sys2Proof.Machine.execXor d a b s
  | .andn d a b => Sys2Proof.Machine.execAndn d a b s
  | .shl d a b => Sys2Proof.Machine.execShl d a b s
  | .shrn d a b => Sys2Proof.Machine.execShrn d a b s
  | .shrs d a b => Sys2Proof.Machine.execShrs d a b s
  | .addS d a b => Sys2Proof.Machine.execAddS d a b s
  | .subS d a b => Sys2Proof.Machine.execSubS d a b s
  | .mulS d a b => Sys2Proof.Machine.execMulS d a b s
  | .mulhsS d a b => Sys2Proof.Machine.execMulhsS d a b s
  | .mulhnS d a b => Sys2Proof.Machine.execMulhnS d a b s
  | .minsS d a b => Sys2Proof.Machine.execMinsS d a b s
  | .maxsS d a b => Sys2Proof.Machine.execMaxsS d a b s
  | .minnS d a b => Sys2Proof.Machine.execMinnS d a b s
  | .maxnS d a b => Sys2Proof.Machine.execMaxnS d a b s
  | .andS d a b => Sys2Proof.Machine.execAndS d a b s
  | .orS d a b => Sys2Proof.Machine.execOrS d a b s
  | .xorS d a b => Sys2Proof.Machine.execXorS d a b s
  | .andnS d a b => Sys2Proof.Machine.execAndnS d a b s
  | .shlS d a b => Sys2Proof.Machine.execShlS d a b s
  | .shrnS d a b => Sys2Proof.Machine.execShrnS d a b s
  | .shrsS d a b => Sys2Proof.Machine.execShrsS d a b s
  | .rot d a b => Sys2Proof.Machine.execRot d a b s
  | .absd d a b => Sys2Proof.Machine.execAbsd d a b s
  | .mac d a b => Sys2Proof.Machine.execMac d a b s
  | .add64 d a b => Sys2Proof.Machine.execAdd64 d a b s
  | .sub64 d a b => Sys2Proof.Machine.execSub64 d a b s
  | .bfen d a b => Sys2Proof.Machine.execBfen d a b s
  | .bfes d a b => Sys2Proof.Machine.execBfes d a b s
  | .bfi d a b => Sys2Proof.Machine.execBfi d a b s
  | .popc d a => Sys2Proof.Machine.execPopc d a s
  | .clz d a => Sys2Proof.Machine.execClz d a s
  | .brev d a => Sys2Proof.Machine.execBrev d a s
  | .bsel d a b => Sys2Proof.Machine.execBsel d a b s
  | .lea0 d a b => Sys2Proof.Machine.execLea0 d a b s
  | .lea1 d a b => Sys2Proof.Machine.execLea1 d a b s
  | .lea2 d a b => Sys2Proof.Machine.execLea2 d a b s
  | .lea3 d a b => Sys2Proof.Machine.execLea3 d a b s
  | .rotS d a b => Sys2Proof.Machine.execRotS d a b s
  | .absdS d a b => Sys2Proof.Machine.execAbsdS d a b s
  | .macS d a b => Sys2Proof.Machine.execMacS d a b s
  | .add64S d a b => Sys2Proof.Machine.execAdd64S d a b s
  | .sub64S d a b => Sys2Proof.Machine.execSub64S d a b s
  | .bfenS d a b => Sys2Proof.Machine.execBfenS d a b s
  | .bfesS d a b => Sys2Proof.Machine.execBfesS d a b s
  | .bfiS d a b => Sys2Proof.Machine.execBfiS d a b s
  | .popcS d a => Sys2Proof.Machine.execPopcS d a s
  | .clzS d a => Sys2Proof.Machine.execClzS d a s
  | .brevS d a => Sys2Proof.Machine.execBrevS d a s
  | .bselS d a b => Sys2Proof.Machine.execBselS d a b s
  | .lea0S d a b => Sys2Proof.Machine.execLea0S d a b s
  | .lea1S d a b => Sys2Proof.Machine.execLea1S d a b s
  | .lea2S d a b => Sys2Proof.Machine.execLea2S d a b s
  | .lea3S d a b => Sys2Proof.Machine.execLea3S d a b s
  | .icmpEq d a b => Sys2Proof.Machine.execIcmpEq d a b s
  | .icmpNe d a b => Sys2Proof.Machine.execIcmpNe d a b s
  | .icmpLts d a b => Sys2Proof.Machine.execIcmpLts d a b s
  | .icmpLes d a b => Sys2Proof.Machine.execIcmpLes d a b s
  | .icmpGts d a b => Sys2Proof.Machine.execIcmpGts d a b s
  | .icmpGes d a b => Sys2Proof.Machine.execIcmpGes d a b s
  | .icmpLtn d a b => Sys2Proof.Machine.execIcmpLtn d a b s
  | .icmpLen d a b => Sys2Proof.Machine.execIcmpLen d a b s
  | .icmpGtn d a b => Sys2Proof.Machine.execIcmpGtn d a b s
  | .icmpGen d a b => Sys2Proof.Machine.execIcmpGen d a b s
  | .icmpTst d a b => Sys2Proof.Machine.execIcmpTst d a b s
  | .icmpNtst d a b => Sys2Proof.Machine.execIcmpNtst d a b s
  | .icmpEqS d a b => Sys2Proof.Machine.execIcmpEqS d a b s
  | .icmpNeS d a b => Sys2Proof.Machine.execIcmpNeS d a b s
  | .icmpLtsS d a b => Sys2Proof.Machine.execIcmpLtsS d a b s
  | .icmpLesS d a b => Sys2Proof.Machine.execIcmpLesS d a b s
  | .icmpGtsS d a b => Sys2Proof.Machine.execIcmpGtsS d a b s
  | .icmpGesS d a b => Sys2Proof.Machine.execIcmpGesS d a b s
  | .icmpLtnS d a b => Sys2Proof.Machine.execIcmpLtnS d a b s
  | .icmpLenS d a b => Sys2Proof.Machine.execIcmpLenS d a b s
  | .icmpGtnS d a b => Sys2Proof.Machine.execIcmpGtnS d a b s
  | .icmpGenS d a b => Sys2Proof.Machine.execIcmpGenS d a b s
  | .icmpTstS d a b => Sys2Proof.Machine.execIcmpTstS d a b s
  | .icmpNtstS d a b => Sys2Proof.Machine.execIcmpNtstS d a b s
  | .fadd d a b => Sys2Proof.Machine.execFadd d a b s
  | .fsub d a b => Sys2Proof.Machine.execFsub d a b s
  | .fmul d a b => Sys2Proof.Machine.execFmul d a b s
  | .fmac d a b => Sys2Proof.Machine.execFmac d a b s
  | .fmsc d a b => Sys2Proof.Machine.execFmsc d a b s
  | .fmin d a b => Sys2Proof.Machine.execFmin d a b s
  | .fmax d a b => Sys2Proof.Machine.execFmax d a b s
  | .fminn d a b => Sys2Proof.Machine.execFminn d a b s
  | .fmaxn d a b => Sys2Proof.Machine.execFmaxn d a b s
  | .fcps d a b => Sys2Proof.Machine.execFcps d a b s
  | .fscl d a b => Sys2Proof.Machine.execFscl d a b s
  | .faddS d a b => Sys2Proof.Machine.execFaddS d a b s
  | .fsubS d a b => Sys2Proof.Machine.execFsubS d a b s
  | .fmulS d a b => Sys2Proof.Machine.execFmulS d a b s
  | .fmacS d a b => Sys2Proof.Machine.execFmacS d a b s
  | .fmscS d a b => Sys2Proof.Machine.execFmscS d a b s
  | .fminS d a b => Sys2Proof.Machine.execFminS d a b s
  | .fmaxS d a b => Sys2Proof.Machine.execFmaxS d a b s
  | .fminnS d a b => Sys2Proof.Machine.execFminnS d a b s
  | .fmaxnS d a b => Sys2Proof.Machine.execFmaxnS d a b s
  | .fcpsS d a b => Sys2Proof.Machine.execFcpsS d a b s
  | .fsclS d a b => Sys2Proof.Machine.execFsclS d a b s
  | .fcmpEq d a b => Sys2Proof.Machine.execFcmpEq d a b s
  | .fcmpNe d a b => Sys2Proof.Machine.execFcmpNe d a b s
  | .fcmpLt d a b => Sys2Proof.Machine.execFcmpLt d a b s
  | .fcmpLe d a b => Sys2Proof.Machine.execFcmpLe d a b s
  | .fcmpGt d a b => Sys2Proof.Machine.execFcmpGt d a b s
  | .fcmpGe d a b => Sys2Proof.Machine.execFcmpGe d a b s
  | .fcmpUn d a b => Sys2Proof.Machine.execFcmpUn d a b s
  | .fcmpOr d a b => Sys2Proof.Machine.execFcmpOr d a b s
  | .fcmpEqS d a b => Sys2Proof.Machine.execFcmpEqS d a b s
  | .fcmpNeS d a b => Sys2Proof.Machine.execFcmpNeS d a b s
  | .fcmpLtS d a b => Sys2Proof.Machine.execFcmpLtS d a b s
  | .fcmpLeS d a b => Sys2Proof.Machine.execFcmpLeS d a b s
  | .fcmpGtS d a b => Sys2Proof.Machine.execFcmpGtS d a b s
  | .fcmpGeS d a b => Sys2Proof.Machine.execFcmpGeS d a b s
  | .fcmpUnS d a b => Sys2Proof.Machine.execFcmpUnS d a b s
  | .fcmpOrS d a b => Sys2Proof.Machine.execFcmpOrS d a b s
  | .hadd d a b => Sys2Proof.Machine.execHadd d a b s
  | .hsub d a b => Sys2Proof.Machine.execHsub d a b s
  | .hmul d a b => Sys2Proof.Machine.execHmul d a b s
  | .hmac d a b => Sys2Proof.Machine.execHmac d a b s
  | .hmin d a b => Sys2Proof.Machine.execHmin d a b s
  | .hmax d a b => Sys2Proof.Machine.execHmax d a b s
  | .badd d a b => Sys2Proof.Machine.execBadd d a b s
  | .bsub d a b => Sys2Proof.Machine.execBsub d a b s
  | .bmul d a b => Sys2Proof.Machine.execBmul d a b s
  | .bmac d a b => Sys2Proof.Machine.execBmac d a b s
  | .bmin d a b => Sys2Proof.Machine.execBmin d a b s
  | .bmax d a b => Sys2Proof.Machine.execBmax d a b s
  | .haddS d a b => Sys2Proof.Machine.execHaddS d a b s
  | .hsubS d a b => Sys2Proof.Machine.execHsubS d a b s
  | .hmulS d a b => Sys2Proof.Machine.execHmulS d a b s
  | .hmacS d a b => Sys2Proof.Machine.execHmacS d a b s
  | .hminS d a b => Sys2Proof.Machine.execHminS d a b s
  | .hmaxS d a b => Sys2Proof.Machine.execHmaxS d a b s
  | .baddS d a b => Sys2Proof.Machine.execBaddS d a b s
  | .bsubS d a b => Sys2Proof.Machine.execBsubS d a b s
  | .bmulS d a b => Sys2Proof.Machine.execBmulS d a b s
  | .bmacS d a b => Sys2Proof.Machine.execBmacS d a b s
  | .bminS d a b => Sys2Proof.Machine.execBminS d a b s
  | .bmaxS d a b => Sys2Proof.Machine.execBmaxS d a b s
  | .sel p d a b => Sys2Proof.Machine.execSel p d a b s
  | .selS p d a b => Sys2Proof.Machine.execSelS p d a b s
  | .pand d a b => Sys2Proof.Machine.execPand d a b s
  | .por d a b => Sys2Proof.Machine.execPor d a b s
  | .pxor d a b => Sys2Proof.Machine.execPxor d a b s
  | .pandn d a b => Sys2Proof.Machine.execPandn d a b s
  | .p2v d a => Sys2Proof.Machine.execP2v d a s
  | .v2p d a => Sys2Proof.Machine.execV2p d a s
  | .vany d a => Sys2Proof.Machine.execVany d a s
  | .vall d a => Sys2Proof.Machine.execVall d a s
  | .vbal d a => Sys2Proof.Machine.execVbal d a s
  | .vcnt d a => Sys2Proof.Machine.execVcnt d a s
  | .addi d a imm => Sys2Proof.Machine.execAddi d a imm s
  | .andi d a imm => Sys2Proof.Machine.execAndi d a imm s
  | .ori d a imm => Sys2Proof.Machine.execOri d a imm s
  | .xori d a imm => Sys2Proof.Machine.execXori d a imm s
  | .shiShl d a n => Sys2Proof.Machine.execShiShl d a n s
  | .shiShrn d a n => Sys2Proof.Machine.execShiShrn d a n s
  | .shiShrs d a n => Sys2Proof.Machine.execShiShrs d a n s
  | .shiRot d a n => Sys2Proof.Machine.execShiRot d a n s
  | .movi d imm => Sys2Proof.Machine.execMovi d imm s
  | .lit sd d value => Sys2Proof.Machine.execLit sd d value s
  | .sadd d a b => Sys2Proof.Machine.execSadd d a b s
  | .ssub d a b => Sys2Proof.Machine.execSsub d a b s
  | .smul d a b => Sys2Proof.Machine.execSmul d a b s
  | .sand d a b => Sys2Proof.Machine.execSand d a b s
  | .sor d a b => Sys2Proof.Machine.execSor d a b s
  | .sxor d a b => Sys2Proof.Machine.execSxor d a b s
  | .sshl d a b => Sys2Proof.Machine.execSshl d a b s
  | .sshrn d a b => Sys2Proof.Machine.execSshrn d a b s
  | .sshrs d a b => Sys2Proof.Machine.execSshrs d a b s
  | .smins d a b => Sys2Proof.Machine.execSmins d a b s
  | .smaxs d a b => Sys2Proof.Machine.execSmaxs d a b s
  | .sadd64 d a b => Sys2Proof.Machine.execSadd64 d a b s
  | .sseteq d a b => Sys2Proof.Machine.execSseteq d a b s
  | .ssetne d a b => Sys2Proof.Machine.execSsetne d a b s
  | .ssetlt d a b => Sys2Proof.Machine.execSsetlt d a b s
  | .ssetltn d a b => Sys2Proof.Machine.execSsetltn d a b s
  | .saddi d a imm => Sys2Proof.Machine.execSaddi d a imm s
  | .bcast d b => Sys2Proof.Machine.execBcast d b s
  | .rdfirst d a => Sys2Proof.Machine.execRdfirst d a s
  | .rdlane d a b => Sys2Proof.Machine.execRdlane d a b s
  | .wrlane d a b => Sys2Proof.Machine.execWrlane d a b s
  | .rdlpc d a => Sys2Proof.Machine.execRdlpc d a s
  | .laneid d => Sys2Proof.Machine.execLaneid d s
  | .rcp la d a => Sys2Proof.Machine.execRcp la d a s
  | .rsq la d a => Sys2Proof.Machine.execRsq la d a s
  | .sqrt la d a => Sys2Proof.Machine.execSqrt la d a s
  | .ex2 la d a => Sys2Proof.Machine.execEx2 la d a s
  | .lg2 la d a => Sys2Proof.Machine.execLg2 la d a s
  | .sinpi la d a => Sys2Proof.Machine.execSinpi la d a s
  | .cospi la d a => Sys2Proof.Machine.execCospi la d a s
  | .tanh la d a => Sys2Proof.Machine.execTanh la d a s
  | .cvtF32S32 la d a rnd => Sys2Proof.Machine.execCvtF32S32 la d a rnd s
  | .cvtF32N32 la d a rnd => Sys2Proof.Machine.execCvtF32N32 la d a rnd s
  | .cvtS32F32 la d a rnd => Sys2Proof.Machine.execCvtS32F32 la d a rnd s
  | .cvtN32F32 la d a rnd => Sys2Proof.Machine.execCvtN32F32 la d a rnd s
  | .cvtF16F32 la d a rnd => Sys2Proof.Machine.execCvtF16F32 la d a rnd s
  | .cvtBf16F32 la d a rnd => Sys2Proof.Machine.execCvtBf16F32 la d a rnd s
  | .cvtF32F16 la d a rnd => Sys2Proof.Machine.execCvtF32F16 la d a rnd s
  | .cvtF32Bf16 la d a rnd => Sys2Proof.Machine.execCvtF32Bf16 la d a rnd s
  | .frint la d a rnd => Sys2Proof.Machine.execFrint la d a rnd s
  | .qcvt la d a b rnd sat fmt pos draw => Sys2Proof.Machine.execQcvt la d a b rnd sat fmt pos draw s
  | .qwiden la d a b rnd sat fmt pos => Sys2Proof.Machine.execQwiden la d a b rnd sat fmt pos s
  | .qscale la d a fmt => Sys2Proof.Machine.execQscale la d a fmt s
  | .dp4s8 d a b => Sys2Proof.Machine.execDp4s8 d a b s
  | .dp4n8 d a b => Sys2Proof.Machine.execDp4n8 d a b s
  | .dp4sn8 d a b => Sys2Proof.Machine.execDp4sn8 d a b s
  | .dp8s4 d a b => Sys2Proof.Machine.execDp8s4 d a b s
  | .dp2bf d a b => Sys2Proof.Machine.execDp2bf d a b s
  | .dp2h d a b => Sys2Proof.Machine.execDp2h d a b s
  | .dp4e4 d a b => Sys2Proof.Machine.execDp4e4 d a b s
  | .dp4e5 d a b => Sys2Proof.Machine.execDp4e5 d a b s
  | .dp4t5 d a b => Sys2Proof.Machine.execDp4t5 d a b s
  | .t5pack d a => Sys2Proof.Machine.execT5pack d a s
  | .t5unpk d a => Sys2Proof.Machine.execT5unpk d a s
  | .t5enc d a => Sys2Proof.Machine.execT5enc d a s
  | .t5dec d a => Sys2Proof.Machine.execT5dec d a s
  | .t5chk d a => Sys2Proof.Machine.execT5chk d a s
  | .tern d a b => Sys2Proof.Machine.execTern d a b s
  | .tcnt d a => Sys2Proof.Machine.execTcnt d a s
  | .shfli d a b => Sys2Proof.Machine.execShfli d a b s
  | .shflu d a b => Sys2Proof.Machine.execShflu d a b s
  | .shfld d a b => Sys2Proof.Machine.execShfld d a b s
  | .shflx d a b => Sys2Proof.Machine.execShflx d a b s
  | .redadd d a => Sys2Proof.Machine.execRedadd d a s
  | .redmin d a => Sys2Proof.Machine.execRedmin d a s
  | .redmax d a => Sys2Proof.Machine.execRedmax d a s
  | .redfadd d a => Sys2Proof.Machine.execRedfadd d a s
  | .scanadd d a => Sys2Proof.Machine.execScanadd d a s
  | .scanfadd d a => Sys2Proof.Machine.execScanfadd d a s
  | .cats d a b => Sys2Proof.Machine.execCats d a b s
  | .elect d a => Sys2Proof.Machine.execElect d a s
  | .rng d a b => Sys2Proof.Machine.execRng d a b s
  | .rngf d a b => Sys2Proof.Machine.execRngf d a b s
  | .bra off => Sys2Proof.Machine.execBra off s
  | .bru neg p off => Sys2Proof.Machine.execBru neg p off s
  | .brx neg p off => Sys2Proof.Machine.execBrx neg p off s
  | .jmpv a => Sys2Proof.Machine.execJmpv a s
  | .callv d a => Sys2Proof.Machine.execCallv d a s
  | .ret a => Sys2Proof.Machine.execRet a s
  | .bar d a f b => Sys2Proof.Machine.execBar d a f b s
  | .arrive d a b => Sys2Proof.Machine.execArrive d a b s
  | .waitb d a b => Sys2Proof.Machine.execWaitb d a b s
  | .gbar d a b => Sys2Proof.Machine.execGbar d a b s
  | .fenceAcq sc => Sys2Proof.Machine.execFenceAcq sc s
  | .fenceRel sc => Sys2Proof.Machine.execFenceRel sc s
  | .fenceAr sc => Sys2Proof.Machine.execFenceAr sc s
  | .phase sc => Sys2Proof.Machine.execPhase sc s
  | .xfence a sc => Sys2Proof.Machine.execXfence a sc s
  | .redflush => Sys2Proof.Machine.execRedflush s
  | .exit n => Sys2Proof.Machine.execExit n s
  | .ldg la d a sz os x => Sys2Proof.Machine.execLdg la d a sz os x s
  | .ldgi la d a sz x => Sys2Proof.Machine.execLdgi la d a sz x s
  | .stg d a sz os x => Sys2Proof.Machine.execStg d a sz os x s
  | .lds la d a sz x => Sys2Proof.Machine.execLds la d a sz x s
  | .ldsWfull la d a sz x => Sys2Proof.Machine.execLdsWfull la d a sz x s
  | .ldsWfullEmpty la d a sz x => Sys2Proof.Machine.execLdsWfullEmpty la d a sz x s
  | .ldsTag la d a x => Sys2Proof.Machine.execLdsTag la d a x s
  | .sts d a sz x => Sys2Proof.Machine.execSts d a sz x s
  | .stsWefull d a sz x => Sys2Proof.Machine.execStsWefull d a sz x s
  | .stsSfull d a sz x => Sys2Proof.Machine.execStsSfull d a sz x s
  | .stsSempty a sz x => Sys2Proof.Machine.execStsSempty a sz x s
  | .ldp la d a sz x => Sys2Proof.Machine.execLdp la d a sz x s
  | .stp d a sz x => Sys2Proof.Machine.execStp d a sz x s
  | .ldk la d a sz x => Sys2Proof.Machine.execLdk la d a sz x s
  | .atomAdd la d a b oss s8 t => Sys2Proof.Machine.execAtomAdd la d a b oss s8 t s
  | .atomAnd la d a b oss s8 t => Sys2Proof.Machine.execAtomAnd la d a b oss s8 t s
  | .atomOr la d a b oss s8 t => Sys2Proof.Machine.execAtomOr la d a b oss s8 t s
  | .atomXor la d a b oss s8 t => Sys2Proof.Machine.execAtomXor la d a b oss s8 t s
  | .atomMins la d a b oss s8 t => Sys2Proof.Machine.execAtomMins la d a b oss s8 t s
  | .atomMaxs la d a b oss s8 t => Sys2Proof.Machine.execAtomMaxs la d a b oss s8 t s
  | .atomMinn la d a b oss s8 t => Sys2Proof.Machine.execAtomMinn la d a b oss s8 t s
  | .atomMaxn la d a b oss s8 t => Sys2Proof.Machine.execAtomMaxn la d a b oss s8 t s
  | .atomExch la d a b oss s8 t => Sys2Proof.Machine.execAtomExch la d a b oss s8 t s
  | .atomFadd la d a b oss t => Sys2Proof.Machine.execAtomFadd la d a b oss t s
  | .atomBfadd2 la d a b oss t => Sys2Proof.Machine.execAtomBfadd2 la d a b oss t s
  | .atomMaxa la d a b oss t => Sys2Proof.Machine.execAtomMaxa la d a b oss t s
  | .atomCas la d a b oss osf s8 t cmp => Sys2Proof.Machine.execAtomCas la d a b oss osf s8 t cmp s
  | .redAdd os s8 a b => Sys2Proof.Machine.execRedAdd os s8 a b s
  | .redAnd os s8 a b => Sys2Proof.Machine.execRedAnd os s8 a b s
  | .redOr os s8 a b => Sys2Proof.Machine.execRedOr os s8 a b s
  | .redXor os s8 a b => Sys2Proof.Machine.execRedXor os s8 a b s
  | .redMins os s8 a b => Sys2Proof.Machine.execRedMins os s8 a b s
  | .redMaxs os s8 a b => Sys2Proof.Machine.execRedMaxs os s8 a b s
  | .redMinn os s8 a b => Sys2Proof.Machine.execRedMinn os s8 a b s
  | .redMaxn os s8 a b => Sys2Proof.Machine.execRedMaxn os s8 a b s
  | .redFadd os a b => Sys2Proof.Machine.execRedFadd os a b s
  | .redBfadd2 os a b => Sys2Proof.Machine.execRedBfadd2 os a b s
  | .redMaxa os a b => Sys2Proof.Machine.execRedMaxa os a b s
  | .tcopyTile tid cs off xpose exp24 tok => Sys2Proof.Machine.execTcopyTile tid cs off xpose exp24 tok s
  | .tcopyStore tid cs off xpose exp24 tok => Sys2Proof.Machine.execTcopyStore tid cs off xpose exp24 tok s
  | .tcopyWin tid cs off xpose exp24 tok => Sys2Proof.Machine.execTcopyWin tid cs off xpose exp24 tok s
  | .tcopyGather tid cs off xpose exp24 tok gtid => Sys2Proof.Machine.execTcopyGather tid cs off xpose exp24 tok gtid s
  | .tcopyPf tid cs xpose exp24 tok => Sys2Proof.Machine.execTcopyPf tid cs xpose exp24 tok s
  | .tidset scr a t => Sys2Proof.Machine.execTidset scr a t s
  | .tidinv t => Sys2Proof.Machine.execTidinv t s
  | .tidq d wi t => Sys2Proof.Machine.execTidq d wi t s
  | .qpush q a => Sys2Proof.Machine.execQpush q a s
  | .qpop d q p => Sys2Proof.Machine.execQpop d q p s
  | .qtry d q p => Sys2Proof.Machine.execQtry d q p s
  | .qcnt d q => Sys2Proof.Machine.execQcnt d q s
  | .ares d => Sys2Proof.Machine.execAres d s
  | .arel => Sys2Proof.Machine.execArel s
  | .tunLdw tid cs tok bank t5 => Sys2Proof.Machine.execTunLdw tid cs tok bank t5 s
  | .tunMm tid cs tok bank m1 row t5 acc => Sys2Proof.Machine.execTunMm tid cs tok bank m1 row t5 acc s
  | .tunGmm tid cs tok bank m1 row t5 acc tid2 => Sys2Proof.Machine.execTunGmm tid cs tok bank m1 row t5 acc tid2 s
  | .tunDrn tid cs tok m1 row tid3 => Sys2Proof.Machine.execTunDrn tid cs tok m1 row tid3 s
  | .tunZero tok m1 row => Sys2Proof.Machine.execTunZero tok m1 row s
  | .tunBdiag tid cs tok bank m1 row acc => Sys2Proof.Machine.execTunBdiag tid cs tok bank m1 row acc s
  | .trace tid a mask flags tag => Sys2Proof.Machine.execTrace tid a mask flags tag s
  | .tracev tid a mask flags tag => Sys2Proof.Machine.execTracev tid a mask flags tag s
  | .tracerc tid a mask flags tag => Sys2Proof.Machine.execTracerc tid a mask flags tag s
  | .ltwalk tid a tag => Sys2Proof.Machine.execLtwalk tid a tag s
  | .rsvUpd d a b => Sys2Proof.Machine.execRsvUpd d a b s
  | .rsvMrg d a b => Sys2Proof.Machine.execRsvMrg d a b s
  | .rsvNrm d b => Sys2Proof.Machine.execRsvNrm d b s
  | .rsvClr d => Sys2Proof.Machine.execRsvClr d s
  | .rsvLd la d a os => Sys2Proof.Machine.execRsvLd la d a os s
  | .rsvSt d a os => Sys2Proof.Machine.execRsvSt d a os s
  | .smp la d a tid filt aniso grad wrap => Sys2Proof.Machine.execSmp la d a tid filt aniso grad wrap s
  | .sparge tid ar tok => Sys2Proof.Machine.execSparge tid ar tok s
  | .grist tid ar tok => Sys2Proof.Machine.execGrist tid ar tok s
  | .coll tid ar tok kind fn => Sys2Proof.Machine.execColl tid ar tok kind fn s
  | .launch slot ar tok => Sys2Proof.Machine.execLaunch slot ar tok s
  | .ordenter d => Sys2Proof.Machine.execOrdenter d s
  | .ordleave => Sys2Proof.Machine.execOrdleave s

end Sys2Proof.Machine
end

