-- ==== Sys2Proof/Machine/Events.lean ====
section
/-!
DEFINITION.  The events that the machine may take of itself in a state: waits that are over, stores on their way, engines
with work, the dispatcher, the display engines, the units of die C.

What comes from outside (a host's access, a register write, a link's state, a sample, an error, a reset) comes only by the
agenda (log entry 1).
-/

namespace Sys2Proof.Machine

/-- A list, where a condition holds. -/
def when (b : Bool) (l : List Instr) : List Instr := if b then l else []

/-- What each element of a list and its place give, joined. -/
def eachAt {α : Type} (f : Nat → α → List Instr) (l : List α) : List Instr := (mapFrom f 0 l).flatten

/-- The end of a group's wait, where what it waits for has come (R137, R174, R193, R259, R290, R295, R310, R311). -/
def Group.holdEvents (g : Group) (k : Nat) : List Instr :=
  match g.hold with
  | .none => []
  | .icinv _ _ => when (!g.unacked .pkg) [.icinvDone k]
  | .tlbinv _ => when (!g.unacked .pkg) [.tlbinvDone k]
  | .tidset _ _ _ => [.tidsetDone k]
  | .xfence src dst sc => when (!g.fenceWaits src dst sc) [.xfenceDone k]
  | .phase sc => when (!g.unacked sc) [.phaseDone k]
  | .redflush => when (g.redsOut == 0) [.redflushDone k]
  | .fenceAcq _ => when g.hostOps.isEmpty [.fenceAcqDone k]
  | .hostAtomic => [.hostAtomicCompletion k true]
  | .passed _ _ _ => []

/-- The next event of each request of a group's store buffer; a request is sent, or a later one is merged into it (R280,
R307). -/
def State.storeEvents (s : State) (k : Nat) (g : Group) : List Instr :=
  eachAt (fun j (r : Request) =>
    let key := ((r.cells.head?).map Prod.fst).getD 0
    when (s.maySend k j || (g.joiner j).isSome) [Instr.storeRequestSend k j]
      ++ when (s.mayApply k j && s.wayTo k key r.plane) [.sliceApply k j .none]
      ++ when (r.applied.isSome && !r.acked && s.wayBack k key r.plane && !s.ackOvertakes k r) [.writeAck k j]) g.stores

/-- The events of a group that is there to run. -/
def State.groupEvents (s : State) (k : Nat) (g : Group) : List Instr :=
  if !s.groupRuns k then []
  else
    let now := s.clockOf k
    g.holdEvents k ++ s.storeEvents k g
      ++ when (s.parkDue k) [.blockPark k]
      ++ when (decide (4 ≤ g.spin.count)) [.spinPark k]
      ++ when (g.sleepTo != 0 && decide (g.sleepTo ≤ now)) [.sleepEnd k]
      ++ when (g.mayEnter && !(s.team g.team).halted) [.trapEntry k]
      ++ eachAt (fun i (l : Lane) => when (l.st == .parked && decide (l.parkedAt + 4096 ≤ now)) [.parkTimeoutWake k i]) g.lanes
      ++ (s.parkedOut k).map (Instr.parkLimit k)
      ++ eachAt (fun j _ => [Instr.lookaheadResult k j]) g.looks
      ++ when (g.rays.any (fun r => r.queue == 0)) [.rayRequest k 0]
      ++ when (g.rays.any (fun r => r.queue == 2)) [.rayRequest k 2]
      ++ when (g.rays.any (fun r => r.queue == 4)) [.lightWalk k]
      ++ when (!(s.overdue k).isEmpty) [.ordTimeout k]
      ++ when (s.mayRetire k) [.groupRetire k]

/-- The events of a team (R269, R273, R292, R369). -/
def State.teamEvents (s : State) (k : Nat) (t : Team) : List Instr :=
  when (!t.callable && (t.dead || (s.exec t.exec).fenced)) [.fatalTrap k]
    ++ when (s.maySave k) [.contextSaveDone k]
    ++ when (s.mustSpill k && s.toSpill k) [.stagingSpill k]
    ++ when (s.runs k && t.tmoff.isSome && decide (t.batch < t.batches) && (s.retiredPlace k).isSome) [.fragmentGroupStart k]

/-- The events of a command of a Tun (R199, R205, R206). -/
def State.tunEvents (s : State) (k : Nat) (t : Tun) : List Instr :=
  eachAt (fun j (c : Cmd) =>
    let gone := (ffind s.teams c.team).isNone || (s.team c.team).dead
    when (t.mayStart j && s.runs c.team) [Instr.tunCommandStart k j]
      ++ when (gone || (c.started && s.tunGoesOn c)) [.tunCommandComplete k j]
      ++ when (c.overWait (s.cycle (coreDie k)) && s.runs c.team) [.tunTagWaitLimit k j]) t.queue
    ++ when (t.leaving.isSome && t.queue.isEmpty) [.arrayRelease k]
    ++ when (t.clearTo.any (fun c => decide (c ≤ s.cycle (coreDie k)))) [.arrayClear k]
    ++ when (t.heldTo.any (fun c => decide (c ≤ s.cycle (coreDie k)))) [.arrayHoldExpire k]

/-- The events of a core: its copy engine, its Tun, its reduction buffers, a change of its split (R185, R288, R349). -/
def State.coreEvents (s : State) (k : Nat) (c : Core) : List Instr :=
  when (c.copies.any (fun d => !d.started)) [.copyStart k]
    ++ eachAt (fun j (d : Cmd) => when d.started [Instr.copyComplete k j]) c.copies
    ++ s.tunEvents k c.tun
    ++ eachAt (fun j _ => when (s.redReady k j) [Instr.reductionDrain k j true]) c.reds
    ++ when (c.drain.isSome && (s.resident k).isEmpty) [.coreSplitChange k]

/-- The events of an execution: its batches, its binning, its package barriers (R291, R366, R424). -/
def State.execEvents (s : State) (k : Nat) (e : Exec) : List Instr :=
  when (!e.batches.isEmpty) [.ticketBatchApply k true]
    ++ when (e.raster.isSome && !s.dieDown (s.upDie e.home)) [.rasterBinning k]
    ++ e.gbars.flatMap (fun b => when (b.2.overdue s.dieA.cycle) [.gbarTimeout k b.1])

/-- What the dispatcher would do on seeing a slot's REQSEQ (R341). -/
def State.notices (s : State) (k : Nat) : Bool :=
  let d := (s.slotWord k offReq - s.slotWord k offAck).toNat
  if 2 ^ 20 < d then !fget false s.dieC.stalled k
  else fget false s.dieC.stalled k || (decide (1 ≤ d) && s.slotValid k) || s.slotWord k offState != s.stateOf k

/-- The dispatcher's events at the slots it watches (R341, R342). -/
def State.slotEvents (s : State) : List Instr :=
  if !s.dispatches then []
  else (List.range s.dieC.slotCount).flatMap (fun k =>
    if !s.slotThere k then [.reqseqNotify k]
    else when (s.notices k) [Instr.reqseqNotify k] ++ when (s.mayStart k) [.executionStart k])

/-- The dispatcher's events on a die: a placement, a resumption, a request to halt (R349, R350). -/
def State.placeEvents (s : State) (d : Nat) : List Instr :=
  if s.dieDown d || (s.waiting d).isEmpty then []
  else match s.firstFit d with
    | some (w, c) => match w.saved with
      | some t => [.teamResume t c]
      | none => [.teamPlace d]
    | none => match s.victim d with
      | some t => [.haltRequest t]
      | none => [.teamPlace d]

/-- The events of a die's heads (R376, R378, R379). -/
def State.headEvents (s : State) (d : Nat) : List Instr :=
  let x := (s.die d).display
  (List.range 3).flatMap (fun n =>
    let h := x.head n
    when (h.running && !x.lineWaits n) [Instr.scanoutLine d n]
      ++ when (decide (n < 2) && h.running && h.training && !h.up && h.fits) [.headLinkTrained d n])
    ++ when x.owed.isSome [.head2FrameRelease d]

/-- The events of a die's Kiln (R384 to R396). -/
def State.kilnEvents (s : State) (d : Nat) : List Instr :=
  let x := (s.die d).display
  when x.latchDue [.kilnLatch d] ++ when (x.run && x.reading.isSome) [.programValidated d]
    ++ when x.nextNet.isSome [.bandStart d] ++ when (x.run && x.frames.any KFrame.working) [.bandNetworkDone d]
    ++ when (x.deadlineAt.any (fun f => f.fall == 0)) [.networkDeadline d]
    ++ when (x.run && x.frames.any (fun f => f.fall == 1)) [.reprojectionDone d]
    ++ when (x.run && x.frames.any (fun f => f.fall == 2)) [.repeatDone d]
    ++ when x.underAt.isSome [.bandUnderrun d]
    ++ when (x.run && x.source.any (fun y => x.estimates y && decide (y.blocks < blocksIn y.entry))) [.motionBlockDone d]

/-- The events of a compute die: its reset and its self-test, its clock, its sorter, its display engine (R372, R421, R448,
R450); which cores fail the self-test is free. -/
def State.dieEvents (s : State) (d : Nat) : List Instr :=
  let x := s.die d
  when (x.state == 3 && x.domain != 2) [.coreResetDone d]
    ++ when (x.state == 3 && x.domain == 2) [.uncoreResetDone d]
    ++ when (x.testing && x.state == 0 && (s.testTeams d).isEmpty) [.selfTest d s.choice]
    ++ when (if s.throttles d then decide (1880 < x.clock) else decide (x.clock < 3760)) [.throttleStep d]
    ++ (match x.grist with
        | [] => []
        | c :: _ => if c.started || !s.lives c.team then [.gristComplete d] else [.gristStart d])
    ++ s.placeEvents d
    ++ when (s.displays d) (s.headEvents d ++ s.kilnEvents d)

/-- The events of a Sparge engine (R361). -/
def State.spargeEvents (s : State) (k : Nat) (x : Sparge) : List Instr :=
  match x.queue with
  | [] => []
  | c :: _ => if c.started || !s.lives c.team then [.spargeComplete k]
    else when (s.dieC.rsPhase != 1 && s.spargeSees c && !s.dieDown (k / 16)) [.spargeStart k]

/-- The events of a communicator (R430, R431). -/
def State.commEvents (s : State) (n : Nat) (x : Comm) : List Instr :=
  let own := s.dieC.ownRank x.reg
  match x.cmds with
  | [] => when (!x.parts.isEmpty && (s.missing x).isSome) [.collTimeout n]
  | c :: _ =>
    when (!x.joined own && s.collLives c) [.collContribution n own 0 0 0 0 0 []]
      ++ when (if s.collLives c then (List.range (commRanks x.reg)).all x.joined else true) [.collOperationComplete n]
      ++ when (s.missing x).isSome [.collTimeout n]

/-- The events of a port: an interrupt that is owed, a mailbox command (R438, R444). -/
def State.portEvents (s : State) (p : Nat) : List Instr :=
  when (s.port p).owed [.msixInterrupt p] 
    ++ when ((s.port p).busy && ((s.port p).mbcmd != 3 || s.dieC.extending.head? == some p)) [.mailboxDone p]

/-- The events of die C. -/
def State.centreEvents (s : State) : List Instr :=
  when s.dieC.booting [.packageReset false s.dieC.bootstat]
    ++ s.dieC.launches.map (fun c => .launchReqseqAdd c.id)
    ++ when (s.dieC.rsPhase == 1) [.reservoirFillDone]
    ++ when ((s.dieC.rsPhase == 3 || s.dieC.rsPhase == 4) && !s.rsBusy) [.reservoirWritebackDone]
    ++ when (s.dieC.flcmd != 0) [.flashCommandDone true, .flashCommandDone false]
    ++ s.dieC.comms.flatMap (fun e => s.commEvents e.1 e.2)
    ++ s.portEvents 0 ++ s.portEvents 1

/-- The events of the links (R327). -/
def State.linkEvents (s : State) : List Instr :=
  s.links.flatMap (fun e =>
    if e.2.training then [.linkRetrainDone e.1 true, .linkRetrainDone e.1 false]
    else when (decide (16 ≤ e.2.failed)) [.linkRetrain e.1])

/-- The events that the machine may take of itself. -/
def State.events (s : State) : List Instr :=
  s.groups.flatMap (fun e => s.groupEvents e.1 e.2) ++ s.teams.flatMap (fun e => s.teamEvents e.1 e.2)
    ++ s.cores.flatMap (fun e => s.coreEvents e.1 e.2) ++ s.execs.flatMap (fun e => s.execEvents e.1 e.2)
    ++ s.slotEvents ++ s.dieEvents 0 ++ s.dieEvents 1
    ++ s.sparges.flatMap (fun e => s.spargeEvents e.1 e.2) ++ s.centreEvents ++ s.linkEvents

end Sys2Proof.Machine
end

