-- ==== Sys2Proof/Machine/Schedule.lean ====
section
/-!
DEFINITION.  The turns of the machine: which groups may issue and which events may happen, the passing of time, and one
turn (R22, R249, R250; log entry 1).

The meaning of an instruction is an argument here; `step` gives `exec`.
-/

namespace Sys2Proof.Machine

noncomputable section

/-- The turns that the machine may take now. -/
def State.turns (s : State) : List Turn := s.issuers.map Turn.issue ++ s.events.map Turn.event

/-- Time passes on both dies: one cycle, and as many more as the pace says (R251; log entry 1). -/
def State.tock (s : State) : State :=
  let p := (s.pace.head?).getD (0, 0)
  { s with
    tick := s.tick + 1
    pace := s.pace.tail
    dieA := { s.dieA with cycle := s.dieA.cycle + 1 + p.1 }
    dieB := { s.dieB with cycle := s.dieB.cycle + 1 + p.2 } }

/-- One turn. -/
def State.turn (ex : Instr → State → Answer) (s : State) : Turn → Answer
  | .issue k => if s.ready k then s.issueGroup ex k else .next s
  | .event i => if i.pipe.isNone then ex i s else .next s

/-- The turn that comes next: the agenda's first; else one of those the machine may take, freely; none where it is idle. -/
def State.nextTurn (s : State) : Option Turn × State :=
  match s.agenda with
  | t :: ts => (some t, { s with agenda := ts })
  | [] => match s.turns with
    | [] => (none, s)
    | [t] => (some t, s)
    | t :: ts => (some (nth t (t :: ts) (s.choice % (ts.length + 1))), s.spent)

/-- A step's answer after its turn: time passes. -/
def afterTurn : Answer → Answer
  | .next t => .next t.tock
  | .fault f => .fault f
  | .refused r => .refused r

/-- One step: the next turn is taken, and time passes. -/
def stepWith (ex : Instr → State → Answer) (s : State) : Answer :=
  match s.nextTurn with
  | (none, t) => .next t.tock
  | (some u, t) => afterTurn (t.turn ex u)

/-! ### A program placed from outside -/

/-- The physical address of the page that a placed program lies in, on die A. -/
def placedPage : Nat := 0x100000
/-- The page table of a placed program: four tables on die A, each with its first entry, and a leaf of 64 KiB. -/
def placedTables : List Host.Cell :=
  let entry := fun (at_ pa kind : Nat) => cellsOf at_ (pa / 4096 * 2 ^ 24 + kind) 8
  entry 0x10000 0x12000 0x01 ++ entry 0x12000 0x14000 0x01 ++ entry 0x14000 0x16000 0x01 ++ entry 0x16000 placedPage 0xBF

/-- The record of a placed program: code of one packet at address 0, width 8, one lane group of 8, class 0 (R339). -/
def placedRecord : List Word :=
  (List.range 64).map (fun i => if i = 2 then 12 else if i = 5 then 0x01000008 else if i = 6 then 0x00800000
    else if i = 7 then 1 else 0)

/-- The state with an execution of slot 0, its one team and its group resident on core 0 of die A, and the words of a
program in the memory that its code segment maps, on a network where no link trains (log entry 2). -/
def State.place (s : State) (words : List Word) : State :=
  let ek := s.nextKey
  let tk := s.nextKey + 1
  let cells := placedTables ++ mapFrom (fun j (b : Byte) => (placedPage + j, b)) 0 (words.flatMap bytesOfWord)
  let e : Exec := { Exec.blank with num := 1, record := placedRecord, total := 1, teams := [tk], ran := [tk] }
  let s1 := { s.poke cells with
    dieC := { s.dieC with asroot := fset 0 s.dieC.asroot 0 (BitVec.ofNat 64 (0x10000 / 4096 * 2 ^ 24 + 1)) }
    nextKey := s.nextKey + 2
    links := [] }
  let s2 := (s1.setExec ek e).setTeam tk (e.team ek 0 0)
  let s3 := s2.setGrp (groupKey tk 0) (e.group tk 0 ⟨0, 0, 0, 8, 128⟩ 0 8 0)
  { s3 with agenda := [.issue (groupKey tk 0)] }

end

end Sys2Proof.Machine
end

