-- ==== Sys2Proof/Machine/Step.lean ====
section
/-!
DEFINITION.  The step of the machine, and the placing of one instruction where it fetches.
-/

namespace Sys2Proof.Machine

noncomputable section

/-- One step: a turn of the machine, with the meanings of `exec`. -/
def step (s : State) : Answer := stepWith exec s

/-- The state with an instruction stored where the next step fetches: in memory, at packet 0 of the code segment of a
resident group whose turn it is (log entry 2). -/
def State.withFetchWord (s : State) (nbits w : Nat) : State := s.place (tableWords nbits w)

end

end Sys2Proof.Machine
end

