-- ==== Sys2Proof/Safety.lean ====
section
/-!
DEFINITION.  What a safe state is, and the terms that claims about instructions are stated in: what a result is, and what
an instruction leaves alone.
-/

namespace Sys2Proof.Machine

/-- Memory keeps its canonical form. -/
def State.Safe (s : State) : Prop := Memory.wf s.mem = true

/-- Nothing differs but the group of the unit and the causes kept for the unit's end: no other group, no byte of memory, no
team, core, execution, die or engine. -/
structure OnlyGroup (s t : State) : Prop where
  others : ∀ j, j ≠ s.unit.g → t.grp j = s.grp j
  memory : ∀ a, t.byteAt a = s.byteAt a
  rest : t = { s with groups := t.groups, unit := { s.unit with after := t.unit.after } }

/-- A vector instruction has given its results: in each ACTIVE lane `i`, registers `d` … `d + n − 1` receive `f i 0` …
`f i (n − 1)`, at once where LA is 0 and otherwise as the results on their way are written (R43, R85), and the flags `fl i`
are raised (R79, R80).  `flushLooks` gives what registers and flags hold once the results on their way are written.  All
else of the group stays but what reading a token's scalar notes. -/
structure LaneResult (s t : State) (la d n : Nat) (f : Nat → Nat → Word) (fl : Nat → Flags) : Prop where
  written : ∀ i ∈ s.acts, ∀ k, k < n →
    t.me.flushLooks.getV i (d + k) = f i k ∧ t.me.flushLooks.vPoison i (d + k) = false
  kept : ∀ i r, r < 128 → ¬(i ∈ s.acts ∧ d ≤ r ∧ r < d + n) →
    t.me.flushLooks.getV i r = s.me.flushLooks.getV i r ∧ t.me.flushLooks.vPoison i r = s.me.flushLooks.vPoison i r
  flags : t.me.flushLooks.csr.flags = s.me.flushLooks.csr.flags ||| orFlags fl s.acts
  now : la = 0 →
    (∀ i ∈ s.acts, ∀ k, k < n → t.me.getV i (d + k) = f i k) ∧
    (∀ i r, r < 128 → ¬(i ∈ s.acts ∧ d ≤ r ∧ r < d + n) → t.me.getV i r = s.me.getV i r) ∧
    t.me.csr.flags = s.me.csr.flags ||| orFlags fl s.acts
  later : la ≠ 0 → t.me.v = s.me.v ∧ t.me.vp = s.me.vp ∧ t.me.csr = s.me.csr
  group : t.me = { s.me with
    v := t.me.v, vp := t.me.vp, looks := t.me.looks, csr := { s.me.csr with flags := t.me.csr.flags }
    unread := t.me.unread, learnt := t.me.learnt, toldRsvs := t.me.toldRsvs }
  after : t.unit.after = (s.fpTrap fl).unit.after
  only : OnlyGroup s t

/-- `exec` completes an instruction with the results of `LaneResult`. -/
def Gives (i : Instr) (s : State) (la d n : Nat) (f : Nat → Nat → Word) (fl : Nat → Flags) : Prop :=
  ∃ t, exec i s = .next t ∧ LaneResult s t la d n f fl

/-- The same for one word in each lane and no flag. -/
def GivesWord (i : Instr) (s : State) (d : Reg) (f : Nat → Word) : Prop := Gives i s 0 d.toNat 1 (fun j _ => f j) (fun _ => 0)

/-- `exec` completes an instruction that writes predicate `p` of each ACTIVE lane (a write to p7 is discarded, R9) and
raises the flags `fl` at once (R79, R80); nothing else changes but what reading a token's scalar notes. -/
def GivesPred (i : Instr) (s : State) (p : Nat) (f : Nat → Bool) (fl : Nat → Flags) : Prop :=
  ∃ t, exec i s = .next t ∧
    (∀ j ∈ s.acts, p ≠ 7 → t.me.getP j p = f j) ∧
    (∀ j q, q < 8 → ¬(j ∈ s.acts ∧ q = p) → t.me.getP j q = s.me.getP j q) ∧
    t.me.csr.flags = s.me.csr.flags ||| orFlags fl s.acts ∧
    t.me = { s.me with
      p := t.me.p, csr := { s.me.csr with flags := t.me.csr.flags }
      unread := t.me.unread, learnt := t.me.learnt, toldRsvs := t.me.toldRsvs } ∧
    t.unit.after = (s.fpTrap fl).unit.after ∧
    OnlyGroup s t

/-- `exec` completes an instruction that writes the scalars `d` … `d + n − 1` (a write to s127 is discarded, R12); nothing
else changes but what reading a token's scalar notes. -/
def GivesScalar (i : Instr) (s : State) (d n : Nat) (f : Nat → Word) : Prop :=
  ∃ t, exec i s = .next t ∧
    (∀ k, k < n → d + k ≠ 127 → t.me.getS (d + k) = f k ∧ t.me.sPoison (d + k) = false) ∧
    (∀ r, ¬(d ≤ r ∧ r < d + n) → t.me.getS r = s.me.getS r ∧ t.me.sPoison r = s.me.sPoison r) ∧
    t.me = { s.me with
      s := t.me.s, sp := t.me.sp, unread := t.me.unread, learnt := t.me.learnt, toldRsvs := t.me.toldRsvs } ∧
    OnlyGroup s t

/-- Group `g` with what group `h` knows of completed commands: reading a scalar that a token was delivered to may add to
it (R193). -/
def Group.knows (g h : Group) : Group := { g with unread := h.unread, learnt := h.learnt, toldRsvs := h.toldRsvs }

/-- Nothing differs but the group of the unit and the account of the unit. -/
structure GroupAlone (s t : State) : Prop where
  others : ∀ j, j ≠ s.unit.g → t.grp j = s.grp j
  memory : ∀ a, t.byteAt a = s.byteAt a
  rest : t = { s with groups := t.groups, unit := t.unit }
  mine : t.unit.g = s.unit.g

/-- `exec` completes a transfer of control: each ACTIVE lane `j` stands at `dest j`, every other lane as before (R127). -/
def Moves (i : Instr) (s : State) (dest : Nat → Word) (divv : Bool) (after : List Cause) : Prop :=
  ∃ t, exec i s = .next t ∧ GroupAlone s t ∧ t.unit = { s.unit with moved := true, after := after } ∧
    (∀ j, j < s.me.lanes.length →
      t.me.lane j = if s.unit.mask.getLsbD j then { s.me.lane j with lpc := dest j } else s.me.lane j) ∧
    t.me = { s.me with lanes := t.me.lanes, csr := { s.me.csr with divv := divv } }

/-- `exec` completes an instruction that changes the group to `g` (but for what it knows) and nothing else. -/
def MakesGroup (i : Instr) (s : State) (g : Group) : Prop :=
  ∃ t, exec i s = .next t ∧ t.me = g.knows t.me ∧ OnlyGroup s t ∧ t.unit = s.unit

/-- The registers of the unit's group are all as before: vectors, predicates, scalars, marks, control registers, segments and
queues, and the results on their way. -/
structure RegsKept (s t : State) : Prop where
  vectors : t.me.v = s.me.v
  marks : t.me.vp = s.me.vp
  preds : t.me.p = s.me.p
  scalars : t.me.s = s.me.s
  smarks : t.me.sp = s.me.sp
  csr : t.me.csr = s.me.csr
  seg : t.me.seg = s.me.seg
  queues : t.me.queues = s.me.queues
  looks : t.me.looks = s.me.looks

/-- A load, or another instruction that gives words with poison marks, has given them: as `LaneResult`, `f i k` being the
`k`-th word of lane `i` and its mark; predicates, scalars, segments and queues are as before. -/
structure LoadResult (s t : State) (la d n : Nat) (f : Nat → Nat → Word × Bool) : Prop where
  written : ∀ i ∈ s.acts, ∀ k, k < n →
    t.me.flushLooks.getV i (d + k) = (f i k).1 ∧ t.me.flushLooks.vPoison i (d + k) = (f i k).2
  kept : ∀ i r, r < 128 → ¬(i ∈ s.acts ∧ d ≤ r ∧ r < d + n) →
    t.me.flushLooks.getV i r = s.me.flushLooks.getV i r ∧ t.me.flushLooks.vPoison i r = s.me.flushLooks.vPoison i r
  now : la = 0 → ∀ i r, r < 128 →
    (¬(i ∈ s.acts ∧ d ≤ r ∧ r < d + n) → t.me.getV i r = s.me.getV i r ∧ t.me.vPoison i r = s.me.vPoison i r) ∧
    (∀ k, i ∈ s.acts → k < n → r = d + k → t.me.getV i r = (f i k).1 ∧ t.me.vPoison i r = (f i k).2)
  later : la ≠ 0 → t.me.v = s.me.v ∧ t.me.vp = s.me.vp
  preds : t.me.p = s.me.p
  scalars : t.me.s = s.me.s
  smarks : t.me.sp = s.me.sp
  seg : t.me.seg = s.me.seg
  queues : t.me.queues = s.me.queues

/-- `exec` completes an instruction of the group alone that changes none of its registers. -/
def Keeps (i : Instr) (s : State) (P : State → Prop) : Prop := ∃ t, exec i s = .next t ∧ RegsKept s t ∧ P t

/-- The bytes of memory are as before outside `n` bytes from a key. -/
def MemoryBut (s t : State) (key n : Nat) : Prop := ∀ b, (b < key ∨ key + n ≤ b) → t.byteAt b = s.byteAt b

/-- The operands of a bulk command let it issue: as `State.clear`, with the command's own checks and its token (R45). -/
def State.bulkClear (s : State) (scalars : List (Nat × Nat)) (chk : Option Cause) (tok : Reg) : Bool :=
  s.clear (scalarNeed scalars []) (fun t i => if i = t.lead then firstSome [chk, t.tokenBusy tok] else none)

/-- `exec` issues a command (R45): the token's scalar is pending, one more command of the group has not completed, and what
`P` says of the engine holds; no register, other group or byte of memory changes. -/
def Issues (i : Instr) (s : State) (tok : Reg) (P : State → Prop) : Prop :=
  ∃ t, exec i s = .next t ∧ t.unit = { s.unit with effect := true } ∧ (∀ a, t.byteAt a = s.byteAt a) ∧
    (∀ j, j ≠ s.unit.g → t.grp j = s.grp j) ∧
    t.me = Group.knows { s.me with
      tok := if tok.toNat = 127 then s.me.tok else fset false s.me.tok tok.toNat true, cmds := s.me.cmds + 1 } t.me ∧
    P t

/-- The words of the packet at an address and the state once they are there: from the group's buffer, or fetched (R136);
none where the fetch fails or waits for its way. -/
noncomputable def State.fetched (s : State) (k : Nat) (a : Word) : Option (State × List Word) :=
  match (s.grp k).ibuf.find? (fun e => e.1 == pktOf a) with
  | some e => some (s, e.2)
  | none => if !s.packetOpen k (pktOf a) then none else match s.fetch k (pktOf a) with
    | .words ws => some (s.refill k (pktOf a) ws, ws.map (fun e => e.1))
    | .fails _ _ _ => none

/-- The state in which `exec` runs the one instruction of `n` words, first word `w`, at the issue address `a` of group `k`:
due lookahead results are written, and the unit has begun for the lanes at the address (R15, R31, R43). -/
noncomputable def State.issuedUnit (s : State) (k : Nat) (a : Word) (n : Nat) (w : Word) : State :=
  let mask := (s.grp k).activeAt a
  let t := (s.onGrp k (fun g => g.flushDue mask 1)).begin k mask a (lpcAfter a n)
  { t with unit := { t.unit with addr := lpcAt (pktOf a) (slotOf a), word := w } }

/-- `exec` completes, with a next state of which `P` holds. -/
def Goes (i : Instr) (s : State) (P : State → Prop) : Prop := ∃ t, exec i s = .next t ∧ P t

/-- `exec` completes; group `k` has become `g` and nothing else has changed. -/
def TurnsGroup (i : Instr) (s : State) (k : Nat) (g : Group) : Prop :=
  Goes i s (fun t => t.grp k = g ∧ (∀ j, j ≠ k → t.grp j = s.grp j) ∧ t = { s with groups := t.groups })

/-- `exec` completes; compute die `d` (0, or any other number for the second) has become `x` and nothing else has changed. -/
def TurnsDie (i : Instr) (s : State) (d : Nat) (x : Die) : Prop :=
  Goes i s (fun t => t.die d = x ∧ (∀ e, (e = 0 ↔ d ≠ 0) → t.die e = s.die e) ∧ t = { s with dieA := t.dieA, dieB := t.dieB })

/-- `exec` completes; die C has become `x` and nothing else has changed. -/
def TurnsC (i : Instr) (s : State) (x : DieC) : Prop := exec i s = .next { s with dieC := x }

/-- What memory holds once the cells are written: at each key the last byte listed for it (R279). -/
def Wrote (s t : State) (cs : List Host.Cell) : Prop := ∀ a, t.byteAt a = (lastOf cs a).getD (s.byteAt a)

end Sys2Proof.Machine
end

