-- ==== Sys2Proof/Certificates/Slice0/Obligations.lean ====
section
/-!
DEFINITION.  The statements about the machine, each from numbered rules of the spec.

`s.clear need checks` holds where an instruction's operands let it take effect: no register beyond the group's budget
(R156), no pending token (R45), no poisoned source (R271), and none of its own checks failing.
-/

open Sys2Proof Sys2Proof.Machine

/-- After reset the registers that the spec gives a reset value hold it, and no execution, team or group exists (R338, R326,
R371, R449, R448, R421, R427, R428, R436, R438, R358, R375).
What unlisted memory reads as is the model's choice (log entry 5), and so is MODID's value (log entry 3). -/
def Obligations.ResetValues : Prop :=
  let s := State.reset
  s.groups = [] ∧ s.teams = [] ∧ s.execs = [] ∧ s.mem = [] ∧ (∀ a, s.byteAt a = Memory.unlisted) ∧
  s.dieC.dispctl = 0x10 ∧ s.dieC.slotbase = 0 ∧ s.dieC.pwrlim = 1600 ∧ s.dieC.rsctl = 0 ∧ s.dieC.rsdim = 0 ∧ s.dieC.rsbase = 0 ∧
  s.dieC.linka = false ∧ (∀ n, fget 0 s.dieC.sems n = 0) ∧ (∀ k, fget 0x1FF s.dieC.routes k = 0x1FF) ∧
  (∀ n, fget 0 s.dieC.asroot n = 0) ∧ (∀ j, s.dieC.linkctlRead j = 3) ∧ (∀ n, (s.comm n).reg = 0) ∧ s.dieC.modid = 0 ∧
  s.dieC.floff = 0 ∧ s.dieC.fllen = 0 ∧ s.dieC.flcmd = 0 ∧ s.dieC.flresult = 0 ∧
  (∀ p, (s.port p).hwctl = 0 ∧ (s.port p).hwbase = 0 ∧ (s.port p).evbase = 0 ∧ (s.port p).evctl = 0 ∧ (s.port p).hdrop = 0 ∧
    (s.port p).evseq = 0 ∧ (s.port p).mbcmd = 0 ∧ (s.port p).busy = false ∧ (s.port p).result = 0 ∧ (s.port p).len = 0) ∧
  (∀ d, (s.die d).state = 0 ∧ (s.die d).cause = 0 ∧ (s.die d).drops = 0 ∧ (s.die d).netarb = 0x0C40037F ∧
    (s.die d).ordwd = 20 ∧ (s.die d).tlim = 95 ∧ (s.die d).tmax = 0 ∧ (s.die d).cecount = 0 ∧ (s.die d).errseq = 0 ∧
    (s.die d).display = Display.off) ∧
  (∀ c, s.core c = Core.start)

/-- The state after reset is safe: its memory has the canonical form (R417, R454). -/
def Obligations.ResetIsSafe : Prop :=
  State.reset.Safe

/-- Every step from a safe state ends in a safe state: memory stays in its canonical form (R159, R276, R277, R300, R417). -/
def Obligations.StepKeepsMemoryForm : Prop :=
  ∀ s t : State, s.Safe → step s = .next t → t.Safe

/-- No step is refused, an encoded instruction always has a next state, and a step stops only for a dispatcher slot that no
memory holds (R32, R33, R47).
The fault noMemory, where SLOTBASE names no memory, is the model's choice (log entry 36). -/
def Obligations.StepsNeverRefuse : Prop :=
  (∀ (s : State) (r : Refusal), step s ≠ .refused r) ∧
  (∀ (s : State) (f : Fault), step s = .fault f → ∃ slot, f = .noMemory (s.slotKey slot) ∧ s.slotThere slot = false) ∧
  (∀ (i : Instr) (s : State), i.pipe.isSome = true → ∃ t, exec i s = .next t)

/-- A step of a group whose packet holds a well-formed instruction at its issue address is exec of that instruction (R10, R15,
R27, R28, R31, R33, R44).
When a fault of LA > 0 is reported is the model's reading of R44 (log entry 9). -/
def Obligations.StepRunsDecodedInstruction : Prop :=
  ∀ (s s1 : State) (k n : Nat) (ts : List Turn) (a : Word) (ws : List Word) (i : Instr),
    s.agenda = .issue k :: ts →
    let s0 := { s with agenda := ts }
    s0.ready k = true → (s0.grp k).issueAddr = some a → s0.fetched k a = some (s1, ws) →
    decodeWords (ws.drop (slotOf a)) = .ok ⟨i, false, n⟩ → i.pipe.isSome = true →
    let u := s1.issuedUnit k a n (nth 0 ws (slotOf a))
    u.me.deferred = false → u.myTeam.callable = false →
    let m : Member := ⟨i, nth 0 ws (slotOf a), lpcAt (pktOf a) (slotOf a)⟩
    (∀ f, exec i u = .fault f → step s = .fault f) ∧
    let c : Chain := ⟨[m], none, n⟩
    (∀ t, exec i u = .next t → t.unit.trapped = true → u.graceOf c [.next t] 0 t = 0 →
      step s = .next (({ t with fresh := u.fresh + freeStride * 4 }).noteTrap t).stampIssue.tock) ∧
    (∀ t t', exec i u = .next t → t.unit.trapped = true → u.graceOf c [.next t] 0 t ≠ 0 →
      exec i { u with unit := { u.unit with grace := u.graceOf c [.next t] 0 t } } = .next t' →
      t'.unit.trapped = false → t'.unit.blocked = false →
      step s = .next ((({ t'.onMe (fun g => g.countLooks t'.unit.mask (min u.me.looks.length g.looks.length)) with
        fresh := u.fresh + freeStride * 4 }).endUnit none [m]).noteTrap t).tock) ∧
    (∀ t, exec i u = .next t → t.unit.trapped = false → t.unit.blocked = true →
      step s = .next ({ t with fresh := u.fresh + freeStride * 4 }).stampIssue.tock) ∧
    (∀ t, exec i u = .next t → t.unit.trapped = false → t.unit.blocked = false → t.unit.mask = u.unit.mask →
      step s = .next (({ t.onMe (fun g => g.countLooks t.unit.mask (min u.me.looks.length g.looks.length)) with
        fresh := u.fresh + freeStride * 4 }).endUnit none [m]).tock)

/-- Decoding an encoded well-formed instruction gives it back, with its tie bit and its length (R28, R29, R34, R35, R46, R47). -/
def Obligations.DecodeOfEncode : Prop :=
  (∀ (i : Instr) (c : Bool) (ws rest : List Word), i.WellFormed → encode i c = some ws →
    decodeWords (ws ++ rest) = .ok ⟨i, c, ws.length⟩) ∧
  (∀ i : Instr, i.pipe.isSome = true → (encode i false).isSome = true)

/-- Words that the spec writes out decode to the instructions that it writes beside them (R28, R34, R46, R92, R94, R99, R255). -/
def Obligations.DecodingWords : Prop :=
  decodeWords [0x0A408082] = .ok ⟨.icmpLts 2 1 2, false, 1⟩ ∧
  decodeWords [0x26183C03] = .ok ⟨.shiShrs 6 7 3, false, 1⟩ ∧
  decodeWords [0x1B614082] = .ok ⟨.selS 3 5 1 2, false, 1⟩ ∧
  decodeWords [0x00200005] = .ok ⟨.trap 5, false, 1⟩ ∧
  decodeWords [0x00400000] = .ok ⟨.eret, false, 1⟩ ∧
  decodeWords [0x00A00203] = .ok ⟨.csrw 4 3, false, 1⟩ ∧
  decodeWords [0x00C00400] = .ok ⟨.segld 8 0, false, 1⟩ ∧
  decodeWords [0x00E0050C] = .ok ⟨.tlbinv 10 12, false, 1⟩ ∧
  decodeWords [0x01A0000A] = .ok ⟨.flagclr 10, false, 1⟩

/-- Entering a handled trap: HSET's lanes save their lpc and run at TVEC, the cause is recorded, and the mode is supervisor
(R262, R263, R264, R136).
That a lane of HSET which has EXITED stays EXITED is the model's reading of R263 (log entry 63). -/
def Obligations.TrapEntry : Prop :=
  ∀ (s : State) (k : Nat) (hs : Lanes) (c : Cause) (multi : Bool),
    let g := (s.grp k).flushLooks
    (s.grp k).csr.tvec ≠ 0 → (s.grp k).csr.sup = false → c.control = false →
    let t := s.enterTrap k hs c multi
    let h := t.grp k
    (∀ i, i < g.lanes.length → hs.getLsbD i = true → (g.lane i).st ≠ .exited →
      (h.lane i).slpc = (if (g.lane i).st = .barred then (g.lane i).bar.next else (g.lane i).lpc) ∧
      (h.lane i).lpc = g.csr.tvec ∧ (h.lane i).st = .run) ∧
    (∀ i, i < g.lanes.length → hs.getLsbD i = true → (g.lane i).st = .exited →
      h.lane i = { g.lane i with slpc := (g.lane i).lpc }) ∧
    (∀ i, hs.getLsbD i = false → h.lane i = g.lane i) ∧
    h.csr = { g.csr with
      sup := true, hset := hs, tcause := c.word multi, tval := c.tval, tvalh := c.tvalh
      tlane := BitVec.ofNat 11 c.lane, tfaddr := c.faddr } ∧
    h.ibuf = [] ∧ h.v = g.v ∧ h.vp = g.vp ∧ h.p = g.p ∧ h.s = g.s ∧ h.sp = g.sp ∧ h.seg = g.seg ∧ h.queues = g.queues ∧
    (∀ j, j ≠ k → t.grp j = s.grp j) ∧ (∀ a, t.byteAt a = s.byteAt a) ∧
    t.teams = s.teams ∧ t.execs = s.execs ∧ t.unit = s.unit

/-- A trap that no handler takes stops the team and fences its execution, with the first fault recorded (R262, R269, R343). -/
def Obligations.FatalTrap : Prop :=
  ∀ (s : State) (k : Nat) (hs : Lanes) (c : Cause) (multi : Bool),
    let g := s.grp k
    let tm := s.team g.team
    (g.csr.tvec = 0 ∨ g.csr.sup = true ∨ c.control = true) → tm.callable = false →
    let t := s.enterTrap k hs c multi
    (t.team g.team).dead = true ∧ (t.exec tm.exec).fenced = true ∧
    ((s.exec tm.exec).fault = none → (t.exec tm.exec).fault = some (c.record tm.teamId (BitVec.ofNat 32 g.index))) ∧
    (∀ f, (s.exec tm.exec).fault = some f → (t.exec tm.exec).fault = some { f with fatal := true }) ∧
    (∀ j, j ≠ g.team → t.team j = s.team j) ∧ (∀ j, j ≠ k → t.grp j = s.grp j) ∧ (∀ a, t.byteAt a = s.byteAt a)

/-- ERET, HALT, SEGLD, TLBINV and TUN.BDIAG raise PRIV in user mode; BAR, ARRIVE, WAITB and GBAR raise ILLEGAL_INSTR in
supervisor mode (R255, R267, R264). -/
def Obligations.PrivilegedInUserMode : Prop :=
  ∀ (s : State) (a e : Reg) (k : BitVec 2) (tid : Tid) (bank acc : Bool) (m1 row : BitVec 7) (p : Pred) (f : Bool) (b : BitVec 4),
    (s.pre.csr.sup = true →
      exec (.bar p a f b) s = .next (s.raise s.illegal) ∧ exec (.arrive e a b) s = .next (s.raise s.illegal) ∧
      exec (.waitb p a b) s = .next (s.raise s.illegal) ∧ exec (.gbar p a b) s = .next (s.raise s.illegal)) ∧
    (s.pre.csr.sup = false →
    exec (.tunBdiag tid a e bank m1 row acc) s = .next (s.raise s.priv) ∧
    exec .eret s = .next (s.raise s.priv) ∧ exec (.halt a) s = .next (s.raise s.priv) ∧
    exec (.segld a k) s = .next (s.raise s.priv) ∧ exec (.tlbinv a e) s = .next (s.raise s.priv) ∧
    exec .tlbinvAll s = .next (s.raise s.priv))

/-- Every shape checks its operands: beyond the budget it is illegal, a pending source waits, a pending destination faults,
poison traps (R156, R45, R271, R272, R31, R33, R85).
That poison comes before the instruction's own check of one lane is the model's choice (log entry 64), a wait before
TOKEN_FAULT log entry 65. -/
def Obligations.PoisonAndBudgetAndTokens : Prop :=
  (∀ (n : Need) (chk : State → Nat → Option Cause) (la : Nat) (eff : State → State) (s : State),
    let beyond := ∃ r ∈ n.vs ++ n.vd, s.pre.budget < r.1 + r.2
    let ready := ¬ beyond ∧ ∀ r ∈ expand n.ss, s.pre.pending r = false
    let V := fun i r => r ∈ expand n.vs ∧ s.pre.vPoison i r = true
    let S := fun r => r ∈ expand n.ss ∧ s.pre.sPoison r = true
    (beyond → issue n chk la eff s = .next (s.raise s.illegal)) ∧
    (∀ r l₁ l₂, ¬ beyond → expand n.ss = l₁ ++ r :: l₂ → (∀ q ∈ l₁, s.pre.pending q = false) → s.pre.pending r = true →
      issue n chk la eff s = .next (s.block (s.acts.map (fun i => (i, .token r))))) ∧
    (∀ r l₁ l₂, ready → expand n.sd = l₁ ++ r :: l₂ → (∀ q ∈ l₁, s.pre.pending q = false) → s.pre.pending r = true →
      issue n chk la eff s = .next (s.fail la (s.cause 0x0E (BitVec.ofNat 32 r) 0 s.lead))) ∧
    (∀ i r l₁ l₂, ready → (∀ q ∈ expand n.sd, s.pre.pending q = false) → s.acts = l₁ ++ i :: l₂ →
      (∀ j ∈ l₁, chk s j = none ∧ ∀ q, ¬ V j q) → (∀ q, S q → l₁ = []) →
      (V i r → (∀ q, V i q → r ≤ q) → (∀ q, S q → r ≤ q) →
        issue n chk la eff s = .next (s.fail la (s.cause 0x0A (BitVec.ofNat 32 r) 0 i))) ∧
      (S r → (∀ q, V i q → r < q) → (∀ q, S q → r ≤ q) →
        issue n chk la eff s = .next (s.fail la (s.cause 0x0A (BitVec.ofNat 32 (r + 256)) 0 i))))) ∧
  (∀ (s : State) (sc x T s8 : Bool) (la : La) (d a b cmp : Reg) (p : Pred) (imm : Imm11) (sz : Size) (os osf : Order),
    let is := fun (i : Instr) (n : Need) (la : Nat) => ∃ chk eff, exec i s = issue n chk la eff s
    let each := fun (l : List Instr) (n : Need) (la : Nat) => ∀ i ∈ l, is i n la
    let m := if s8 then 2 else 1
    each (if sc then [.addS d a b, .subS d a b, .mulS d a b, .shlS d a b, .faddS d a b, .fmulS d a b, .haddS d a b]
      else [.add d a b, .sub d a b, .mul d a b, .shl d a b, .fadd d a b, .fmul d a b, .hadd d a b, .rng d a b])
      (need3 false sc d.toNat a.toNat b.toNat) 0 ∧
    each (if sc then [.macS d a b, .bfiS d a b, .fmacS d a b, .fmscS d a b, .hmacS d a b]
      else [.mac d a b, .bfi d a b, .fmac d a b, .fmsc d a b, .hmac d a b, .dp4s8 d a b, .tern d a b])
      (need3 true sc d.toNat a.toNat b.toNat) 0 ∧
    each (if sc then [.icmpEqS p a b, .icmpLtsS p a b, .fcmpLtS p a b] else [.icmpEq p a b, .icmpLts p a b, .fcmpLt p a b])
      (needCmp sc a.toNat b.toNat) 0 ∧
    each (if sc then [.add64S d a b, .sub64S d a b] else [.add64 d a b, .sub64 d a b])
      (needPair sc true d.toNat a.toNat b.toNat) 0 ∧
    each (if sc then [.lea0S d a b, .lea3S d a b] else [.lea0 d a b, .lea3 d a b]) (needPair sc false d.toNat a.toNat b.toNat) 0 ∧
    each [.addi d a imm, .xori d a imm, .popc d a, .t5pack d a] (need2 d.toNat a.toNat) 0 ∧
    each [.rcp la d a, .ex2 la d a] (need2 d.toNat a.toNat) la.toNat ∧
    each [.sadd d a b, .sshl d a b, .ssetlt d a b] ⟨[], [], [(a.toNat, 1), (b.toNat, 1)], [(d.toNat, 1)]⟩ 0 ∧
    is (.saddi d a imm) ⟨[], [], [(a.toNat, 1)], [(d.toNat, 1)]⟩ 0 ∧
    is (.sadd64 d a b) ⟨[], [], [(a.toNat, 2), (b.toNat, 2)], [(d.toNat, 2)]⟩ 0 ∧
    is (.bcast d b) ⟨[], [(d.toNat, 1)], [(b.toNat, 1)], []⟩ 0 ∧
    is (.rdlane d a b) ⟨[], [(a.toNat, 1)], [(b.toNat, 1)], [(d.toNat, 1)]⟩ 0 ∧
    (let n := fun (sp : VSpace) => (⟨(addrNeed sp x a.toNat).1, [(d.toNat, sz.regs)], (addrNeed sp x a.toNat).2, []⟩ : Need)
     is (.ldg la d a sz os x) (n .global) la.toNat ∧ is (.ldgi la d a sz x) (n .global) la.toNat ∧
     is (.ldp la d a sz x) (n .priv) la.toNat ∧ is (.ldk la d a sz x) (n .constant) la.toNat) ∧
    is (.stg d a sz os x) ⟨(d.toNat, sz.regs) :: (addrNeed .global x a.toNat).1, [], (addrNeed .global x a.toNat).2, []⟩ 0 ∧
    is (.stp d a sz x) ⟨(d.toNat, sz.regs) :: (addrNeed .priv x a.toNat).1, [], (addrNeed .priv x a.toNat).2, []⟩ 0 ∧
    each [.atomAdd la d a b os s8 T, .atomExch la d a b os s8 T]
      ⟨[(a.toNat, 2), (b.toNat, m)], [(d.toNat, m + T.toNat)], [], []⟩ la.toNat ∧
    is (.atomCas la d a b os osf s8 T cmp)
      ⟨[(a.toNat, 2), (b.toNat, m), (cmp.toNat, m)], [(d.toNat, m + T.toNat)], [], []⟩ la.toNat ∧
    each [.redAdd os s8 a b, .redMaxn os s8 a b] ⟨[(a.toNat, 2), (b.toNat, m)], [], [], []⟩ 0)

/-- INT and INT2 one-word functions: every ACTIVE lane's D receives the function of R88 to R91, and nothing else changes (R85,
R88, R89, R90, R91, R31, R16). -/
def Obligations.IntegerLanes : Prop :=
  ∀ (s : State) (sc : Bool) (d a b : Reg),
    let A := fun j => s.rv j a.toNat
    let B := fun j => if sc then s.rs b.toNat else s.rv j b.toNat
    let C := fun j => s.rv j d.toNat
    let pos := fun j => bits (B j).toNat 0 5
    let n := fun j => min (bits (B j).toNat 8 6) (32 - pos j)
    (s.clear (need3 false sc d.toNat a.toNat b.toNat) noCheck = true →
      GivesWord (if sc then .addS d a b else .add d a b) s d (fun j => A j + B j) ∧
      GivesWord (if sc then .subS d a b else .sub d a b) s d (fun j => A j - B j) ∧
      GivesWord (if sc then .mulS d a b else .mul d a b) s d (fun j => A j * B j) ∧
      GivesWord (if sc then .mulhsS d a b else .mulhs d a b) s d
        (fun j => BitVec.ofNat 32 (bits ((A j).toInt * (B j).toInt % 2 ^ 64).toNat 32 32)) ∧
      GivesWord (if sc then .mulhnS d a b else .mulhn d a b) s d
        (fun j => BitVec.ofNat 32 (bits ((A j).toNat * (B j).toNat) 32 32)) ∧
      GivesWord (if sc then .minsS d a b else .mins d a b) s d (fun j => BitVec.ofInt 32 (min (A j).toInt (B j).toInt)) ∧
      GivesWord (if sc then .maxsS d a b else .maxs d a b) s d (fun j => BitVec.ofInt 32 (max (A j).toInt (B j).toInt)) ∧
      GivesWord (if sc then .minnS d a b else .minn d a b) s d (fun j => BitVec.ofNat 32 (min (A j).toNat (B j).toNat)) ∧
      GivesWord (if sc then .maxnS d a b else .maxn d a b) s d (fun j => BitVec.ofNat 32 (max (A j).toNat (B j).toNat)) ∧
      GivesWord (if sc then .andS d a b else .and d a b) s d (fun j => A j &&& B j) ∧
      GivesWord (if sc then .orS d a b else .or d a b) s d (fun j => A j ||| B j) ∧
      GivesWord (if sc then .xorS d a b else .xor d a b) s d (fun j => A j ^^^ B j) ∧
      GivesWord (if sc then .andnS d a b else .andn d a b) s d (fun j => A j &&& ~~~(B j)) ∧
      GivesWord (if sc then .shlS d a b else .shl d a b) s d
        (fun j => if (B j).toNat < 32 then BitVec.ofNat 32 ((A j).toNat * 2 ^ (B j).toNat) else 0) ∧
      GivesWord (if sc then .shrnS d a b else .shrn d a b) s d
        (fun j => if (B j).toNat < 32 then BitVec.ofNat 32 ((A j).toNat / 2 ^ (B j).toNat) else 0) ∧
      GivesWord (if sc then .shrsS d a b else .shrs d a b) s d
        (fun j => if (B j).toNat < 32 then BitVec.ofInt 32 ((A j).toInt / 2 ^ (B j).toNat)
          else if (A j).toInt < 0 then 0xFFFFFFFF else 0) ∧
      GivesWord (if sc then .rotS d a b else .rot d a b) s d (fun j => (A j).rotateLeft ((B j).toNat % 32)) ∧
      GivesWord (if sc then .absdS d a b else .absd d a b) s d (fun j => BitVec.ofNat 32 ((A j).toInt - (B j).toInt).natAbs) ∧
      GivesWord (if sc then .bfenS d a b else .bfen d a b) s d (fun j => BitVec.ofNat 32 (bits (A j).toNat (pos j) (n j))) ∧
      GivesWord (if sc then .bfesS d a b else .bfes d a b) s d
        (fun j => BitVec.ofInt 32 (sext (bits (A j).toNat (pos j) (n j)) (n j)))) ∧
    (s.clear (need3 true sc d.toNat a.toNat b.toNat) noCheck = true →
      GivesWord (if sc then .macS d a b else .mac d a b) s d (fun j => C j + A j * B j) ∧
      GivesWord (if sc then .bfiS d a b else .bfi d a b) s d
        (fun j => BitVec.ofNat 32 (bits (C j).toNat 0 (pos j) + bits (A j).toNat 0 (n j) * 2 ^ pos j
          + (C j).toNat / 2 ^ (pos j + n j) * 2 ^ (pos j + n j))) ∧
      GivesWord (if sc then .bselS d a b else .bsel d a b) s d (fun j => aluBsel (A j) (B j) (C j)))

/-- POPC, CLZ, BREV, the immediates, SHI, MOVI, LIT, SEL, BCAST and LANEID: every ACTIVE lane's D receives the stated word (R85,
R89, R93, R94, R95, R99, R98). -/
def Obligations.IntegerUnaryAndImmediates : Prop :=
  ∀ (s : State) (d a b : Reg) (p : Pred) (imm : Imm11) (n : BitVec 5) (w : Word),
    let A := fun j => s.rv j a.toNat
    (s.clear (need2 d.toNat a.toNat) noCheck = true →
      (∀ sc : Bool,
        GivesWord (if sc then .popcS d a else .popc d a) s d
          (fun j => BitVec.ofNat 32 ((List.range 32).filter (fun k => (A j).getLsbD k)).length) ∧
        GivesWord (if sc then .clzS d a else .clz d a) s d
          (fun j => BitVec.ofNat 32 ((List.range 32).filter (fun k => decide ((A j).toNat < 2 ^ k))).length) ∧
        GivesWord (if sc then .brevS d a else .brev d a) s d (fun j => (A j).reverse)) ∧
      GivesWord (.addi d a imm) s d (fun j => A j + imm.signExtend 32) ∧
      GivesWord (.andi d a imm) s d (fun j => A j &&& imm.signExtend 32) ∧
      GivesWord (.ori d a imm) s d (fun j => A j ||| imm.signExtend 32) ∧
      GivesWord (.xori d a imm) s d (fun j => A j ^^^ imm.signExtend 32) ∧
      GivesWord (.shiShl d a n) s d (fun j => A j <<< n.toNat) ∧
      GivesWord (.shiShrn d a n) s d (fun j => A j >>> n.toNat) ∧
      GivesWord (.shiShrs d a n) s d (fun j => (A j).sshiftRight n.toNat) ∧
      GivesWord (.shiRot d a n) s d (fun j => (A j).rotateLeft n.toNat)) ∧
    (s.clear ⟨[], [(d.toNat, 1)], [], []⟩ noCheck = true →
      GivesWord (.movi d imm) s d (fun _ => imm.signExtend 32) ∧
      GivesWord (.lit false d w) s d (fun _ => w) ∧
      GivesWord (.laneid d) s d (fun j => BitVec.ofNat 32 j)) ∧
    (s.clear ⟨[], [], [], [(d.toNat, 1)]⟩ noCheck = true → GivesScalar (.lit true d w) s d.toNat 1 (fun _ => w)) ∧
    (s.clear ⟨[], [(d.toNat, 1)], [(b.toNat, 1)], []⟩ noCheck = true → GivesWord (.bcast d b) s d (fun _ => s.rs b.toNat)) ∧
    (∀ sc : Bool, s.clear (need3 false sc d.toNat a.toNat b.toNat) noCheck = true →
      GivesWord (if sc then .selS p d a b else .sel p d a b) s d
        (fun j => if s.rp j p.toNat then A j else if sc then s.rs b.toNat else s.rv j b.toNat))

/-- ADD64, SUB64 and LEA0 to LEA3: the even pair D of every ACTIVE lane receives the 64-bit result (R62, R85, R89, R35). -/
def Obligations.IntegerPairs : Prop :=
  ∀ (s : State) (sc : Bool) (d a b : Reg), d.toNat % 2 = 0 →
    let A := fun j => s.rv2 j a.toNat
    let B2 := fun j => if sc then s.rs2 b.toNat else s.rv2 j b.toNat
    let B := fun j => if sc then s.rs b.toNat else s.rv j b.toNat
    let words := fun (f : Nat → Dword) (j k : Nat) => if k = 0 then pairLo (f j) else pairHi (f j)
    let lea := fun (k : Nat) => words (fun j => A j + BitVec.ofInt 64 ((B j).toInt * 2 ^ k))
    (s.clear (needPair sc true d.toNat a.toNat b.toNat) noCheck = true →
      Gives (if sc then .add64S d a b else .add64 d a b) s 0 d.toNat 2 (words (fun j => A j + B2 j)) (fun _ => 0) ∧
      Gives (if sc then .sub64S d a b else .sub64 d a b) s 0 d.toNat 2 (words (fun j => A j - B2 j)) (fun _ => 0)) ∧
    (s.clear (needPair sc false d.toNat a.toNat b.toNat) noCheck = true →
      Gives (if sc then .lea0S d a b else .lea0 d a b) s 0 d.toNat 2 (lea 0) (fun _ => 0) ∧
      Gives (if sc then .lea1S d a b else .lea1 d a b) s 0 d.toNat 2 (lea 1) (fun _ => 0) ∧
      Gives (if sc then .lea2S d a b else .lea2 d a b) s 0 d.toNat 2 (lea 2) (fun _ => 0) ∧
      Gives (if sc then .lea3S d a b else .lea3 d a b) s 0 d.toNat 2 (lea 3) (fun _ => 0))

/-- ICMP, all twelve conditions, vector and -s forms: the predicate of every ACTIVE lane is the condition, and nothing else
changes (R92, R85, R86, R9). -/
def Obligations.IntegerCompares : Prop :=
  ∀ (s : State) (sc : Bool) (d : Pred) (a b : Reg), s.clear (needCmp sc a.toNat b.toNat) noCheck = true →
    let A := fun j => s.rv j a.toNat
    let B := fun j => if sc then s.rs b.toNat else s.rv j b.toNat
    let is := fun (i : Instr) (f : Nat → Bool) => GivesPred i s d.toNat f (fun _ => 0)
    is (if sc then .icmpEqS d a b else .icmpEq d a b) (fun j => A j == B j) ∧
    is (if sc then .icmpNeS d a b else .icmpNe d a b) (fun j => A j != B j) ∧
    is (if sc then .icmpLtsS d a b else .icmpLts d a b) (fun j => (A j).slt (B j)) ∧
    is (if sc then .icmpLesS d a b else .icmpLes d a b) (fun j => (A j).sle (B j)) ∧
    is (if sc then .icmpGtsS d a b else .icmpGts d a b) (fun j => (B j).slt (A j)) ∧
    is (if sc then .icmpGesS d a b else .icmpGes d a b) (fun j => (B j).sle (A j)) ∧
    is (if sc then .icmpLtnS d a b else .icmpLtn d a b) (fun j => (A j).ult (B j)) ∧
    is (if sc then .icmpLenS d a b else .icmpLen d a b) (fun j => (A j).ule (B j)) ∧
    is (if sc then .icmpGtnS d a b else .icmpGtn d a b) (fun j => (B j).ult (A j)) ∧
    is (if sc then .icmpGenS d a b else .icmpGen d a b) (fun j => (B j).ule (A j)) ∧
    is (if sc then .icmpTstS d a b else .icmpTst d a b) (fun j => (A j &&& B j) != 0) ∧
    is (if sc then .icmpNtstS d a b else .icmpNtst d a b) (fun j => (A j &&& B j) == 0)

/-- SOP, SADD64 and SADDI: the scalar D, or its pair, receives the result once for the issue, and nothing else changes (R96,
R97, R12, R16). -/
def Obligations.ScalarArithmetic : Prop :=
  ∀ (s : State) (d a b : Reg) (imm : Imm11),
    let A := s.rs a.toNat
    let B := s.rs b.toNat
    let one := fun (c : Bool) => if c then (1 : Word) else 0
    (s.clear ⟨[], [], [(a.toNat, 1), (b.toNat, 1)], [(d.toNat, 1)]⟩ noCheck = true →
      let is := fun (i : Instr) (w : Word) => GivesScalar i s d.toNat 1 (fun _ => w)
      is (.sadd d a b) (A + B) ∧ is (.ssub d a b) (A - B) ∧ is (.smul d a b) (A * B) ∧
      is (.sand d a b) (A &&& B) ∧ is (.sor d a b) (A ||| B) ∧ is (.sxor d a b) (A ^^^ B) ∧
      is (.sshl d a b) (if B.toNat < 32 then BitVec.ofNat 32 (A.toNat * 2 ^ B.toNat) else 0) ∧
      is (.sshrn d a b) (if B.toNat < 32 then BitVec.ofNat 32 (A.toNat / 2 ^ B.toNat) else 0) ∧
      is (.sshrs d a b) (if B.toNat < 32 then BitVec.ofInt 32 (A.toInt / 2 ^ B.toNat)
        else if A.toInt < 0 then 0xFFFFFFFF else 0) ∧
      is (.smins d a b) (BitVec.ofInt 32 (min A.toInt B.toInt)) ∧ is (.smaxs d a b) (BitVec.ofInt 32 (max A.toInt B.toInt)) ∧
      is (.sseteq d a b) (one (A == B)) ∧ is (.ssetne d a b) (one (A != B)) ∧
      is (.ssetlt d a b) (one (A.slt B)) ∧ is (.ssetltn d a b) (one (A.ult B))) ∧
    (s.clear ⟨[], [], [(a.toNat, 2), (b.toNat, 2)], [(d.toNat, 2)]⟩ noCheck = true →
      let x := s.rs2 a.toNat + s.rs2 b.toNat
      GivesScalar (.sadd64 d a b) s d.toNat 2 (fun k => if k = 0 then pairLo x else pairHi x)) ∧
    (s.clear ⟨[], [], [(a.toNat, 1)], [(d.toNat, 1)]⟩ noCheck = true →
      GivesScalar (.saddi d a imm) s d.toNat 1 (fun _ => A + imm.signExtend 32))

/-- PAND, POR, PXOR, PANDN, P2V, V2P, VANY, VALL, VBAL, VCNT and ELECT give the stated predicates, words and scalars (R141,
R147, R16). -/
def Obligations.PredicatesAndVotes : Prop :=
  ∀ (s : State) (d a b : Pred) (v : Reg),
    let is := fun (i : Instr) (f : Nat → Bool) => GivesPred i s d.toNat f (fun _ => 0)
    let A := fun j => s.rp j a.toNat
    let B := fun j => s.rp j b.toNat
    (s.clear ⟨[], [], [], []⟩ noCheck = true →
      is (.pand d a b) (fun j => A j && B j) ∧ is (.por d a b) (fun j => A j || B j) ∧
      is (.pxor d a b) (fun j => A j != B j) ∧ is (.pandn d a b) (fun j => A j && !B j) ∧
      is (.vany d a) (fun _ => s.acts.any A) ∧ is (.vall d a) (fun _ => s.acts.all A) ∧
      is (.elect d a) (fun j => decide ((s.acts.filter A).head? = some j))) ∧
    (s.clear ⟨[], [(v.toNat, 1)], [], []⟩ noCheck = true → GivesWord (.p2v v a) s v (fun j => if A j then 1 else 0)) ∧
    (s.clear ⟨[(v.toNat, 1)], [], [], []⟩ noCheck = true → is (.v2p d v) (fun j => s.rv j v.toNat != 0)) ∧
    (s.clear ⟨[], [], [], [(v.toNat, 2)]⟩ noCheck = true →
      let x := maskOf (fun i => s.unit.mask.getLsbD i && A i) s.pre.width
      GivesScalar (.vbal v a) s v.toNat 2 (fun k => if k = 0 then pairLo x else pairHi x)) ∧
    (s.clear ⟨[], [], [], [(v.toNat, 1)]⟩ noCheck = true →
      GivesScalar (.vcnt v a) s v.toNat 1 (fun _ => BitVec.ofNat 32 (s.acts.filter A).length))

/-- FOP and HOP, vector and -s forms: every ACTIVE lane's D receives the rounded result, the flags are raised, and nothing else
changes (R100, R101, R102, R104, R79, R80, R85, R31). -/
def Obligations.FloatLanes : Prop :=
  ∀ (s : State) (sc : Bool) (d a b : Reg),
    let A := fun j => s.rv j a.toNat
    let B := fun j => if sc then s.rs b.toNat else s.rv j b.toNat
    let C := fun j => s.rv j d.toNat
    let is := fun (i : Instr) (f : Nat → Word × Flags) => Gives i s 0 d.toNat 1 (fun j _ => (f j).1) (fun j => (f j).2)
    (s.clear (need3 false sc d.toNat a.toNat b.toNat) noCheck = true →
      is (if sc then .faddS d a b else .fadd d a b) (fun j => fadd (A j) (B j)) ∧
      is (if sc then .fsubS d a b else .fsub d a b) (fun j => fsub (A j) (B j)) ∧
      is (if sc then .fmulS d a b else .fmul d a b) (fun j => fmul (A j) (B j)) ∧
      is (if sc then .fminS d a b else .fmin d a b) (fun j => (fminmax false (A j) (B j), 0)) ∧
      is (if sc then .fmaxS d a b else .fmax d a b) (fun j => (fminmax true (A j) (B j), 0)) ∧
      is (if sc then .fminnS d a b else .fminn d a b) (fun j => (fminmaxN false (A j) (B j), 0)) ∧
      is (if sc then .fmaxnS d a b else .fmaxn d a b) (fun j => (fminmaxN true (A j) (B j), 0)) ∧
      is (if sc then .fcpsS d a b else .fcps d a b) (fun j => (fcps (A j) (B j), 0)) ∧
      is (if sc then .fsclS d a b else .fscl d a b) (fun j => fscl (A j) (B j)) ∧
      is (if sc then .haddS d a b else .hadd d a b) (fun j => hop fp16 .add (A j) (B j) (C j)) ∧
      is (if sc then .hsubS d a b else .hsub d a b) (fun j => hop fp16 .sub (A j) (B j) (C j)) ∧
      is (if sc then .hmulS d a b else .hmul d a b) (fun j => hop fp16 .mul (A j) (B j) (C j)) ∧
      is (if sc then .hminS d a b else .hmin d a b) (fun j => hop fp16 .min (A j) (B j) (C j)) ∧
      is (if sc then .hmaxS d a b else .hmax d a b) (fun j => hop fp16 .max (A j) (B j) (C j)) ∧
      is (if sc then .baddS d a b else .badd d a b) (fun j => hop bf16 .add (A j) (B j) (C j)) ∧
      is (if sc then .bsubS d a b else .bsub d a b) (fun j => hop bf16 .sub (A j) (B j) (C j)) ∧
      is (if sc then .bmulS d a b else .bmul d a b) (fun j => hop bf16 .mul (A j) (B j) (C j)) ∧
      is (if sc then .bminS d a b else .bmin d a b) (fun j => hop bf16 .min (A j) (B j) (C j)) ∧
      is (if sc then .bmaxS d a b else .bmax d a b) (fun j => hop bf16 .max (A j) (B j) (C j))) ∧
    (s.clear (need3 true sc d.toNat a.toNat b.toNat) noCheck = true →
      is (if sc then .fmacS d a b else .fmac d a b) (fun j => fmac (A j) (B j) (C j)) ∧
      is (if sc then .fmscS d a b else .fmsc d a b) (fun j => fmsc (A j) (B j) (C j)) ∧
      is (if sc then .hmacS d a b else .hmac d a b) (fun j => hop fp16 .mac (A j) (B j) (C j)) ∧
      is (if sc then .bmacS d a b else .bmac d a b) (fun j => hop bf16 .mac (A j) (B j) (C j)))

/-- FCMP, all eight conditions, vector and -s forms: the predicate of every ACTIVE lane is the condition and the flags are
raised (R103, R79, R80, R9, R85). -/
def Obligations.FloatCompares : Prop :=
  ∀ (s : State) (sc : Bool) (d : Pred) (a b : Reg), s.clear (needCmp sc a.toNat b.toNat) noCheck = true →
    let R := fun (c : FCond) (j : Nat) => fcmp c (s.rv j a.toNat) (if sc then s.rs b.toNat else s.rv j b.toNat)
    let is := fun (i : Instr) (c : FCond) => GivesPred i s d.toNat (fun j => (R c j).1) (fun j => (R c j).2)
    is (if sc then .fcmpEqS d a b else .fcmpEq d a b) .eq ∧
    is (if sc then .fcmpNeS d a b else .fcmpNe d a b) .ne ∧
    is (if sc then .fcmpLtS d a b else .fcmpLt d a b) .lt ∧
    is (if sc then .fcmpLeS d a b else .fcmpLe d a b) .le ∧
    is (if sc then .fcmpGtS d a b else .fcmpGt d a b) .gt ∧
    is (if sc then .fcmpGeS d a b else .fcmpGe d a b) .ge ∧
    is (if sc then .fcmpUnS d a b else .fcmpUn d a b) .un ∧
    is (if sc then .fcmpOrS d a b else .fcmpOr d a b) .or

/-- SFU, CVT and FRINT, at every LA: every ACTIVE lane's D receives the stated result, at once or as a lookahead result (R105,
R106, R107, R108, R109, R43, R79).
FP_EXCEPTION at the issuing unit's end for LA > 0 is log entry 48; the SFU values rest on log entries 12, 13 and 77. -/
def Obligations.SfuAndConversions : Prop :=
  ∀ (s : State) (la : La) (d a : Reg) (rnd : Rnd), s.clear (need2 d.toNat a.toNat) noCheck = true →
    let is := fun (i : Instr) (f : Word → Word × Flags) =>
      Gives i s la.toNat d.toNat 1 (fun j _ => (f (s.rv j a.toNat)).1) (fun j => (f (s.rv j a.toNat)).2)
    is (.rcp la d a) (sfu s.exactMode .rcp) ∧
    is (.rsq la d a) (sfu s.exactMode .rsq) ∧
    is (.sqrt la d a) (sfu s.exactMode .sqrt) ∧
    is (.ex2 la d a) (sfu s.exactMode .ex2) ∧
    is (.lg2 la d a) (sfu s.exactMode .lg2) ∧
    is (.sinpi la d a) (sfu s.exactMode .sinpi) ∧
    is (.cospi la d a) (sfu s.exactMode .cospi) ∧
    is (.tanh la d a) (sfu s.exactMode .tanh) ∧
    is (.cvtF32S32 la d a rnd) (cvtF32S32 rnd) ∧
    is (.cvtF32N32 la d a rnd) (cvtF32N32 rnd) ∧
    is (.cvtS32F32 la d a rnd) (cvtS32F32 rnd) ∧
    is (.cvtN32F32 la d a rnd) (cvtN32F32 rnd) ∧
    is (.cvtF16F32 la d a rnd) (cvtNarrow fp16 rnd) ∧
    is (.cvtBf16F32 la d a rnd) (cvtNarrow bf16 rnd) ∧
    is (.cvtF32F16 la d a rnd) (fun x => (cvtWiden fp16 x, 0)) ∧
    is (.cvtF32Bf16 la d a rnd) (fun x => (cvtWiden bf16 x, 0)) ∧
    is (.frint la d a rnd) (frint rnd)

/-- DOT, TERN, the T5 functions, TCNT, RNG and RNGF: every ACTIVE lane's D receives the stated word, or its predicate the test
(R120, R121, R122, R126, R79, R85). -/
def Obligations.DotsTritsAndRandom : Prop :=
  ∀ (s : State) (d a b : Reg) (p : Pred),
    let A := fun j => s.rv j a.toNat
    let B := fun j => s.rv j b.toNat
    let C := fun j => s.rv j d.toNat
    let is := fun (i : Instr) (f : Nat → Word × Flags) => Gives i s 0 d.toNat 1 (fun j _ => (f j).1) (fun j => (f j).2)
    (s.clear (need3 true false d.toNat a.toNat b.toNat) noCheck = true →
      is (.dp4s8 d a b) (fun j => dotLane .s8 (A j) (B j) (C j)) ∧
      is (.dp4n8 d a b) (fun j => dotLane .n8 (A j) (B j) (C j)) ∧
      is (.dp4sn8 d a b) (fun j => dotLane .sn8 (A j) (B j) (C j)) ∧
      is (.dp8s4 d a b) (fun j => dotLane .s4 (A j) (B j) (C j)) ∧
      is (.dp2bf d a b) (fun j => dotLane .bf (A j) (B j) (C j)) ∧
      is (.dp2h d a b) (fun j => dotLane .h (A j) (B j) (C j)) ∧
      is (.dp4e4 d a b) (fun j => dotLane .e4 (A j) (B j) (C j)) ∧
      is (.dp4e5 d a b) (fun j => dotLane .e5 (A j) (B j) (C j)) ∧
      is (.tern d a b) (fun j => ternLane (A j) (B j) (C j))) ∧
    (s.clear (need3 true false d.toNat a.toNat b.toNat) (tritCheck a 4) = true →
      is (.dp4t5 d a b) (fun j => dotLane .t5 (A j) (B j) (C j))) ∧
    (s.clear (need3 false false d.toNat a.toNat b.toNat) noCheck = true →
      GivesWord (.rng d a b) s d (fun j => rngWord (A j) (B j)) ∧ GivesWord (.rngf d a b) s d (fun j => rngFloat (A j) (B j))) ∧
    (s.clear (need2 d.toNat a.toNat) noCheck = true →
      GivesWord (.t5pack d a) s d (fun j => aluT5pack (A j)) ∧ GivesWord (.t5enc d a) s d (fun j => aluT5enc (A j)) ∧
      GivesWord (.tcnt d a) s d (fun j => aluTcnt (A j))) ∧
    (s.clear (need2 d.toNat a.toNat) (tritCheck a 3) = true → GivesWord (.t5unpk d a) s d (fun j => aluT5unpk (A j))) ∧
    (s.clear (need2 d.toNat a.toNat) (tritCheck a 4) = true → GivesWord (.t5dec d a) s d (fun j => aluT5dec (A j))) ∧
    (s.clear ⟨[(a.toNat, 1)], [], [], []⟩ noCheck = true → GivesPred (.t5chk p a) s p.toNat (fun j => aluT5chk (A j)) (fun _ => 0))

/-- QCVT, QWIDEN and QSCALE, at every LA: every ACTIVE lane's D receives the stated word and the flags come with it (R113, R115,
R116, R117, R118, R119, R126, R43).
FP_EXCEPTION at the issuing unit's end for LA > 0 is log entry 48; QWIDEN with SAT is log entry 49. -/
def Obligations.NarrowConversions : Prop :=
  ∀ (s : State) (la : La) (d a b draw : Reg) (rnd : Rnd) (qr : QRnd) (sat : Bool) (fmt : QFmt) (pos : BitVec 2),
    let w := fun j => if qr = .sr then laneRng (s.pre.logical j) (s.rs draw.toNat) s.pre.csr.rngkey else 0
    let q := fun j => qcvtLane fmt (QRnd.mode qr) sat pos.toNat (w j) (s.rv j a.toNat) (s.rv j b.toNat) (s.rv j d.toNat)
    let x := fun j => qwidenLane fmt (Rnd.mode rnd) sat pos.toNat (s.rv j a.toNat) (s.rv j b.toNat)
    (s.clear ⟨[(a.toNat, 1), (b.toNat, 1), (d.toNat, 1)], [], if qr = .sr then [(draw.toNat, 1)] else [], []⟩ noCheck = true →
      Gives (.qcvt la d a b qr sat fmt pos draw) s la.toNat d.toNat 1 (fun j _ => (q j).1) (fun j => (q j).2)) ∧
    (s.clear ⟨[(a.toNat, 1), (b.toNat, 1)], [(d.toNat, 1)], [], []⟩ noCheck = true →
      (fmt = .t5 → ∀ j ∈ s.acts, byteOf (s.rv j a.toNat) pos.toNat ≤ 242) →
      Gives (.qwiden la d a b rnd sat fmt pos) s la.toNat d.toNat 1 (fun j _ => (x j).1) (fun j => (x j).2)) ∧
    (s.clear ⟨[(a.toNat, 32)], [(d.toNat, 1)], [], []⟩ noCheck = true →
      Gives (.qscale la d a fmt) s la.toNat d.toNat 1
        (fun j _ => qscaleLane fmt ((List.range 32).map (fun k => s.rv j (a.toNat + k)))) (fun _ => 0))

/-- Shuffles, reductions, scans, CATS, RDFIRST, RDLANE, WRLANE and RDLPC give the stated words, and nothing else changes (R98,
R142, R143, R144, R145, R146, R16).
That RDFIRST checks the lowest ACTIVE lane alone is log entry 79; the lpc that RDLPC sees of a BARRED lane is log entry 86. -/
def Obligations.CrossLane : Prop :=
  ∀ (s : State) (d a b : Reg),
    let A := fun j => s.rv j a.toNat
    let x := fun j => (s.rv j b.toNat).toNat
    let W := s.pre.width
    let fold := fun (f : Word → Word → Word) (l : List Nat) => fold1 f (l.map A)
    let sh := fun (i : Instr) (src : Nat → Nat) => (∀ j ∈ s.acts, s.pre.vPoison (src j) a.toNat = false) →
      GivesWord i s d (fun j => A (src j))
    (s.clear ⟨[(b.toNat, 1)], [(a.toNat, 1), (d.toNat, 1)], [], []⟩ noCheck = true →
      sh (.shfli d a b) (fun j => x j % W) ∧
      sh (.shflu d a b) (fun j => if j < bits (x j) 0 6 then j else j - bits (x j) 0 6) ∧
      sh (.shfld d a b) (fun j => if W ≤ j + bits (x j) 0 6 then j else j + bits (x j) 0 6) ∧
      sh (.shflx d a b) (fun j => if W ≤ Nat.xor j (bits (x j) 0 6) then j else Nat.xor j (bits (x j) 0 6))) ∧
    (s.clear (amongNeed d.toNat a.toNat []) (fun s => s.poisonAmong a.toNat) = true →
      GivesWord (.redadd d a) s d (fun _ => fold (fun u v => u + v) s.acts) ∧
      GivesWord (.redmin d a) s d (fun _ => fold aluMins s.acts) ∧
      GivesWord (.redmax d a) s d (fun _ => fold aluMaxs s.acts) ∧
      Gives (.redfadd d a) s 0 d.toNat 1 (fun _ _ => (s.tree a.toNat (fun _ => true)).1)
        (fun j => if j = s.lead then (s.tree a.toNat (fun _ => true)).2 else 0)) ∧
    (s.clear (need2 d.toNat a.toNat) noCheck = true →
      GivesWord (.scanadd d a) s d (fun j => fold (fun u v => u + v) (s.acts.filter (fun q => decide (q ≤ j)))) ∧
      Gives (.scanfadd d a) s 0 d.toNat 1 (fun j _ => (s.tree a.toNat (fun q => decide (q ≤ j))).1)
        (fun j => (s.tree a.toNat (fun q => decide (q ≤ j))).2) ∧
      GivesWord (.rdlpc d a) s d (fun j => s.lpcSeen ((A j).toNat % W))) ∧
    (s.clear ⟨[], [(a.toNat, 1)], [], [(d.toNat, 1)]⟩ noCheck = true → s.acts ≠ [] →
      s.pre.vPoison s.lead a.toNat = false → GivesScalar (.rdfirst d a) s d.toNat 1 (fun _ => A s.lead)) ∧
    (s.clear ⟨[], [(a.toNat, 1)], [(b.toNat, 1)], [(d.toNat, 1)]⟩ noCheck = true →
      let j := (s.rs b.toNat).toNat % W
      s.pre.vPoison j a.toNat = false → GivesScalar (.rdlane d a b) s d.toNat 1 (fun _ => A j)) ∧
    (s.clear ⟨[], [(d.toNat, 1)], [(a.toNat, 1), (b.toNat, 1)], []⟩ noCheck = true →
      let j := (s.rs b.toNat).toNat % W
      ∃ t, exec (.wrlane d a b) s = .next t ∧ OnlyGroup s t ∧
        (s.unit.mask.getLsbD j = true → t.me.getV j d.toNat = s.rs a.toNat ∧ t.me.vPoison j d.toNat = false) ∧
        (∀ i r, i < 128 → r < 128 → ¬(s.unit.mask.getLsbD j = true ∧ i = j ∧ r = d.toNat) →
          t.me.getV i r = s.me.getV i r ∧ t.me.vPoison i r = s.me.vPoison i r) ∧
        t.me.p = s.me.p ∧ t.me.s = s.me.s ∧ t.me.csr = s.me.csr ∧ t.me.lanes = s.me.lanes) ∧
    (s.clear (amongNeed d.toNat a.toNat [(b.toNat, 1)]) (fun s => s.poisonAmong a.toNat) = true →
      let P := catsPrefix A s.acts 0 0
      let bad := s.acts.any (fun j => badWeight (A j)) || (val32 P.2.1).isInf
      let none_ := bad || (val32 P.2.1).isZero
      let T := fun j => fmul (s.rv j b.toNat) P.2.1
      Gives (.cats d a b) s 0 d.toNat 1
        (fun j _ => if none_ then 0xFFFFFFFF else
          match P.1.find? (fun e => (val32 (T j).1).lt (val32 e.2)) with
          | some e => BitVec.ofNat 32 e.1
          | none => 0xFFFFFFFF)
        (fun j => (if none_ then 0 else (T j).2) ||| (if j = s.lead then P.2.2 ||| nvIf bad else 0)))

/-- BRA, BRU, BRX, JMPV, CALLV and RET move every ACTIVE lane to its target or past the unit, and nothing else changes (R127,
R128, R130, R131, R37). -/
def Obligations.Branches : Prop :=
  ∀ (s : State) (neg : Bool) (p : Pred) (off : Off21) (d a : Reg),
    let T := lpcAt (s.targetPkt off).toNat 0
    let N := s.unit.next
    let c := fun j => s.rp j p.toNat != neg
    let differ := s.acts.filter (fun j => c j != c s.lead)
    (0 ≤ s.targetPkt off →
      Moves (.bra off) s (fun _ => T) s.me.csr.divv s.unit.after ∧
      Moves (.brx neg p off) s (fun j => if c j then T else N) s.me.csr.divv s.unit.after ∧
      (differ = [] → Moves (.bru neg p off) s (fun _ => if c s.lead then T else N) s.me.csr.divv s.unit.after) ∧
      (differ ≠ [] → s.pre.csr.trapctl.getLsbD 4 = false →
        Moves (.bru neg p off) s (fun _ => if c s.lead then T else N) true s.unit.after) ∧
      (∀ j js, differ = j :: js → s.pre.csr.trapctl.getLsbD 4 = true →
        Moves (.bru neg p off) s (fun _ => if c s.lead then T else N) true
          (addAfterTo ⟨0x03, s.unit.addr, 0, s.pre.logical (minOf j differ), s.unit.addr, bits s.unit.addr.toNat 0 2, true, false⟩
            s.unit.after))) ∧
    (s.clear ⟨[(a.toNat, 1)], [], [], []⟩ (jumpCheck a) = true →
      Moves (.jmpv a) s (fun j => s.rv j a.toNat) s.me.csr.divv s.unit.after ∧
      Moves (.ret a) s (fun j => s.rv j a.toNat) s.me.csr.divv s.unit.after) ∧
    (s.clear (need2 d.toNat a.toNat) (jumpCheck a) = true →
      ∃ t, exec (.callv d a) s = .next t ∧ GroupAlone s t ∧ t.unit.moved = true ∧
        (∀ j, j < s.me.lanes.length →
          t.me.lane j = if s.unit.mask.getLsbD j then { s.me.lane j with lpc := s.rv j a.toNat } else s.me.lane j) ∧
        (∀ j ∈ s.acts, t.me.getV j d.toNat = N) ∧
        (∀ j r, r < 128 → ¬(j ∈ s.acts ∧ r = d.toNat) → t.me.getV j r = s.me.getV j r) ∧
        t.me.p = s.me.p ∧ t.me.s = s.me.s ∧ t.me.csr = s.me.csr)

/-- A branch taken to a packet below 0 raises SEGMENT for the unit: TVAL is four times the target packet, and no lane moves by
it (R37, R33). -/
def Obligations.BranchBelowZero : Prop :=
  ∀ (s : State) (neg : Bool) (p : Pred) (off : Off21) (j : Nat) (js : List Nat),
    s.targetPkt off < 0 → s.acts = j :: js →
    let c := s.cause 0x04 (BitVec.ofInt 32 (s.targetPkt off * 4)) 0 j
    exec (.bra off) s = .next (s.raise c) ∧
    ((s.rp j p.toNat != neg) = true → s.lead = j →
      exec (.bru neg p off) s = .next (s.raise c) ∧ exec (.brx neg p off) s = .next (s.raise c))

/-- NOP, ISYNC, SLEEP, YIELD, TRAP, FLAGRD, FLAGCLR and CLOCK have exactly the effect the table gives (R138, R140, R257, R260,
R79, R255). -/
def Obligations.SystemFunctions : Prop :=
  ∀ (s : State) (a d : Reg) (n : BitVec 7) (m : BitVec 4),
    exec .nop s = .next s ∧
    MakesGroup .isync s { s.me with ibuf := [] } ∧
    (s.clear (scalarNeed [(a.toNat, 1)] []) noCheck = true →
      (s.rs a.toNat = 0 → MakesGroup (.sleep a) s s.me) ∧
      (s.rs a.toNat ≠ 0 → MakesGroup (.sleep a) s { s.me with sleepTo := s.now + min (s.rs a.toNat).toNat (2 ^ 24) })) ∧
    (∃ y, MakesGroup .yield s { s.me with stamp := y } ∧
      ∀ e ∈ s.groups, (s.team e.2.team).core = s.myTeam.core → e.2.part = s.me.part → e.2.stamp < y) ∧
    (∃ t, exec (.trap n) s = .next t ∧ t = { s with unit := { s.unit with after := t.unit.after } } ∧
      t.unit.after = addAfterTo ⟨0x12, n.setWidth 32, 0, s.pre.logical s.lead, s.unit.addr, bits s.unit.addr.toNat 0 2, true, false⟩
        s.unit.after) ∧
    (s.clear (scalarNeed [] [(d.toNat, 1)]) noCheck = true →
      MakesGroup (.flagrd d) s (s.me.flushLooks.putS d.toNat (s.me.flushLooks.csr.flags.setWidth 32) false)) ∧
    MakesGroup (.flagclr m) s
      { s.me.flushLooks with csr := { s.me.flushLooks.csr with flags := s.me.flushLooks.csr.flags &&& ~~~m } } ∧
    (s.clear (scalarNeed [] [(d.toNat, 2)]) noCheck = true →
      let x := BitVec.ofNat 64 s.now
      GivesScalar (.clock d) s d.toNat 2 (fun k => if k = 0 then pairLo x else pairHi x))

/-- CSRR writes the named register to s[D]; reserved numbers are ILLEGAL_INSTR and TSCRATCH in user mode is PRIV (R251, R255,
R256, R13, R79, R157). -/
def Obligations.ControlRegisterReads : Prop :=
  ∀ (s : State) (d : Reg) (e : BitVec 7), s.clear (scalarNeed [] [(d.toNat, 1)]) noCheck = true → s.acts ≠ [] →
    let c := s.me.csr
    let is := fun (n : BitVec 7) (w : Word) => GivesScalar (.csrr d n) s d.toNat 1 (fun _ => w)
    is 0x00 (BitVec.ofNat 32 (c.role.toNat * 64 + widthCode s.me.width * 16 + c.autow.toNat * 8 + c.spinp.toNat * 4 + c.divv.toNat * 2)) ∧
    MakesGroup (.csrr d 0x01) s (s.me.flushLooks.putS d.toNat (s.me.flushLooks.csr.flags.setWidth 32) false) ∧
    is 0x02 (c.trapctl.setWidth 32) ∧ is 0x03 c.rngkey ∧ is 0x04 c.wseq ∧
    is 0x05 (BitVec.ofNat 32 ((s.coreOf s.unit.g).exact.toNat + 2 * (s.coreOf s.unit.g).noco.toNat)) ∧
    is 0x06 c.tvec ∧ is 0x07 (if c.sup then 1 else 0) ∧ is 0x08 (c.tcause.setWidth 32) ∧ is 0x09 c.tval ∧ is 0x0A c.tvalh ∧
    is 0x0B (c.tlane.setWidth 32) ∧ is 0x0C c.tfaddr ∧ is 0x0D s.me.tepc ∧ is 0x0E (pairLo c.hset) ∧ is 0x0F (pairHi c.hset) ∧
    is 0x11 c.efault ∧ is 0x18 (BitVec.ofNat 32 s.now) ∧ is 0x19 (BitVec.ofNat 32 (s.now / 2 ^ 32)) ∧
    is 0x1A s.myTeam.teamId ∧ is 0x1B (BitVec.ofNat 32 s.me.index) ∧ is 0x1D (BitVec.ofNat 32 s.myTeam.core) ∧
    is 0x1C (BitVec.ofNat 32 (s.myExec.slot % 4096 + s.myExec.num.toNat % 2 ^ 20 * 4096)) ∧ is 0x1E (c.prio.setWidth 32) ∧
    (let g := s.me.seg
     is 0x20 (pairLo g.cb) ∧ is 0x21 (pairHi g.cb) ∧ is 0x22 (pairLo g.cl) ∧ is 0x23 (pairHi g.cl) ∧
     is 0x24 (pairLo g.gb) ∧ is 0x25 (pairHi g.gb) ∧ is 0x26 (pairLo g.gl) ∧ is 0x27 (pairHi g.gl) ∧
     is 0x28 g.sb ∧ is 0x29 g.sl ∧ is 0x2A (pairLo g.pb) ∧ is 0x2B (pairHi g.pb) ∧ is 0x2C g.pl ∧
     is 0x2D (pairLo g.kb) ∧ is 0x2E (pairHi g.kb) ∧ is 0x2F (pairLo g.kl) ∧ is 0x30 (pairHi g.kl)) ∧
    (s.pre.csr.sup = true → is 0x10 c.tscratch) ∧
    (s.pre.csr.sup = false → exec (.csrr d 0x10) s = .next (s.raise s.priv)) ∧
    (csrExists e.toNat = false → exec (.csrr d e) s = .next (s.raise s.illegal))

/-- CSRW writes the named register as its map allows, in user mode the four user registers, in supervisor mode the others (R251,
R252, R253, R254, R256, R270, R13). -/
def Obligations.ControlRegisterWrites : Prop :=
  ∀ (s : State) (a : Reg) (e : BitVec 7), s.clear (scalarNeed [(a.toNat, 1)] []) noCheck = true → s.acts ≠ [] →
    let w := s.rs a.toNat
    let c := s.me.csr
    let is := fun (n : BitVec 7) (x : Csrs) => MakesGroup (.csrw a n) s { s.me with csr := x }
    is 0x00 { c with spinp := c.spinp && !w.getLsbD 2, divv := c.divv && !w.getLsbD 1 } ∧
    is 0x02 { c with trapctl := w.setWidth 6 } ∧ is 0x03 { c with rngkey := w } ∧ is 0x11 { c with efault := w, ekept := false } ∧
    (s.pre.csr.sup = true →
      MakesGroup (.csrw a 0x01) s { s.me.flushLooks with csr := { s.me.flushLooks.csr with flags := w.setWidth 4 } } ∧
      is 0x06 { c with tvec := w &&& 0xFFFFFFFC } ∧ is 0x08 { c with tcause := w.setWidth 13 } ∧ is 0x09 { c with tval := w } ∧
      is 0x0A { c with tvalh := w } ∧ is 0x0B { c with tlane := w.setWidth 11 } ∧ is 0x0C { c with tfaddr := w } ∧
      is 0x10 { c with tscratch := w } ∧
      MakesGroup (.csrw a 0x0D) s { s.me with
        lanes := mapFrom (fun j l => if s.me.csr.hset.getLsbD j then { l with slpc := w } else l) 0 s.me.lanes } ∧
      (∃ t, exec (.csrw a 0x05) s = .next t ∧
        (t.coreOf s.unit.g) = { s.coreOf s.unit.g with exact := w.getLsbD 0, noco := w.getLsbD 1 } ∧
        (∀ k, k ≠ s.myTeam.core → t.core k = s.core k) ∧ (∀ j, j ≠ s.unit.g → t.grp j = s.grp j) ∧
        t.me = s.me.knows t.me ∧ (∀ x, t.byteAt x = s.byteAt x))) ∧
    (s.pre.csr.sup = false → csrSuper e.toNat = true → exec (.csrw a e) s = .next (s.raise s.priv)) ∧
    (csrUser e.toNat = false → csrSuper e.toNat = false → exec (.csrw a e) s = .next (s.raise s.illegal))

/-- ERET resumes the lanes of HSET at their saved lpc in user mode; HALT ends the team with its code; SEGLD replaces one segment
(R258, R260, R265, R269, R343). -/
def Obligations.ReturnHaltAndSegments : Prop :=
  ∀ (s : State) (a : Reg), s.pre.csr.sup = true →
    (s.clear (scalarNeed [] []) eretCheck = true →
      ∃ t, exec .eret s = .next t ∧ GroupAlone s t ∧ t.unit = { s.unit with moved := true } ∧
        (∀ j, j < s.me.lanes.length → t.me.lane j =
          if s.me.csr.hset.getLsbD j && (s.me.lane j).st != .exited then
            { s.me.lane j with lpc := (s.me.lane j).slpc, st := .run, wait := .nothing, clean := (s.me.lane j).slpc }
          else s.me.lane j) ∧
        t.me = { s.me with lanes := t.me.lanes, csr := { s.me.csr with sup := false }, ibuf := [] }) ∧
    (s.clear (scalarNeed [(a.toNat, 1)] []) noCheck = true →
      let w := s.rs a.toNat
      let b := bits w.toNat 0 8
      let c := bits s.me.csr.tcause.toNat 0 8
      ∃ t, exec (.halt a) s = .next t ∧ t.myTeam.dead = true ∧ (t.exec s.myTeam.exec).fenced = true ∧
        (s.myExec.fault = none → (t.exec s.myTeam.exec).fault =
          some ⟨if b ≠ 0 then b else if c ≠ 0 then c else 0x12, s.me.csr.tval, s.me.csr.tvalh, s.me.csr.tlane.setWidth 32,
            s.me.csr.tfaddr, s.myTeam.teamId, BitVec.ofNat 32 s.me.index, true⟩) ∧
        (∀ k, k ≠ s.me.team → t.team k = s.team k) ∧ (∀ j, j ≠ s.unit.g → t.grp j = s.grp j) ∧ (∀ x, t.byteAt x = s.byteAt x)) ∧
    (s.clear (scalarNeed [(a.toNat, 4)] []) noCheck = true →
      let base := s.rs2 a.toNat
      let limit := s.rs2 (a.toNat + 2)
      (base.toNat ≤ limit.toNat → limit.toNat ≤ 2 ^ 56 →
        MakesGroup (.segld a 0) s { s.me with seg := { s.me.seg with gb := base, gl := limit } } ∧
        MakesGroup (.segld a 2) s { s.me with seg := { s.me.seg with kb := base, kl := limit } }) ∧
      (limit.toNat % 32 = 0 → pairHi limit = 0 →
        MakesGroup (.segld a 1) s { s.me with seg := { s.me.seg with pb := base, pl := pairLo limit } }))

/-- With nothing outstanding ICINV, TLBINV and TLBINV.all complete at once and remove exactly the lines or translations named
(R137, R259). -/
def Obligations.Invalidations : Prop :=
  ∀ (s : State) (a e : Reg), s.me.hold = .none → s.pre.hold = .none → s.pre.unacked .pkg = false →
    let n := (s.rs e.toNat).toNat
    let base := (s.rs2 a.toNat).toNat
    let space := s.spaceOf s.unit.g
    (s.clear (scalarNeed [(a.toNat, 2), (e.toNat, 1)] []) noCheck = true →
      (∃ t, exec (.icinv a e) s = .next t ∧ t.me = s.me.knows t.me ∧ (∀ x, t.byteAt x = s.byteAt x) ∧ t.tlb = s.tlb ∧
        (n = 0 → ∀ c, (t.core c).icache = (s.core c).icache) ∧
        (0 < n → ∀ c, (t.core c).icache = (s.core c).icache.filter (fun w =>
          !((List.range (((base + n + 127) / 128 * 128 - base / 128 * 128) / 128)).filterMap
            (fun j => s.mapped space (base / 128 * 128 + 128 * j))).any (fun l => l / 128 == w.1 / 32)))) ∧
      (s.pre.csr.sup = true →
        ∃ t, exec (.tlbinv a e) s = .next t ∧ t.me = s.me.knows t.me ∧ (∀ x, t.byteAt x = s.byteAt x) ∧
          t.tlb = s.tlb.filter (fun c => !((c.space == space || pteG c.leaf) &&
            (decide (c.va < (if n = 0 then 0 else (base + n + 4095) / 4096 * 4096)) &&
              decide ((if n = 0 then 0 else base / 4096 * 4096) < c.va + c.size))))) ∧
      (s.pre.csr.sup = true →
        ∃ t, exec .tlbinvAll s = .next t ∧ t.me = s.me.knows t.me ∧ (∀ x, t.byteAt x = s.byteAt x) ∧
          t.tlb = s.tlb.filter (fun c => !(c.space == space || pteG c.leaf))))

/-- SHI: its words (MAJ 0x13, function in IMM bits 10:9, bits 8:5 zero, n in bits 4:0) and its effect, the named shift of A by n
(R94). -/
def Obligations.ShiftImmediate : Prop :=
  (∀ (c : Bool) (d a : Reg) (f : BitVec 2) (z : BitVec 4) (n : BitVec 5) (rest : List Word),
    let w := packI c 0x13 d a (f ++ z ++ n)
    let i : Instr := if f = 0 then .shiShl d a n else if f = 1 then .shiShrn d a n else if f = 2 then .shiShrs d a n else .shiRot d a n
    (z = 0 → decodeWords (w :: rest) = .ok ⟨i, c, 1⟩) ∧ (z ≠ 0 → ∃ e, decodeWords (w :: rest) = .error e)) ∧
  decodeWords [0x26183C03] = .ok ⟨.shiShrs 6 7 3, false, 1⟩ ∧
  (∀ (s : State) (d a : Reg) (n : BitVec 5), s.clear (need2 d.toNat a.toNat) noCheck = true →
    let b : Word := n.setWidth 32
    GivesWord (.shiShl d a n) s d (fun j => aluShl (s.rv j a.toNat) b) ∧
    GivesWord (.shiShrn d a n) s d (fun j => aluShrn (s.rv j a.toNat) b) ∧
    GivesWord (.shiShrs d a n) s d (fun j => aluShrs (s.rv j a.toNat) b) ∧
    GivesWord (.shiRot d a n) s d (fun j => aluRot (s.rv j a.toNat) b) ∧
    (∀ x : Word, aluShl x b = x <<< n.toNat ∧ aluShrn x b = x >>> n.toNat ∧ aluShrs x b = x.sshiftRight n.toNat ∧
      aluRot x b = x.rotateLeft n.toNat))

/-- SEL: its words (MAJ 0x0D, FN bits 2:0 pN, FN bit 3 a scalar B) and its effect, p[N] ? a : b in every ACTIVE lane (R99). -/
def Obligations.SelectByPredicate : Prop :=
  (∀ (c sc : Bool) (p : Pred) (d a b : Reg) (rest : List Word),
    decodeWords (packR c 0x0D (BitVec.ofBool sc ++ p) d a b :: rest) = .ok ⟨if sc then .selS p d a b else .sel p d a b, c, 1⟩) ∧
  decodeWords [0x1B614082] = .ok ⟨.selS 3 5 1 2, false, 1⟩ ∧
  (∀ (s : State) (sc : Bool) (p : Pred) (d a b : Reg), s.clear (need3 false sc d.toNat a.toNat b.toNat) noCheck = true →
    GivesWord (if sc then .selS p d a b else .sel p d a b) s d
      (fun j => if s.rp j p.toNat then s.rv j a.toNat else if sc then s.rs b.toNat else s.rv j b.toNat))

/-- ICMP: its words (MAJ 0x05 and 0x06, format F-R) and its effect, the predicate D set to the condition of the FN code (R92). -/
def Obligations.CompareIntegers : Prop :=
  let cmp : List (Pred → Reg → Reg → Instr) := [.icmpEq, .icmpNe, .icmpLts, .icmpLes, .icmpGts, .icmpGes, .icmpLtn, .icmpLen,
    .icmpGtn, .icmpGen, .icmpTst, .icmpNtst]
  let cmpS : List (Pred → Reg → Reg → Instr) := [.icmpEqS, .icmpNeS, .icmpLtsS, .icmpLesS, .icmpGtsS, .icmpGesS, .icmpLtnS, .icmpLenS,
    .icmpGtnS, .icmpGenS, .icmpTstS, .icmpNtstS]
  let holds : List (Word → Word → Bool) := [fun a b => a == b, fun a b => a != b, fun a b => a.slt b, fun a b => a.sle b,
    fun a b => b.slt a, fun a b => b.sle a, fun a b => a.ult b, fun a b => a.ule b, fun a b => b.ult a, fun a b => b.ule a,
    fun a b => (a &&& b) != 0, fun a b => (a &&& b) == 0]
  (∀ (c sc : Bool) (f : BitVec 4) (p : Pred) (z : BitVec 4) (a b : Reg) (rest : List Word),
    let w := packR c (if sc then 0x06 else 0x05) f (z ++ p) a b
    (z = 0 → ∀ k, (if sc then cmpS else cmp)[f.toNat]? = some k → decodeWords (w :: rest) = .ok ⟨k p a b, c, 1⟩) ∧
    ((z ≠ 0 ∨ 12 ≤ f.toNat) → ∃ e, decodeWords (w :: rest) = .error e)) ∧
  decodeWords [0x0A408082] = .ok ⟨.icmpLts 2 1 2, false, 1⟩ ∧
  (∀ (s : State) (sc : Bool) (d : Pred) (a b : Reg) (n : Nat) (k : Pred → Reg → Reg → Instr) (h : Word → Word → Bool),
    s.clear (needCmp sc a.toNat b.toNat) noCheck = true → (if sc then cmpS else cmp)[n]? = some k → holds[n]? = some h →
    GivesPred (k d a b) s d.toNat (fun j => h (s.rv j a.toNat) (if sc then s.rs b.toNat else s.rv j b.toNat)) (fun _ => 0))

/-- LDG, LDGI, LDP and LDK complete where no lane must wait; each part of each lane's access gives a version the memory model
allows (R158, R159, R160, R161, R293, R301, R306, R315, R327, R354, R455). -/
def Obligations.GlobalLoads : Prop :=
  ∀ (s : State) (la : La) (d a : Reg) (sz : Size) (os : Order) (x : Bool), d.toNat + sz.regs ≤ 128 →
    let n := sz.bytes
    let is := fun (i : Instr) (sp : VSpace) (m : LoadMode) =>
      let va := fun j => s.vaOf sp x a.toNat j
      let g := s.unit.g
      let R := fun j => s.phys .read (va j) n
      let inv := fun j => m.inv || (decide (s.pre.seg.kb.toNat ≤ va j) && decide (va j < s.pre.seg.kl.toNat))
      let least := fun (j : Nat) (l : Leaf) (key : Nat) => s.leastFor g (key / 8) ⟨.lane, inv j, through l⟩
      let latest := fun (key len : Nat) => overlay (s.stagedBytes g) key (s.natAt key len) len
      let ofVersion := fun (j : Nat) (l : Leaf) (key len hi N : Nat) => ∃ v, least j l key ≤ v ∧
        v ≤ max hi (s.published g (key / 8)) ∧
        N = overlay (s.ownBytes g .lane ++ s.stagedBytes g) key (partBytes ((s.part (key / 8)).at v) (key % 8) len) len
      s.clear ⟨(addrNeed sp x a.toNat).1, [(d.toNat, sz.regs)], (addrNeed sp x a.toNat).2, []⟩ (memCheck sp x a n .read) = true →
      s.acts.any (fun j => s.loadWaits .lane m.order (R j)) = false →
      ∃ t, exec i s = .next t ∧ t.unit = s.unit ∧ t.me.p = s.me.p ∧ t.me.s = s.me.s ∧ t.me.csr = s.me.csr ∧
        (∀ b, t.byteAt b = s.byteAt b ∨ t.byteAt b = s.byteAt b ||| 0x10) ∧
        (∀ j r, r < 128 → ¬(j ∈ s.acts ∧ d.toNat ≤ r ∧ r < d.toNat + sz.regs) →
          t.me.flushLooks.getV j r = s.me.flushLooks.getV j r) ∧
        (∀ j l key, s.acts = [j] → R j = [(l, key, n)] → key % 8 + n ≤ 8 →
          let home := Order.atHome m.order || uncached l
          MemoryBut s t l.key 1 ∧
          ∃ N, LoadResult s t la.toNat d.toNat sz.regs (fun _ k => (BitVec.ofNat 32 (N / 2 ^ (32 * k)), s.reads key)) ∧
            (home = true → N = latest key n) ∧ (home = false → ofVersion j l key n (least j l key) N)) ∧
        (s.acts ≠ [] → (∀ j ∈ s.acts, ∀ q ∈ runsOf (va j) n, q.2 = min n 8 ∧ s.olds s.space q.1 .read = [] ∧
            ∃ l, s.walk s.space q.1 = .leaf l ∧ pteA l.entry = true) →
          (∀ b, t.byteAt b = s.byteAt b) ∧
          ∃ (N : Nat → Nat → Nat) (bad : Nat → Nat → Bool),
            LoadResult s t la.toNat d.toNat sz.regs
              (fun j k => (BitVec.ofNat 32 (N j (k / 2) / 2 ^ (32 * (k % 2))), bad j (k / 2))) ∧
            ∀ j ∈ s.acts, ∀ q l key len, (R j)[q]? = some (l, key, len) → bad j q = s.reads key ∧
              (Order.atHome m.order = true ∨ uncached l = true → N j q = latest key len) ∧
              (Order.atHome m.order = false →
                (∀ i ∈ s.acts, ∀ r ∈ R i, uncached r.1 = false ∧ ∀ e ∈ (s.part (r.2.1 / 8)).versions, e.whole = false) →
                ofVersion j l key len (max (s.least g (key / 8) .lane) (fget 0 (s.grp g).lowThrough (key / 8))) (N j q)))
    is (.ldg la d a sz os x) .global ⟨os, false⟩ ∧ is (.ldgi la d a sz x) .global ⟨.rlx, true⟩ ∧
    is (.ldp la d a sz x) .priv ⟨.rlx, false⟩ ∧ is (.ldk la d a sz x) .constant ⟨.rlx, true⟩

/-- STG and STP put each lane's bytes in the group's store buffer, or in mode det_stores stage them; no register changes (R158,
R159, R160, R280, R289, R293, R305, R311, R319, R354). -/
def Obligations.GlobalStores : Prop :=
  ∀ (s : State) (d a : Reg) (sz : Size) (os : Order) (x : Bool),
    let n := sz.bytes
    let is := fun (i : Instr) (sp : VSpace) (o : Order) =>
      let va := fun j => s.vaOf sp x a.toNat j
      let W := fun j => s.phys .write (va j) n
      let data := fun j => s.storeData j d.toNat sz.regs % 2 ^ (8 * n)
      let staged := s.detMode = 2 ∧ o = .rlx ∧ sp = .global
      let r := s.detRoot s.myTeam.exec
      let runs := ∀ j ∈ s.acts, ∀ q ∈ runsOf (va j) n, q.2 = min n 8
      s.clear ⟨(d.toNat, sz.regs) :: (addrNeed sp x a.toNat).1, [], (addrNeed sp x a.toNat).2, []⟩ (memCheck sp x a n .write) = true →
      (staged → s.stageFull (s.acts.flatMap W).length = false) →
      ∃ t, exec i s = .next t ∧ RegsKept s t ∧ t.unit = { s.unit with effect := true } ∧
        (∀ b, (∀ j ∈ s.acts, ∀ w ∈ W j, b ≠ w.1.key) → t.byteAt b = s.byteAt b) ∧
        (∀ j l key, s.acts = [j] → W j = [(l, key, n)] → key % 8 + n ≤ 8 → ¬ staged →
          t.me.stores = s.me.stores ++
            [⟨cellsOf key (data j) n, Order.scope o, s.me.fences, s.tick, uncached l, false, l.plane key, false, 0, false, none, 0, []⟩]) ∧
        (¬ staged → runs → ∀ u, (∀ j ∈ s.acts, ∀ w ∈ W j, uncached w.1 = u) →
          ∃ new, t.me.stores = s.me.stores ++ new ∧
            (∀ q ∈ new, q.release = Order.scope o ∧ q.cum = s.me.fences ∧ q.time = s.tick ∧ q.uncached = u ∧ q.rsvs = false ∧
              q.sent = false ∧ q.acked = false ∧ q.applied = none ∧
              ∀ c ∈ q.cells, ∃ j ∈ s.acts, ∃ w ∈ W j, w.2.1 ≤ c.1 ∧ c.1 < w.2.1 + w.2.2) ∧
            ∀ j ∈ s.acts, ∀ k l key len b, (W j)[k]? = some (l, key, len) → b < len →
              (∀ i ∈ s.acts, j < i → ∀ w ∈ W i, key + b < w.2.1 ∨ w.2.1 + w.2.2 ≤ key + b) →
              (∀ m w, (W j)[m]? = some w → k < m → key + b < w.2.1 ∨ w.2.1 + w.2.2 ≤ key + b) →
              lastOf (new.flatMap Request.cells) (key + b) = some (BitVec.ofNat 8 (bits (data j) (8 * (8 * k + b)) 8))) ∧
        (staged → t.me.stores = s.me.stores ∧ (runs → s.myExec.discards = false →
          (t.exec r).staged = (s.exec r).staged ++ s.acts.flatMap (fun j => mapFrom (fun k (w : Leaf × Nat × Nat) =>
            (s.myTeam.teamId.toNat, (⟨s.me.index, .exch, w.2.1, w.2.2, BitVec.ofNat 64 (bits (data j) (64 * k) (8 * w.2.2)), true,
              s.me.epoch, s.me.seq, j, isHost w.2.1, none, s.tick, s.myTeam.exec, w.1.plane w.2.1, none⟩ : RedEntry))) 0 (W j))))
    is (.stg d a sz os x) .global os ∧ is (.stp d a sz x) .priv .rlx

/-- LDS, LDS.tag, STS, STS.sfull and STS.sempty read and write the words of the team's scratchpad and their tags, and nothing
else (R158, R159, R162, R314, R454, R19).
That a form that writes tags waits for the group's releases and fences is the model's reading of R314 (log entry 69). -/
def Obligations.ScratchAccesses : Prop :=
  ∀ (s : State) (la : La) (d a : Reg) (sz : Size) (x : Bool), d.toNat + sz.regs ≤ 128 →
    let n := sz.bytes
    let o := fun j => s.scratchOff x a.toNat j
    let W := fun j => wordsAt (o j) n
    let T := s.myTeam
    let stored := fun (t : State) => RegsKept s t ∧ (∀ b, t.byteAt b = s.byteAt b) ∧ t.unit = { s.unit with effect := true }
    let data := fun (t : State) =>
      (∀ w, (∀ j ∈ s.acts, w ∉ W j) → t.myTeam.word w = T.word w ∧ t.myTeam.bad w = T.bad w) ∧
      (4 ≤ n → ∀ j ∈ s.acts, ∀ k, k < sz.regs → (∀ i ∈ s.acts, j < i → o j / 4 + k ∉ W i) →
        t.myTeam.word (o j / 4 + k) = s.rv j (d.toNat + k) ∧ t.myTeam.bad (o j / 4 + k) = false) ∧
      (n < 4 → ∀ j, s.acts = [j] → t.myTeam.bad (o j / 4) = T.bad (o j / 4) ∧ ∀ b, b < 4 →
        byteOf (t.myTeam.word (o j / 4)) b =
          if o j % 4 ≤ b ∧ b < o j % 4 + n then byteOf (s.rv j d.toNat) (b - o j % 4) else byteOf (T.word (o j / 4)) b)
    (s.clear (scratchNeed x a.toNat [] [(d.toNat, 1)]) (scratchCheck x a 4) = true →
      ∃ t, exec (.ldsTag la d a x) s = .next t ∧ OnlyGroup s t ∧ t.unit = s.unit ∧ t.me.csr = s.me.csr ∧
        LoadResult s t la.toNat d.toNat 1 (fun j _ => (if T.full (o j / 4) then 1 else 0, false))) ∧
    (T.fogs.any (fun f => (s.acts.flatMap W).contains f.word) = false →
      (s.clear (scratchNeed x a.toNat [] [(d.toNat, sz.regs)]) (scratchCheck x a n) = true →
        ∃ t, exec (.lds la d a sz x) s = .next t ∧ OnlyGroup s t ∧ t.unit = s.unit ∧ t.me.csr = s.me.csr ∧
          LoadResult s t la.toNat d.toNat sz.regs (fun j k => nth (0, false) (T.read (o j) n) k)) ∧
      (s.clear (scratchNeed x a.toNat [(d.toNat, sz.regs)] []) (scratchCheck x a n) = true →
        (∃ t, exec (.sts d a sz x) s = .next t ∧ stored t ∧ data t ∧ ∀ w, t.myTeam.full w = T.full w) ∧
        (s.handsOff s.unit.g = true → ∃ t, exec (.stsSfull d a sz x) s = .next t ∧ stored t ∧ data t ∧
          ∀ w, t.myTeam.full w = (T.full w || (s.acts.flatMap W).contains w))) ∧
      (s.clear (scratchNeed x a.toNat [] []) (scratchCheck x a n) = true → s.handsOff s.unit.g = true →
        ∃ t, exec (.stsSempty a sz x) s = .next t ∧ stored t ∧ ∀ w, t.myTeam.word w = T.word w ∧ t.myTeam.bad w = T.bad w ∧
          t.myTeam.full w = (T.full w && !(s.acts.flatMap W).contains w)))

/-- LDS.wfull, LDS.wfull_empty and STS.wefull complete for the lanes whose words have the tag they wait for; else they wait
(R17, R162, R163, R314, R454).
That a form that writes tags waits for the group's releases and fences is the model's reading of R314 (log entry 69). -/
def Obligations.ScratchWaitingAccesses : Prop :=
  ∀ (s : State) (la : La) (d a : Reg) (sz : Size) (x : Bool), d.toNat + sz.regs ≤ 128 → 4 ≤ sz.bytes →
    let n := sz.bytes
    let o := fun j => s.scratchOff x a.toNat j
    let W := fun j => wordsAt (o j) n
    let T := s.myTeam
    let waits := fun (i : Instr) => ∃ t, exec i s = .next t ∧ RegsKept s t ∧ t.teams = s.teams ∧ t.unit.blocked = true ∧
      (∀ b, t.byteAt b = s.byteAt b)
    T.fogs.any (fun f => (s.acts.flatMap W).contains f.word) = false →
    (s.clear (scratchNeed x a.toNat [] [(d.toNat, sz.regs)]) (scratchCheck x a n) = true →
      ((∀ j ∈ s.acts, ∀ w ∈ W j, T.full w = true) →
        ∃ t, exec (.ldsWfull la d a sz x) s = .next t ∧ OnlyGroup s t ∧ t.unit = s.unit ∧ t.me.csr = s.me.csr ∧
          LoadResult s t la.toNat d.toNat sz.regs (fun j k => nth (0, false) (T.read (o j) n) k)) ∧
      (s.handsOff s.unit.g = false →
        waits (.ldsWfullEmpty la d a sz x)) ∧
      (∀ j, s.acts = [j] → (∀ w ∈ W j, T.full w = true) → s.handsOff s.unit.g = true →
        ∃ t, exec (.ldsWfullEmpty la d a sz x) s = .next t ∧ t.unit = { s.unit with effect := true } ∧
          (∀ b, t.byteAt b = s.byteAt b) ∧ t.me.csr = s.me.csr ∧
          LoadResult s t la.toNat d.toNat sz.regs (fun j k => nth (0, false) (T.read (o j) n) k) ∧
          ∀ w, t.myTeam.word w = T.word w ∧ t.myTeam.bad w = T.bad w ∧ t.myTeam.full w = (T.full w && !(W j).contains w)) ∧
      (s.acts ≠ [] → (∀ j ∈ s.acts, ∃ w ∈ W j, T.full w = false) →
        waits (.ldsWfull la d a sz x) ∧ waits (.ldsWfullEmpty la d a sz x))) ∧
    (s.clear (scratchNeed x a.toNat [(d.toNat, sz.regs)] []) (scratchCheck x a n) = true →
      (s.handsOff s.unit.g = false → waits (.stsWefull d a sz x) ∧ waits (.stsSfull d a sz x)) ∧
      (∀ j, s.acts = [j] → (∀ w ∈ W j, T.full w = false) → s.handsOff s.unit.g = true →
        ∃ t, exec (.stsWefull d a sz x) s = .next t ∧ RegsKept s t ∧ t.unit = { s.unit with effect := true } ∧
          (∀ b, t.byteAt b = s.byteAt b) ∧
          (∀ k, k < sz.regs → t.myTeam.word (o j / 4 + k) = s.rv j (d.toNat + k) ∧ t.myTeam.bad (o j / 4 + k) = false) ∧
          (∀ w, w ∉ W j → t.myTeam.word w = T.word w ∧ t.myTeam.bad w = T.bad w) ∧
          ∀ w, t.myTeam.full w = (T.full w || (W j).contains w)) ∧
      (s.acts ≠ [] → (∀ j ∈ s.acts, ∃ w ∈ W j, T.full w = true) → waits (.stsWefull d a sz x)))

/-- ATOM of one lane on device memory: D receives the old value (and the sequence word), the location the function of old and b
(R279, R282, R283, R284, R285, R286, R293, R354). -/
def Obligations.Atomics : Prop :=
  ∀ (s : State) (la : La) (d a b : Reg) (oss osf : Order) (s8 T : Bool) (cmp : Reg) (j : Nat) (l : Leaf) (key : Nat),
    s.acts = [j] → s.me.hold = .none → s.atomPhys (s.rv2 j a.toNat).toNat = some (l, key) → isHost key = false →
    s.atomWaits oss [(l, key)] = false → s.marked key = false → s.dieC.stopped = false → pteW l.entry = true →
    pteA l.entry = true → pteD l.entry = true →
    let N := fun (n : Nat) => s.natAt key n
    let B := fun (n : Nat) => s.atomOperand j b.toNat n
    let C := fun (n : Nat) => s.atomOperand j cmp.toNat n
    let q := fget 0 s.wcount (sliceOf key) + 1
    let words := fun (n : Nat) (seq : Word) (_ k : Nat) => (if k < n / 4 then BitVec.ofNat 32 (N n / 2 ^ (32 * k)) else seq, false)
    let regs := fun (n : Nat) => n / 4 + if T then 1 else 0
    let ready := fun (fn : AtomFn) (n c : Nat) => d.toNat + regs n ≤ 128 ∧ key % n = 0 ∧ (AtomFn.floats fn = true → s.detMode = 0) ∧
      s.clear (AtomOp.need ⟨fn, n, d.toNat, a.toNat, b.toNat, c, oss, osf, T⟩) (atomCheck fn (fn != .cas) a.toNat n) = true
    let writes := fun (i : Instr) (n v : Nat) => ∃ t, exec i s = .next t ∧ t.unit = { s.unit with effect := true } ∧
      LoadResult s t la.toNat d.toNat (regs n) (words n q) ∧ t.me.csr = { s.me.csr with wseq := q } ∧
      t.natAt key n = v ∧ MemoryBut s t key n
    let is := fun (i : Instr) (fn : AtomFn) (n v : Nat) => ready fn n 0 → writes i n v
    let n := if s8 then 8 else 4
    let S := fun (x : Nat) => signedOf n x
    let w := fun (x : Nat) => BitVec.ofNat 32 x
    is (.atomAdd la d a b oss s8 T) .add n ((N n + B n) % 2 ^ (8 * n)) ∧
    is (.atomAnd la d a b oss s8 T) .and n (Nat.land (N n) (B n)) ∧
    is (.atomOr la d a b oss s8 T) .or n (Nat.lor (N n) (B n)) ∧
    is (.atomXor la d a b oss s8 T) .xor n (Nat.xor (N n) (B n)) ∧
    is (.atomMins la d a b oss s8 T) .mins n (if S (N n) ≤ S (B n) then N n else B n) ∧
    is (.atomMaxs la d a b oss s8 T) .maxs n (if S (N n) ≤ S (B n) then B n else N n) ∧
    is (.atomMinn la d a b oss s8 T) .minn n (min (N n) (B n)) ∧
    is (.atomMaxn la d a b oss s8 T) .maxn n (max (N n) (B n)) ∧
    is (.atomExch la d a b oss s8 T) .exch n (B n) ∧
    is (.atomFadd la d a b oss T) .fadd 4 (Machine.fadd (w (N 4)) (w (B 4))).1.toNat ∧
    is (.atomBfadd2 la d a b oss T) .bfadd2 4 (bfadd2 (w (N 4)) (w (B 4))).toNat ∧
    is (.atomMaxa la d a b oss T) .maxa 4 (maxaWord (w (N 4)) (w (B 4))).toNat ∧
    (ready .cas n cmp.toNat →
      (N n = C n → writes (.atomCas la d a b oss osf s8 T cmp) n (B n)) ∧
      (N n ≠ C n → ∃ t, exec (.atomCas la d a b oss osf s8 T cmp) s = .next t ∧ t.unit = { s.unit with effect := true } ∧
        LoadResult s t la.toNat d.toNat (regs n) (words n (fget 0 s.wcount (sliceOf key))) ∧ t.me.csr = s.me.csr ∧
        ∀ x, t.byteAt x = s.byteAt x))

/-- RED enters the contribution in the reduction buffer, or stages it in a deterministic mode; REDFLUSH ends the epoch or goes
on (R287, R288, R289, R290, R293, R295, R354). -/
def Obligations.Reductions : Prop :=
  (∀ (s : State) (os : Order) (s8 : Bool) (a b : Reg) (j : Nat) (l : Leaf) (key : Nat),
    s.acts = [j] → s.atomPhys (s.rv2 j a.toNat).toNat = some (l, key) → isHost key = false →
    let c := s.myTeam.core
    let r := s.detRoot s.myTeam.exec
    let is := fun (i : Instr) (fn : AtomFn) (n : Nat) =>
      s.clear ⟨[(a.toNat, 2), (b.toNat, n / 4)], [], [], []⟩ (atomCheck fn true a.toNat n) = true →
      let x := BitVec.ofNat 64 (s.atomOperand j b.toNat n)
      (s.detMode = 0 → s.redFree ≠ 0 →
        Keeps i s (fun t => t.unit = { s.unit with effect := true } ∧ MemoryBut s t l.key 1 ∧ t.me.redsOut = s.me.redsOut + 1 ∧
          (t.core c).reds = (s.core c).reds ++
            [⟨s.unit.g, fn, key, n, x, false, 0, 0, j, false, Order.scope os, s.tick, s.myTeam.exec, l.plane key, none⟩])) ∧
      (s.detMode ≠ 0 → s.myExec.discards = false → s.redFree ≠ 0 →
        Keeps i s (fun t => t.unit = { s.unit with effect := true } ∧ MemoryBut s t l.key 1 ∧ t.me.seq = (s.me.seq + 1) % 2 ^ 32 ∧
          (t.exec r).staged = (s.exec r).staged ++ [(s.myTeam.teamId.toNat,
            ⟨s.me.index, fn, key, n, x, false, s.me.epoch, s.me.seq, j, false, none, s.tick, s.myTeam.exec, l.plane key, none⟩)]))
    let n := if s8 then 8 else 4
    is (.redAdd os s8 a b) .add n ∧ is (.redAnd os s8 a b) .and n ∧ is (.redOr os s8 a b) .or n ∧ is (.redXor os s8 a b) .xor n ∧
    is (.redMins os s8 a b) .mins n ∧ is (.redMaxs os s8 a b) .maxs n ∧ is (.redMinn os s8 a b) .minn n ∧
    is (.redMaxn os s8 a b) .maxn n ∧ is (.redFadd os a b) .fadd 4 ∧ is (.redBfadd2 os a b) .bfadd2 4 ∧ is (.redMaxa os a b) .maxa 4) ∧
  (∀ s : State,
    (s.detMode = 0 → s.pre.redsOut = 0 → s.me.hold = .none → s.pre.hold = .none → exec .redflush s = .next s) ∧
    (s.detMode ≠ 0 → Keeps .redflush s (fun t => t.me.epoch = s.me.epoch + 1 ∧ t.unit = { s.unit with effect := true } ∧
      ∀ x, t.byteAt x = s.byteAt x)))

/-- PHASE publishes what the group knows and renews its view; FENCE.rel, .acq and .ar and XFENCE do so as R311 and R313 say
(R193, R302, R309, R310, R311, R312, R313, R300). -/
def Obligations.Fences : Prop :=
  ∀ (s : State) (sc : Scope) (a : Reg), s.me.hold = .none → s.pre.hold = .none →
    let g := s.unit.g
    let A := s.agent g
    let same := fun (t : State) => t.unit = s.unit ∧ ∀ x, t.byteAt x = s.byteAt x
    let renewed := fun (t : State) => ∀ e ∈ s.parts, ∀ q ∈ e.2.pubs, q.reaches A = true → within sc A q.owner = true →
      ((isHost (8 * e.1) = true → sc = .sys) → q.upTo ≤ fget 0 t.me.low e.1) ∧
      (isHost (8 * e.1) = true → sc ≠ .sys → q.upTo ≤ fget 0 t.me.lowThrough e.1)
    (s.pre.unacked sc = false →
      Keeps (.phase sc) s (fun t => same t ∧ renewed t ∧ ∀ e ∈ s.parts, 0 < s.published g e.1 →
        ∃ q ∈ (t.part e.1).pubs, q.owner = A ∧ q.reach = .scope sc ∧ s.published g e.1 ≤ q.upTo)) ∧
    MakesGroup (.fenceRel sc) s { s.me with fences := s.me.fences ++ [⟨sc, s.tick, s.cumulative g sc⟩] } ∧
    (s.pre.returned = true →
      (∃ t, exec (.fenceAcq sc) s = .next t ∧ OnlyGroup s t ∧ t.unit = s.unit ∧ t.me = { s.me.flushLooks with low := t.me.low, lowThrough := t.me.lowThrough } ∧ renewed t) ∧
      (∃ t, exec (.fenceAr sc) s = .next t ∧ OnlyGroup s t ∧ t.unit = s.unit ∧ renewed t ∧
        t.me = { s.me.flushLooks with
          low := t.me.low, lowThrough := t.me.lowThrough, fences := s.me.fences ++ [⟨sc, s.tick, s.cumulative g sc⟩] })) ∧
    (s.clear ⟨[], [], [(a.toNat, 1)], []⟩ noCheck = true →
      let src := bits (s.rs a.toNat).toNat 0 11
      let dst := bits (s.rs a.toNat).toNat 16 11
      (src = 0 ∨ dst = 0 → MakesGroup (.xfence a sc) s s.me) ∧
      (src ≠ 0 → dst ≠ 0 → s.pre.fenceWaits src dst sc = false →
        Keeps (.xfence a sc) s (fun t => same t ∧ ∃ w f, t.me.counted = s.me.counted ++ [(sc, w)] ∧
          t.me.fenced = s.me.fenced ++ [(BitVec.ofNat 11 dst, f)] ∧
          (∀ c ∈ s.me.learnt, src.testBit c.path = true → ∀ q ∈ c.writes, q.2 ≤ fget 0 w q.1 ∧ q.2 ≤ fget 0 f q.1 ∧
            (dst.testBit 0 = true → q.2 ≤ fget 0 t.me.toldLane q.1) ∧ (dst.testBit 5 = true → q.2 ≤ fget 0 t.me.toldRsvs q.1)) ∧
          (src.testBit 0 = true → ∀ q ∈ s.me.lowLane, q.2 ≤ fget 0 f q.1) ∧
          (src.testBit 5 = true → ∀ q ∈ s.me.lowRsvs, q.2 ≤ fget 0 f q.1))))

/-- BAR, WAITB and GBAR leave their lanes BARRED while others of the group run on; EXIT leaves them EXITED with their successor
(R165, R166, R264, R314, R422, R133, R135, R9).
That BAR waits for the group's releases and fences, and what it publishes as it goes, is the model's reading of R314 (log
entry 69). -/
def Obligations.BarrierWaits : Prop :=
  ∀ (s : State) (d : Pred) (a : Reg) (f : Bool) (b : BitVec 4) (n : BitVec 3),
    let B := s.myTeam.bar b.toNat
    let c := s.rs a.toNat
    let stays := (∃ i ∈ s.me.live, s.unit.mask.getLsbD i = false ∧ (s.me.lane i).st ≠ .barred) ∧
      (∀ i ∈ s.me.live, (s.me.lane i).bar.pkg = false) ∧ s.unit.g ∈ s.unretired s.me.team
    let lanes := fun (i : Instr) (base : State) (new : Lane → Lane) (t : State) => exec i s = .next t ∧ OnlyGroup base t ∧ t.unit = s.unit ∧
      RegsKept s t ∧ (∀ j, j < s.me.lanes.length → s.unit.mask.getLsbD j = true → t.me.lane j = new (s.me.lane j)) ∧
      (∀ j, s.unit.mask.getLsbD j = false → (t.me.lane j).st = (s.me.lane j).st ∧ (t.me.lane j).lpc = (s.me.lane j).lpc)
    let bars := fun (i : Instr) (base : State) (w : BarWait) => ∃ t, lanes i base (fun l => { l with st := .barred, bar := w }) t
    (s.pre.csr.sup = false → s.clear (barNeed a []) noCheck = true →
      (stays →
        (s.handsOff s.unit.g = true → bars (.bar d a f b) (s.handOver s.unit.g) ⟨b.toNat, false, B.phase, s.unit.addr, s.unit.next, d, true, c, f⟩) ∧
        bars (.gbar d a b) s ⟨b.toNat, true, (s.myExec.gbar b.toNat).phase, s.unit.addr, s.unit.next, d, true, c, false⟩ ∧
        (B.phase = c → bars (.waitb d a b) s ⟨b.toNat, false, c, s.unit.addr, s.unit.next, d, false, 0, false⟩)) ∧
      (B.phase ≠ c → GivesPred (.waitb d a b) s d.toNat (fun _ => true) (fun _ => 0))) ∧
    (stays → s.myTeam.tmoff = none →
      ∃ t, lanes (.exit n) s (fun l => { l with st := .exited }) t ∧
        t.me.exits = s.me.exits ++ s.acts.map (fun i => (i, n.toNat, s.unit.addr)))

/-- The BAR of a group's last lanes arrives; the arrival that reaches the count ends the phase, and its lanes run on with p[D]
true (R165, R166, R264, R314).
That BAR and ARRIVE wait for the group's releases and fences is the model's reading of R314 (log entry 69). -/
def Obligations.BarrierCompletes : Prop :=
  ∀ (s : State) (d : Pred) (e a : Reg) (f : Bool) (b : BitVec 4), s.pre.csr.sup = false →
    let k := s.me.team
    let B := s.myTeam.bar b.toNat
    let c := s.rs a.toNat
    s.unit.g ∈ s.unretired k → c.toNat ≤ 32 → (B.expect = none ∨ B.expect = some c) → s.detTeam k = false →
    let done : Barrier := ⟨B.phase + 1, 0, none, [], false⟩
    let held := fun (i : Instr) => s.handsOff s.unit.g = false → (∀ q ∈ s.me.stores, q.time ≠ s.tick) →
      (∀ q ∈ (s.coreOf s.unit.g).reds, q.group = s.unit.g → q.time ≠ s.tick) → ∃ t, exec i s = .next t ∧ t.unit.blocked = true ∧ RegsKept s t ∧ t.teams = s.teams ∧ ∀ x, t.byteAt x = s.byteAt x
    (s.clear (barNeed a []) noCheck = true → held (.bar d a f b)) ∧ (s.clear (barNeed a [(e.toNat, 1)]) noCheck = true → held (.arrive e a b)) ∧
    (s.handsOff s.unit.g = true →
    let others := fun (t : State) => t.unit = s.unit ∧ (∀ x, t.byteAt x = s.byteAt x) ∧ t.me.v = s.me.v ∧
      (∀ i, i ≠ b.toNat → t.myTeam.bar i = s.myTeam.bar i)
    (s.clear (barNeed a []) noCheck = true → (∃ i, i < s.me.width ∧ s.unit.mask.getLsbD i = true) →
      (∀ i, i < s.me.width → if s.unit.mask.getLsbD i then (s.me.lane i).st = .run else (s.me.lane i).st = .exited ∨ (s.me.lane i).st = .absent) →
      s.needAt k c ≤ B.count + 1 →
      ∃ t, exec (.bar d a f b) s = .next t ∧ others t ∧ t.me.s = s.me.s ∧ t.myTeam.bar b.toNat = done ∧
        (∀ i, i < s.me.width → s.unit.mask.getLsbD i = true →
          (t.me.lane i).st = .run ∧ (t.me.lane i).lpc = s.unit.next ∧ t.me.getP i d.toNat = true)) ∧
    (s.clear (barNeed a [(e.toNat, 1)]) noCheck = true → (∃ i ∈ s.me.live, (s.me.lane i).st ≠ .barred) →
      ∃ t, exec (.arrive e a b) s = .next t ∧ others t ∧ (e.toNat ≠ 127 → t.me.getS e.toNat = B.phase) ∧
        t.myTeam.bar b.toNat = if s.needAt k c ≤ B.count + 1 then done
          else { B with count := B.count + 1, expect := some c, came := B.came ++ [s.unit.g] }))

/-- TIDSET puts an accepted descriptor in its slot, TIDINV makes the slot invalid, TIDQ reads it; no other slot changes (R173,
R174, R171, R175). -/
def Obligations.TensorTable : Prop :=
  ∀ (s : State) (a d : Reg) (t : Tid) (w : BitVec 5) (scr : Bool),
    let slots := fun (u : State) (x : TensorSlot) => ∀ n, u.myTeam.slot n = if n = t.toNat then x else s.myTeam.slot n
    let addr := if scr then (s.rs a.toNat).toNat else (s.rs2 a.toNat).toNat
    let read := (s.effect.tidRead scr addr).2
    (s.clear (scalarNeed [(a.toNat, if scr then 1 else 2)] []) (tidCheck scr a.toNat) = true → s.me.hold = .none → s.pre.hold = .none →
      s.me.unread = [] → (scr || !(s.onMe (fun g => { g with stores := s.pre.stores })).loadWaits .lane .rlx (s.descRuns addr)) = true → descFault t.toNat read = none →
      ∃ u, exec (.tidset scr a t) s = .next u ∧ RegsKept s u ∧ slots u (some (read.map Prod.fst)) ∧
        (scr = true → s.myTeam.fogs.any (fun f => ((List.range 32).map (fun j => addr / 4 + j)).contains f.word) = false →
          (∀ b, u.byteAt b = s.byteAt b) ∧
          read = (List.range 32).map (fun j => (s.myTeam.word (addr / 4 + j), s.myTeam.bad (addr / 4 + j))))) ∧
    Keeps (.tidinv t) s (fun u => slots u none ∧ ∀ b, u.byteAt b = s.byteAt b) ∧
    (s.clear (scalarNeed [] [(d.toNat, 1)]) noCheck = true →
      GivesScalar (.tidq d w t) s d.toNat 1 (fun _ => match s.myTeam.slot t.toNat with
        | none => 0
        | some x => nth 0 x w.toNat ||| (if w.toNat = 0 then 0x80000000 else 0)))

/-- QPUSH, QPOP, QTRY and QCNT on a queue that is neither full nor empty append, take or count its entries; QTRY of an empty one
says so (R188, R189, R191, R363). -/
def Obligations.Queues : Prop :=
  ∀ (s : State) (q : BitVec 4) (a d : Reg) (p : Pred),
    let Q := s.me.queue q.toNat
    let same := fun (t : State) => t.unit = { s.unit with effect := true } ∧ (∀ b, t.byteAt b = s.byteAt b) ∧
      (∀ j, j ≠ s.unit.g → t.grp j = s.grp j) ∧ t.me.s = s.me.s ∧ t.me.csr = s.me.csr ∧ t.me.seg = s.me.seg ∧
      (∀ r, r ≠ q.toNat → t.me.queue r = s.me.queue r)
    let pops := fun (i : Instr) => ∀ e es, Q = e :: es → ∃ t, exec i s = .next t ∧ same t ∧ t.me.queue q.toNat = es ∧
      (∀ j ∈ s.acts, p.toNat ≠ 7 → t.me.getP j p.toNat = e.mask.getLsbD j) ∧
      (∀ j r, r < 8 → ¬(j ∈ s.acts ∧ r = p.toNat) → t.me.getP j r = s.me.getP j r) ∧
      (∀ j ∈ s.acts, e.mask.getLsbD j = true → ∀ k, k < 8 →
        t.me.getV j (d.toNat + k) = fget 0 e.words (8 * j + k) ∧ t.me.vPoison j (d.toNat + k) = fget false e.poison (8 * j + k)) ∧
      (∀ j r, r < 128 → ¬(j ∈ s.acts ∧ e.mask.getLsbD j = true ∧ d.toNat ≤ r ∧ r < d.toNat + 8) → t.me.getV j r = s.me.getV j r)
    (s.clear ⟨[(a.toNat, 8)], [], [], []⟩ (queueCheck pushOk true q.toNat) = true → Q.length < 4 →
      ∃ t, exec (.qpush q a) s = .next t ∧ same t ∧ t.me.queue q.toNat = Q ++ [s.entryOf a.toNat] ∧ t.me.v = s.me.v ∧
        t.me.p = s.me.p ∧ t.me.asked = s.me.asked.drop 1) ∧
    (s.clear (popNeed d) (queueCheck popOk false q.toNat) = true → d.toNat + 8 ≤ 128 →
      pops (.qpop d q p) ∧ pops (.qtry d q p) ∧
      (Q = [] → GivesPred (.qtry d q p) s p.toNat (fun _ => false) (fun _ => 0))) ∧
    (s.clear (scalarNeed [] [(d.toNat, 1)]) (queueCheck countOk false q.toNat) = true →
      let n := q.toNat
      GivesScalar (.qcnt d q) s d.toNat 1 (fun _ => BitVec.ofNat 32
        (if n = 1 ∨ n = 3 ∨ n = 5 ∨ n = 6 then Q.length else if n = 7 then 4 - Q.length else 4 - fget 0 s.me.owed n)))

/-- TRACE, TRACEV, TRACERC and LTWALK push one request of the ACTIVE lanes, with the slot's descriptor, to q0, q2, q2 and q4
(R189, R190, R228, R241, R175). -/
def Obligations.RayAndLightRequests : Prop :=
  ∀ (s : State) (tid : Tid) (a : Reg) (mask : BitVec 8) (flags : BitVec 2) (tag : BitVec 8),
    let is := fun (i : Instr) (kind q : Nat) (rc : Bool) (m f : Nat) =>
      s.clear ⟨[(a.toNat, 8)], [], [], []⟩
        (fun s j => if j = s.lead then s.slotCause [⟨tid.toNat, true, false, [kind], fun _ => true, fun _ => 0⟩] else none) = true →
      fget 0 s.me.owed q < 4 →
      Keeps i s (fun t => t.unit = { s.unit with effect := true } ∧ (∀ b, t.byteAt b = s.byteAt b) ∧
        (∀ j, j ≠ s.unit.g → t.grp j = s.grp j) ∧ (∀ r, fget 0 t.me.owed r = fget 0 s.me.owed r + if r = q then 1 else 0) ∧
        t.me.rays = s.me.rays ++
          [⟨q, rc, s.descOf tid.toNat, m, f, tag.toNat, s.entryOf a.toNat, s.me.seg, (s.coreOf s.unit.g).exact, s.pathFloors s.unit.g 3⟩])
    is (.trace tid a mask flags tag) 3 0 false mask.toNat flags.toNat ∧
    is (.tracev tid a mask flags tag) 3 2 false mask.toNat flags.toNat ∧
    is (.tracerc tid a mask flags tag) 3 2 true mask.toNat flags.toNat ∧
    is (.ltwalk tid a tag) 4 4 false 0 0

/-- TCOPY and TUN queue one command with what it reads at issue, and its token is pending (R45, R176, R177, R178, R179, R185,
R186, R200, R202, R203, R217). -/
def Obligations.CopyAndArrayCommands : Prop :=
  ∀ (s : State) (tid tid2 : Tid) (cs off tok : Reg) (x : Xpose) (e24 bank t5 acc : Bool) (m1 row : BitVec 7),
    let c := s.myTeam.core
    let xn := match x with | .none => 0 | .x8 => 1 | .x16 => 2
    let copy := fun (i : Instr) (mode : Nat) (off : Reg) (g : Nat) =>
      let rs := s.coordRun tid.toNat cs.toNat ++ if mode = modePf then [] else [(off.toNat, 1)]
      s.bulkClear rs (copyCheck mode xn e24 tid.toNat cs.toNat off.toNat g s) tok = true →
      (s.core c).copies.length < 32 →
      Issues i s tok (fun t => (t.core c).copies = (s.core c).copies ++
        [(s.learn (expand rs)).copyCmd mode xn e24 tid.toNat cs.toNat off.toNat tok.toNat g])
    let array := fun (i : Instr) (o : TunOp) =>
      s.bulkClear o.scalars (o.check s) tok = true → (s.core c).tun.queue.length < 16 →
      Issues i s tok (fun t => (t.core c).tun = { (s.core c).tun with queue := (s.core c).tun.queue ++ [o.cmd (s.learn (expand o.scalars))] })
    copy (.tcopyTile tid cs off x e24 tok) modeTile off 0 ∧ copy (.tcopyStore tid cs off x e24 tok) modeStore off 0 ∧
    copy (.tcopyWin tid cs off x e24 tok) modeWin off 0 ∧ copy (.tcopyGather tid cs off x e24 tok tid2) modeGather off tid2.toNat ∧
    copy (.tcopyPf tid cs x e24 tok) modePf 127 0 ∧
    array (.tunLdw tid cs tok bank t5) ⟨0, tid.toNat, cs.toNat, tok, bank.toNat, 0, 0, t5, false, 0⟩ ∧
    array (.tunMm tid cs tok bank m1 row t5 acc) ⟨1, tid.toNat, cs.toNat, tok, bank.toNat, m1.toNat + 1, row.toNat, t5, acc, 0⟩ ∧
    array (.tunGmm tid cs tok bank m1 row t5 acc tid2)
      ⟨2, tid.toNat, cs.toNat, tok, bank.toNat, m1.toNat + 1, row.toNat, t5, acc, tid2.toNat⟩ ∧
    array (.tunDrn tid cs tok m1 row tid2) ⟨3, tid.toNat, cs.toNat, tok, 0, m1.toNat + 1, row.toNat, false, false, tid2.toNat⟩ ∧
    array (.tunZero tok m1 row) ⟨4, 0, 0, tok, 0, m1.toNat + 1, row.toNat, false, false, 0⟩ ∧
    (s.pre.csr.sup = true →
      array (.tunBdiag tid cs tok bank m1 row acc) ⟨5, tid.toNat, cs.toNat, tok, bank.toNat, m1.toNat + 1, row.toNat, false, acc, 0⟩)

/-- SPARGE, GRIST, COLL and LAUNCH queue one command with a pending token; ARES and AREL reserve and release the Tun (R45, R197,
R198, R347, R361, R372, R429, R430).
The callable team of a SPARGE command and its key are log entries 34 and 6. -/
def Obligations.OtherEngineCommands : Prop :=
  ∀ (s : State) (tid : Tid) (ar tok : Reg) (kind : CollKind) (fn : CollFn) (slot : BitVec 12) (d : Pred),
    let cl := clusterOf s.myTeam.core
    let die := s.dieOf s.unit.g
    let A := fun k => s.rs (ar.toNat + k)
    let D := s.descOf tid.toNat
    let S := fun rs => s.learn (expand rs)
    (s.bulkClear (argRun ar.toNat 3) (firstSome [s.recordCause tid.toNat 1 spargeFields (s.spargeForm ar.toNat) (ar.toNat + 3),
        s.aslotCause D]) tok = true → (s.sparge cl).queue.length < 16 → s.dieC.rsPhase ≠ 4 →
      Issues (.sparge tid ar tok) s tok (fun t => t.team (s.nextKey + 1) = s.callableTeam ∧
        (t.sparge cl).queue = (s.sparge cl).queue ++
          [{ (S (argRun ar.toNat 3)).command 5 tok 1 [A 0, A 1, A 2] D (s.descOf (pAslot D)) with waited := s.tick, m := s.nextKey + 1 }])) ∧
    (s.bulkClear (argRun ar.toNat (s.gristArgs tid.toNat))
        (s.recordCause tid.toNat 2 gristFields (gristForm (A 0).toNat (s.gristSegs ar.toNat)) (ar.toNat + s.gristArgs tid.toNat)) tok = true →
      (s.die die).grist.length < 64 →
      Issues (.grist tid ar tok) s tok (fun t => (t.die die).grist = (s.die die).grist ++
        [(S (argRun ar.toNat (s.gristArgs tid.toNat))).command 7 tok 2 [A 0, A 1] D []])) ∧
    (s.bulkClear [(ar.toNat, 1)] none tok = true →
      Issues (.launch slot ar tok) s tok (fun t => t.dieC.launches = s.dieC.launches ++
        [{ (S [(ar.toNat, 1)]).command 0 tok slot.toNat [((A 0).setWidth 16).setWidth 32] [] [] with waited := s.tick }])) ∧
    (s.bulkClear (argRun ar.toNat (collArgs kind)) ((s.collReason tid.toNat ar.toNat kind fn).map (s.tensorId tid.toNat)) tok = true →
      let c := (S (argRun ar.toNat (collArgs kind))).collCmd tid.toNat ar.toNat tok kind fn
      let x := s.comm c.m
      s.dieC.usable x.reg = true → x.missed = [] →
      Issues (.coll tid ar tok kind fn) s tok (fun t => t.comm c.m = { x with cmds := x.cmds ++ [c] })) ∧
    (let T := s.myTun
     let me := s.me.team
     let after := fun (i : Instr) (P : State → Prop) => ∃ t, exec i s = .next t ∧ t.unit = { s.unit with effect := true } ∧
       (∀ b, t.byteAt b = s.byteAt b) ∧ t.me.v = s.me.v ∧ t.me.s = s.me.s ∧ t.me.csr = s.me.csr ∧ P t
     let tells := fun (t : State) (ok : Bool) => ∀ j ∈ s.acts, d.toNat ≠ 7 → t.me.getP j d.toNat = ok
     (T.owner = some me → after (.ares d) (fun t => t.myTun = T ∧ tells t true)) ∧
     (T.owner = none → T.leaving = none → T.heldFrom me = false →
       after (.ares d) (fun t => t.myTun.owner = some me ∧ t.myTun.order = T.order.filter (· != me) ∧ tells t true)) ∧
     (T.owner ≠ some me → (T.owner ≠ none ∨ T.leaving ≠ none ∨ T.heldFrom me = true) →
       after (.ares d) (fun t => t.myTun = { T with order := if T.order.contains me then T.order else T.order ++ [me] } ∧
         tells t false)) ∧
     (T.owner = some me → after .arel (fun t => t.me.p = s.me.p ∧ t.myTun.owner = none ∧
       t.myTun.leaving = (if T.queue = [] then none else some me))) ∧
     (T.owner ≠ some me → after .arel (fun t => t.me.p = s.me.p ∧ t.myTun = T)))

/-- RSV.UPD, .MRG, .NRM and .CLR give the record the rules compute; RSV.LD and RSV.ST move a record; SMP gives four channels
(R234, R235, R236, R237, R238, R239, R245, R247, R354).
How SMP decodes ASTC blocks, and the explicit level under the anisotropic filter, are log entry 56. -/
def Obligations.ReservoirsAndSamples : Prop :=
  ∀ (s : State) (la : La) (d a b : Reg) (os : Order) (tid : Tid) (filt : Filt) (an : Aniso) (grad : Bool) (wrap : Wrap),
    d.toNat + 8 ≤ 128 →
    let E := fun j r => s.eight j r
    (s.clear ⟨[(d.toNat, 8), (a.toNat, 8), (b.toNat, 1)], [(d.toNat, 8)], [], []⟩ noCheck = true →
      let R := fun (mrg : Bool) j => rsvSelect mrg (E j d.toNat) (E j a.toNat) (s.rv j b.toNat)
      Gives (.rsvUpd d a b) s 0 d.toNat 8 (fun j k => nth 0 (R false j).1 k) (fun j => (R false j).2) ∧
      Gives (.rsvMrg d a b) s 0 d.toNat 8 (fun j k => nth 0 (R true j).1 k) (fun j => (R true j).2)) ∧
    (s.clear ⟨[(d.toNat, 8), (b.toNat, 1)], [(d.toNat, 8)], [], []⟩ noCheck = true →
      let R := fun j => rsvNormal (E j d.toNat) (s.rv j b.toNat)
      Gives (.rsvNrm d b) s 0 d.toNat 8 (fun j k => nth 0 (R j).1 k) (fun j => (R j).2)) ∧
    (s.clear ⟨[], [(d.toNat, 8)], [], []⟩ noCheck = true → Gives (.rsvClr d) s 0 d.toNat 8 (fun _ _ => 0) (fun _ => 0)) ∧
    (∀ j va, s.acts = [j] → s.recordOf j a.toNat = some va → s.dieC.rsWaits = false →
      (∀ l, s.clear ⟨[(a.toNat, 2)], [(d.toNat, 8)], [], []⟩ (rsvCheck a .read) = true →
        s.loadWaits .rsvs os (s.phys .read va 32) = false → s.access s.space va .read 0 = .ok l →
        let key := s.keyOf s.space l va
        ∃ t N, exec (.rsvLd la d a os) s = .next t ∧ t.unit = s.unit ∧ MemoryBut s t l.key 1 ∧ t.me.csr = s.me.csr ∧
          LoadResult s t la.toNat d.toNat 8 (fun _ k => (BitVec.ofNat 32 (N / 2 ^ (32 * k)), s.reads key)) ∧
          (Order.atHome os = true → N = s.natAt key 32)) ∧
      (s.clear ⟨[(d.toNat, 8), (a.toNat, 2)], [], [], []⟩ (rsvCheck a .write) = true →
        ∀ (u : Bool) (L : Nat),
          let cs := s.storeCells (fun l => uncached l == u) va 32 (s.storeData j d.toNat 8)
          cs ≠ [] → s.storeCells (fun l => uncached l != u) va 32 (s.storeData j d.toNat 8) = [] → (∀ c ∈ cs, c.1 / 128 = L) →
          Keeps (.rsvSt d a os) s (fun t => t.unit = { s.unit with effect := true } ∧
            (∀ x, (∀ l ∈ s.storeLeaves va 32, x ≠ l.key) → t.byteAt x = s.byteAt x) ∧
            t.me.stores = s.me.stores ++ [⟨cs, Order.scope os, s.me.fences, s.tick, u, true,
              planeIn (s.phys .write va 32) L, false, 0, false, none, 0, []⟩]))) ∧
    (let o : SmpOp := ⟨filt, anisoRatio an, grad, wrap, (s.coreOf s.unit.g).exact⟩
     s.clear ⟨[(a.toNat, if grad then 8 else 4)], [(d.toNat, 4)], [], []⟩ (smpCheck o a.toNat tid.toNat) = true →
      ∃ t, exec (.smp la d a tid filt an grad wrap) s = .next t ∧ t.unit = s.unit ∧ t.me.csr = s.me.csr ∧
        (∀ x, (∀ j ∈ s.acts, ∀ e ∈ s.texPages (s.smpLane o a.toNat tid.toNat j), x ≠ e.1.key) → t.byteAt x = s.byteAt x) ∧
        LoadResult s t la.toNat d.toNat 4 (fun j k => nth (0, false) (s.smpWords j (s.smpLane o a.toNat tid.toNat j)) k))

/-- ORDENTER of the lane whose turn it is enters its section and gives the pixel's status; ORDLEAVE releases it and advances REL
(R370, R371, R17). -/
def Obligations.OrderedSections : Prop :=
  ∀ (s : State) (d : Reg) (j : Nat), s.acts = [j] → j < s.me.lanes.length →
    let L := s.me.lane j
    let T := s.myTeam
    (s.clear ⟨[], [(d.toNat, 1)], [], []⟩ (ordCheck true) = true →
      (L.ord = 1 ∨ (L.ord = 0 ∧ fget 0 T.rel L.pixel = L.rank) →
        ∃ t, exec (.ordenter d) s = .next t ∧ t.unit = s.unit ∧ (∀ x, t.byteAt x = s.byteAt x) ∧
          t.me.getV j d.toNat = BitVec.ofNat 32 (fget 0 T.rel L.pixel % 2 ^ 24 + if fget false T.left L.pixel then 2 ^ 31 else 0) ∧
          (∀ i r, r < 128 → ¬(i = j ∧ r = d.toNat) → t.me.getV i r = s.me.getV i r) ∧ t.me.s = s.me.s ∧ t.me.p = s.me.p ∧
          t.me.csr = s.me.csr ∧ t.me.lane j = if L.ord = 0 then { L with ord := 1, owned := 0, ownAt := s.now } else L) ∧
      (L.ord ≠ 1 → fget 0 T.rel L.pixel ≠ L.rank →
        Keeps (.ordenter d) s (fun t => t.unit.blocked = true ∧ t.teams = s.teams ∧ ∀ x, t.byteAt x = s.byteAt x))) ∧
    (s.clear ⟨[], [], [], []⟩ (ordCheck false) = true →
      (L.ord = 2 → exec .ordleave s = .next s) ∧
      (L.ord ≠ 2 → Keeps .ordleave s (fun t => t.unit = { s.unit with effect := true } ∧ (∀ x, t.byteAt x = s.byteAt x) ∧
        (t.me.lane j).ord = 2 ∧ (∀ p, fget 0 t.myTeam.rel p = fget 0 T.rel p + if p = L.pixel then 1 else 0) ∧
        t.myTeam.word (T.statusWord L.pixel) = t.myTeam.status L.pixel ∧ ∀ p, fget false t.myTeam.left p = fget false T.left p)))

/-- A group fetches, parks and wakes its lanes, writes a due lookahead result, ends its sleep and enters the traps it keeps
(R17, R18, R19, R20, R43, R44, R79, R136, R140, R261).
What trap entry does to a hold is log entry 60, the packets a refill fetches log entry 67, when deferred faults are reported
log entry 9. -/
def Obligations.GroupScheduling : Prop :=
  ∀ (s : State) (k : Nat), s.groupRuns k = true →
    let g := s.grp k
    let now := s.clockOf k
    (∀ a ws, g.issueAddr = some a → s.ready k = true → g.ibuf.any (fun e => e.1 == pktOf a) = false →
      s.packetOpen k (pktOf a) = true → s.fetch k (pktOf a) = .words ws →
      Goes (.instructionFetch k (pktOf a)) s (fun t =>
        (∃ l, (t.grp k).ibuf = (pktOf a, ws.map Prod.fst) :: l ∧ l.length ≤ 7 ∧
          l.map Prod.fst = (List.range l.length).map (fun m => pktOf a + 1 + m)) ∧
        ∀ j, (t.grp j).v = (s.grp j).v ∧ (t.grp j).s = (s.grp j).s ∧ (t.grp j).csr = (s.grp j).csr)) ∧
    (∀ b, g.blocked = some b → b.since + 64 ≤ now → b.waits ≠ [] →
      Goes (.blockPark k) s (fun t => (t.grp k).blocked = none ∧ t = { s with groups := t.groups } ∧
        (t.grp k).v = g.v ∧ (t.grp k).csr = g.csr ∧ (∀ j, j ≠ k → t.grp j = s.grp j) ∧
        (∀ i w, (i, w) ∈ b.waits → i < g.lanes.length → (g.lane i).st = .run → (g.lane i).lpc = b.addr →
          (∃ j, j < g.lanes.length ∧ (g.lane j).st = .run ∧ ∀ e ∈ b.waits, e.1 ≠ j) →
          ((t.grp k).lane i).st = .parked ∧ ((t.grp k).lane i).parkedAt = now) ∧
        (∀ i, i < g.lanes.length → ((t.grp k).lane i).st = .parked →
          ∃ j, j < g.lanes.length ∧ ((t.grp k).lane j).st = .run))) ∧
    (4 ≤ g.spin.count →
      Goes (.spinPark k) s (fun t => (t.grp k).spin = Spin.blank ∧ (t.grp k).csr = { g.csr with spinp := true } ∧
        t = { s with groups := t.groups } ∧ (t.grp k).v = g.v ∧ (∀ j, j ≠ k → t.grp j = s.grp j) ∧
        ((∃ j, j < g.lanes.length ∧ (g.lane j).st = .run ∧ g.spin.lanes.getLsbD j = false) →
          ∀ i, i < g.lanes.length → (t.grp k).lane i =
            if g.spin.woken = false ∧ g.spin.lanes.getLsbD i = true ∧ (g.lane i).st = .run ∧ (g.lane i).lpc = g.spin.target then
              { g.lane i with st := .parked, wait := .spin (if g.spin.lines.length ≤ 8 then g.spin.lines else []), parkedAt := now }
            else g.lane i))) ∧
    (∀ i, i < g.lanes.length → (g.lane i).st = .parked → (g.lane i).parkedAt + 4096 ≤ now →
      Goes (.parkTimeoutWake k i) s (fun t => t = { s with groups := t.groups } ∧ (∀ j, j ≠ k → t.grp j = s.grp j) ∧
        (t.grp k).v = g.v ∧ (t.grp k).csr = g.csr ∧
        ∀ j, j < g.lanes.length → (t.grp k).lane j = if j = i then
          { g.lane i with st := .run, wait := .nothing, parkSum := (g.lane i).parkSum + (now - (g.lane i).parkedAt) } else g.lane j)) ∧
    (∀ i, i < g.width → (g.lane i).st = .parked → 2 ^ 30 ≤ (g.lane i).parkSum + (now - (g.lane i).parkedAt) →
      Goes (.parkLimit k i) s (fun t => t = { s with groups := t.groups } ∧ (∀ j, j ≠ k → t.grp j = s.grp j) ∧
        (t.grp k).v = g.v ∧ (t.grp k).csr = g.csr ∧
        ∃ c m, (t.grp k).pend = g.pend ++ [(c, m)] ∧ c.code = 0x11 ∧ c.lane = g.logical (minOf i (s.parkedOut k)) ∧
          ∀ j, j < 64 → m.getLsbD j = (s.parkedOut k).contains j)) ∧
    (∀ n l, (g.looks.drop n).head? = some l →
      (l.fault.isSome = true → TurnsGroup (.lookaheadResult k n) s k g.report) ∧
      (l.fault = none →
        Goes (.lookaheadResult k n) s (fun t => t = { s with groups := t.groups } ∧ (∀ j, j ≠ k → t.grp j = s.grp j) ∧
          (t.grp k).csr = { g.csr with flags := g.csr.flags ||| l.flags } ∧ (t.grp k).looks.length + 1 = g.looks.length ∧
          (∀ d ∈ l.dests, (∀ e ∈ l.dests, e.key = d.key → e = d) →
            fget 0 (t.grp k).v d.key = d.val ∧ fget false (t.grp k).vp d.key = d.poison) ∧
          ∀ r, (∀ d ∈ l.dests, d.key ≠ r) → fget 0 (t.grp k).v r = fget 0 g.v r ∧ fget false (t.grp k).vp r = fget false g.vp r))) ∧
    (g.sleepTo ≠ 0 → g.sleepTo ≤ now → TurnsGroup (.sleepEnd k) s k { g with sleepTo := 0 }) ∧
    (g.mayEnter = true → (s.team g.team).halted = false →
      Goes (.trapEntry k) s (fun t =>
        t = (s.onGrp k (fun x => { x.report with hold := if x.allBarred then x.hold else .none })).enterPend k ∧
        ∀ a, t.byteAt a = s.byteAt a))

/-- The wait of a held ICINV, TLBINV, TIDSET, XFENCE, PHASE, REDFLUSH or FENCE.acq ends with its effect once what it waits for
has come (R137, R174, R193, R259, R281, R290, R302, R310, R311, R313).
That the event makes the held instruction's effect is log entry 60. -/
def Obligations.WaitsEnd : Prop :=
  ∀ (s : State) (k : Nat), s.groupRuns k = true →
    let g := s.grp k
    let a := (g.blocked.map Blocked.addr).getD 0
    let ends := fun (i : Instr) (u : State) (P : State → Prop) =>
      Goes i s (fun t => t = u.pass k none ∧ (t.grp k).hold = .passed g.hold.kind a none ∧ (∀ x, t.byteAt x = s.byteAt x) ∧ P t)
    let renewed := fun (sc : Scope) (t : State) => ∀ e ∈ s.parts, ∀ q ∈ e.2.pubs, q.reaches (s.agent k) = true →
      within sc (s.agent k) q.owner = true →
      ((isHost (8 * e.1) = true → sc = .sys) → q.upTo ≤ fget 0 (t.grp k).low e.1) ∧
      (isHost (8 * e.1) = true → sc ≠ .sys → q.upTo ≤ fget 0 (t.grp k).lowThrough e.1)
    (∀ lo hi, g.hold = .icinv lo hi → g.unacked .pkg = false →
      ends (.icinvDone k) (s.icinvOf k lo hi) (fun t => (t.grp k).v = g.v ∧ (hi ≤ lo → t.cores = s.cores))) ∧
    (∀ r, g.hold = .tlbinv r → g.unacked .pkg = false →
      ends (.tlbinvDone k) (s.tlbinvOf k r) (fun t => (t.grp k).v = g.v ∧ t.cores = s.cores ∧
        (∀ c ∈ t.tlb, c ∈ s.tlb) ∧
        ∀ c ∈ s.tlb, (c ∈ t.tlb ↔ ¬((c.space = s.spaceOf k ∨ pteG c.leaf = true) ∧
          ∀ lo hi, r = some (lo, hi) → c.va < hi ∧ lo < c.va + c.size)))) ∧
    (∀ src dst sc, g.hold = .xfence src dst sc → g.fenceWaits src dst sc = false →
      ends (.xfenceDone k) (s.xfenceOf k src dst sc) (fun t => (t.grp k).v = g.v ∧ t.parts = s.parts ∧
        (dst.testBit 0 = true → ∀ d ∈ g.learnt, src.testBit d.path = true → ∀ q ∈ d.writes,
          q.2 ≤ fget 0 (t.grp k).toldLane q.1) ∧
        ∀ p, fget 0 g.toldLane p ≤ fget 0 (t.grp k).toldLane p)) ∧
    (∀ sc, g.hold = .phase sc → g.unacked sc = false → g.allBarred = false →
      ends (.phaseDone k) (s.phaseOf k sc) (fun t => (t.grp k).v = g.v ∧ renewed sc t ∧
        (∀ p, (t.part p).versions = (s.part p).versions) ∧ ∀ p, fget 0 g.low p ≤ fget 0 (t.grp k).low p)) ∧
    (∀ sc, g.hold = .phase sc → g.unacked sc = false → g.allBarred = true →
      s.gbarWaits k = false →
      exec (.phaseDone k) s = .next (((s.onGrp k (fun x => { x with hold := .none })).gbarPublish k).unlock g.team)) ∧
    (∀ sc, g.hold = .fenceAcq sc → g.hostOps = [] →
      ends (.fenceAcqDone k) (s.fenceAcqOf k sc) (fun t => renewed sc t ∧ t.parts = s.parts ∧ (t.grp k).v = g.flushLooks.v ∧
        ∀ p, fget 0 g.low p ≤ fget 0 (t.grp k).low p)) ∧
    (g.hold = .redflush → g.redsOut = 0 → ends (.redflushDone k) s (fun t => t = { s with groups := t.groups })) ∧
    (∀ slot scr addr u, g.hold = .tidset slot scr addr → s.tidArrive k slot scr addr = some u →
      Goes (.tidsetDone k) s (fun t => t = u ∧ t.unit = s.unit ∧
        ∃ f, (t.grp k).hold = .passed 3 a f ∧ ∀ c, f = some c → c.code = 0x0A ∨ c.code = 0x14))

/-- A store is sent, applied at its home and acknowledged; reductions, staged entries and host AtomicOps reach their homes;
reads publish (R279, R280, R281, R288, R291, R292, R295, R300, R303, R305, R307, R327).
The free joining of a later store is log entry 84, the drain that is also the acknowledgement log entry 59, the refusal of a
staged FetchAdd log entry 70. -/
def Obligations.WritesOnTheirWay : Prop :=
  ∀ (s : State) (k n : Nat),
    let g := s.grp k
    let still := fun (t : State) => ∀ a, t.byteAt a = s.byteAt a
    (∀ r, (g.stores.drop n).head? = some r → (ffind s.groups k).isSome = true →
      (let sent := fun (t : State) => t = { s with groups := t.groups, fresh := t.fresh } ∧ (∀ j, j ≠ k → t.grp j = s.grp j) ∧
          (t.grp k).v = g.v ∧ (t.grp k).csr = g.csr ∧ (t.grp k).stores.length = g.stores.length ∧
          (∀ m, m ≠ n → ((t.grp k).stores.drop m).head? = (g.stores.drop m).head?) ∧
          ((t.grp k).stores.drop n).head? = some { r with
            sent := true, sentAt := s.tick, acked := r.toHost
            cum := r.cum ++ (r.release.map (fun sc => (⟨sc, r.time, s.cumulative k sc⟩ : FenceSet))).toList };
        (g.joiner n = none → s.maySend k n = true → Goes (.storeRequestSend k n) s sent) ∧
        (∀ m, g.joiner n = some m → Goes (.storeRequestSend k n) s (fun t => t = s.spent.setGrp k (g.merge n m) ∨
          (s.maySend k n = true ∧ sent t) ∨ (s.maySend k n = false ∧ t = s.spent)))) ∧
      (∀ ecc, s.mayApply k n = true → s.wayTo k ((r.cells.head?.map Prod.fst).getD 0) r.plane = true →
        let u := s.sliceEcc (s.hitKey r) ecc
        Goes (.sliceApply k n ecc) s (fun t => Wrote s t (u.effective r.cells) ∧ (t.grp k).csr = g.csr ∧ (t.grp k).v = g.v)) ∧
      (∀ q, r.applied = some q → r.acked = false → s.wayBack k ((r.cells.head?.map Prod.fst).getD 0) r.plane = true →
        s.ackOvertakes k r = false →
        Goes (.writeAck k n) s (fun t => t = { s with groups := t.groups } ∧ (∀ j, j ≠ k → t.grp j = s.grp j) ∧
          (t.grp k).csr = { g.csr with wseq := q } ∧ (t.grp k).v = g.v ∧
          ∀ x ∈ (t.grp k).stores, ¬(x.acked = true ∧ x.applied.isSome = true)))) ∧
    (∀ key, (ffind s.groups k).isSome = true → s.wayTo k key (s.readPlane k key) = true → s.wayBack k key (s.readPlane k key) = true →
      Goes (.sliceRead k key .none) s (fun t => t = { s with parts := t.parts } ∧
      (∀ p, (t.part p).versions = (s.part p).versions) ∧ (s.part (key / 8)).count ≤ t.published k (key / 8))) ∧
    (∀ p upTo, upTo ≤ (s.part p).count → Goes (.spontaneousPublish p upTo k) s (fun t => t = { s with parts := t.parts } ∧
      (∀ q, (t.part q).versions = (s.part q).versions) ∧ upTo ≤ t.published k p)) ∧
    ((ffind s.groups k).isSome = true → Goes (.viewRenewal k) s (fun t =>
      t.grp k = { g with low := (t.grp k).low, lowThrough := (t.grp k).lowThrough } ∧
      t = { s with groups := t.groups } ∧ (∀ p, fget 0 g.low p ≤ fget 0 (t.grp k).low p) ∧
      ∀ e ∈ s.parts, isHost (8 * e.1) = false → ∀ q ∈ e.2.pubs, q.reaches (s.agent k) = true →
        within .pkg (s.agent k) q.owner = true → q.upTo ≤ fget 0 (t.grp k).low e.1)) ∧
    (∀ core ok (e : RedEntry), ((s.core core).reds.drop n).head? = some e → s.redReady core n = true →
      let new := if e.store then e.val.toNat else (opx e.fn e.size (s.natAt e.addr e.size) e.val.toNat 0).1
      Goes (.reductionDrain core n ok) s (fun t =>
        (t.core core).reds = (s.core core).reds.take n ++ (s.core core).reds.drop (n + 1) ∧
        (s.lost e.addr = false → (s.marked e.addr = false ∨ e.store = true) → (e.host = true → ok = true) →
          Wrote s t (s.effective (cellsOf e.addr new e.size))) ∧
        (e.host = true → ok = false → still t ∧ ((ffind s.groups e.group).isSome = true → (s.grp e.group).csr.efault = 0 →
          (t.grp e.group).csr.efault = tokenValue 9 ((s.grp e.group).logical e.lane))))) ∧
    (∀ team, s.mustSpill team = true →
      let root := s.detRoot (s.team team).exec
      let e := s.exec root
      let va := e.field 0x58 8 + e.spilled
      s.toSpill team = true →
      Goes (.stagingSpill team) s (fun t =>
        (65536 * e.field 0x60 4 < e.spilled + 32 → still t ∧ (t.exec (s.team team).exec).spillFault = some (0x15, team)) ∧
        (e.spilled + 32 ≤ 65536 * e.field 0x60 4 → ∀ c, s.access e.as va .write 0 = .error c →
          still t ∧ (t.exec (s.team team).exec).spillFault = some (c, team)) ∧
        (e.spilled + 32 ≤ 65536 * e.field 0x60 4 → ∀ l, s.access e.as va .write 0 = .ok l →
          (t.exec root).spilled = e.spilled + 32 ∧
          (t.exec root).staged.map (fun q => (q.1, { q.2 with spill := none })) =
            e.staged.map (fun q => (q.1, { q.2 with spill := none }))))) ∧
    (∀ ek ok, let e := s.exec ek
      (ffind s.execs ek).isSome = true →
      exec (.ticketBatchApply ek ok) s = .next (s.ticket ek ok).settle ∧
      let t := s.ticket ek ok
      (e.batches.find? (fun q => q.1 == e.ticket) = none → s.teamOpen ek e.ticket = false →
        e.staged.any (fun q => q.1 == e.ticket) = false →
        t.exec ek = { e with ticket := e.ticket + 1 } ∧ t = { s with execs := t.execs }) ∧
      (∀ q, e.batches.find? (fun q => q.1 == e.ticket) = some q →
        let x := q.2.2
        let new := if x.store then x.val.toNat else (opx x.fn x.size (s.natAt x.addr x.size) x.val.toNat 0).1
        (((s.exec x.exec).discards = true ∨ s.waysOpen .dieC (homeEnd x.addr) x.plane = true) →
          (t.exec ek).batches = e.batches.erase q ∧ t.groups.length = s.groups.length) ∧
        ((s.exec x.exec).discards = true → still t) ∧
        ((s.exec x.exec).discards = false → s.waysOpen .dieC (homeEnd x.addr) x.plane = false → t = s) ∧
        ((s.exec x.exec).discards = false → s.waysOpen .dieC (homeEnd x.addr) x.plane = true →
          (s.spillBad x = true → still t) ∧ (x.host = true → x.store = false → ok = false → still t) ∧
          (s.spillBad x = false → (x.host = true → x.store = false → ok = true) → s.lost x.addr = false →
            (s.marked x.addr = false ∨ x.store = true) → Wrote s t (s.effective (cellsOf x.addr new x.size)))))) ∧
    (∀ o os ok, g.hostOps = o :: os → (ffind s.groups k).isSome = true → s.lost o.addr = false →
      s.wayBack k o.addr (entryPlane 0 o.addr) = true →
      let r := opx o.fn o.size (s.natAt o.addr o.size) o.val.toNat o.cmp.toNat
      Goes (.hostAtomicCompletion k ok) s (fun t => (t.grp k).hostOps = os ∧
        (ok = true → Wrote s t (if r.2 = true ∧ o.deny = none then s.effective (cellsOf o.addr r.1 o.size) else []) ∧ (t.grp k).csr = g.csr) ∧
        (ok = false → still t ∧ (g.csr.efault = 0 → (t.grp k).csr.efault = tokenValue 9 (g.logical o.lane))) ∧
        (os = [] → g.hold = .hostAtomic → (t.grp k).hold = .none)))

/-- The copy engine, the Tun, the ray and light units, Sparge, the sorter and the reservoir store start, go on with and end
their work (R177, R185, R197, R198, R203, R205, R209, R230, R242, R358, R361, R373).
RSCTL written during a write-back is log entry 35, Sparge's callables log entry 34. -/
def Obligations.EnginesGoOn : Prop :=
  ∀ (s : State) (core n : Nat),
    let C := s.core core
    let T := C.tun
    let now := s.cycle (coreDie core)
    let coreIs := fun (i : Instr) (x : Core) =>
      Goes i s (fun t => t.core core = x ∧ (∀ j, j ≠ core → t.core j = s.core j) ∧ t = { s with cores := t.cores })
    let tunIs := fun (i : Instr) (u : Tun) => coreIs i { C with tun := u }
    (∀ c, C.copies.find? (fun c => !c.started) = some c →
      coreIs (.copyStart core) { C with copies := C.copies.map (fun d => if d.id = c.id then { c with started := true } else d) }) ∧
    (∀ c, C.copies[n]? = some c → c.started = true →
      (s.alive c.team = true → exec (.copyComplete core n) s = .next (s.copyAdvance core c)) ∧
      (s.alive c.team = false → coreIs (.copyComplete core n) { C with copies := C.copies.filter (fun d => d.id != c.id) })) ∧
    (∀ c u o, c.op = modeTile → c.bank = 0 → c.t5 = false → Desc.fmt c.desc ≠ fmtS4 → Desc.fmt c.desc ≠ fmtTrit →
      Desc.skew c.desc = 0 → c.rowBytes ≤ c.pitch → c.off % 8 = 0 → o < 8 →
      let p := 8 * u + o
      let row := p / c.pitch
      let col := p % c.pitch
      row < c.rows → col < c.rowBytes →
      let s0 := s.landWords c.group 1 false [(c.off + 8 * u) / 4, (c.off + 8 * u) / 4 + 1]
      let x0 : Int := c.coord 0 + (col / c.size : Nat)
      let va := vaOfInt (Desc.rowAddr c.desc (c.upper row) + x0 * c.size)
      let there := Desc.inDim c.desc 0 x0 && Desc.rowIn c.desc (c.upper row)
      let puts := fun (x : Nat) => ∃ f ∈ ((s.loadPiece c u).1.team c.team).fogs, f.id = c.id ∧ f.word = (c.off + p) / 4 ∧
        f.mask.getLsbD (o % 4) = true ∧ bits f.val.toNat (8 * (o % 4)) 8 = x
      (there = false → puts (s0.fillByte c (col % c.size))) ∧
      (there = true → ∀ l key, s0.engineAt c.space (Segs.covers c.seg (Desc.space c.desc) va c.size) va .read = .ok (l, key) →
        puts (bits (s0.viewNat c.floors c.pins c.size key c.size) (8 * (col % c.size)) 8) ∧
        (ffind s.parts (key / 8) = none → key % 8 + c.size ≤ 8 → puts (s.byteAt (key + col % c.size)).toNat))) ∧
    (∀ c u l key o, c.op = modeStore → c.bank = 0 → c.per = 1 → Desc.skew c.desc = 0 → o < c.size →
      let row := u / c.pieces
      let x0 : Int := c.coord 0 + (u % c.pieces : Nat)
      let va := vaOfInt (Desc.rowAddr c.desc (c.upper row) + x0 * c.size)
      let at_ := c.off + row * c.pitch + u % c.pieces * c.size + o
      Desc.inDim c.desc 0 x0 = true → Desc.rowIn c.desc (c.upper row) = true →
      s.engineAt c.space (Segs.covers c.seg (Desc.space c.desc) va c.size) va .write = .ok (l, key) →
      nth (0, 0) (s.piece c u).cells o = (key + o, BitVec.ofNat 8 (bits (c.word (at_ / 4)).1.toNat (8 * (at_ % 4)) 8))) ∧
    (∀ c, T.queue[n]? = some c →
      (T.mayStart n = true → s.runs c.team = true →
        exec (.tunCommandStart core n) s = .next (s.tunStart core c) ∧
        (c.op ≠ opDrn → T.refuses c = none → tunIs (.tunCommandStart core n) (T.setCmd { c with started := true }))) ∧
      ((ffind s.teams c.team = none ∨ (s.team c.team).dead = true) → tunIs (.tunCommandComplete core n) (T.drop c)) ∧
      ((ffind s.teams c.team).isSome = true → (s.team c.team).dead = false → c.started = true → s.tunGoesOn c = true →
        exec (.tunCommandComplete core n) s = .next (s.tunAdvance core c) ∧
        (c.done < c.tunRows → s.rowTurn core c c.done = false → exec (.tunCommandComplete core n) s = .next s) ∧
        (c.done < c.tunRows → s.rowTurn core c c.done = true → c.listed = false → s.tunReady c c.done = false →
          tunIs (.tunCommandComplete core n) (T.setCmd { c with since := if c.since = 0 then now + 1 else c.since }))) ∧
      (c.overWait now = true → s.runs c.team = true →
        Goes (.tunTagWaitLimit core n) s (fun t => t = s.tunFinish core { c with fault := some (0x11, c.done) } ∧
          (t.core core).tun = T.drop c))) ∧
    (∀ c m j, (c.op = opMm ∨ c.op = opGmm ∨ c.op = opBdiag) → s.tunPlace c m = .ok (some j) →
      fwf 0 (T.bankOf c.bank).cells = true →
      let u := ((s.productRow core c m).1.core core).tun
      let x := fun k => sext (bits ((s.team c.team).word (c.tunWordAt j (k / 4))).toNat (8 * (k % 4)) 8) 8
      let sum := fun n => (List.range 256).foldl (fun (a : Int) k =>
        a + c.factor k n (fget 0 (T.bankOf c.bank).cells (256 * n + k)) * x k) 0
      (∀ n, n < 256 → u.accAt (c.row + m) n = (if c.acc then T.accAt (c.row + m) n else 0) + BitVec.ofInt 48 (sum n)) ∧
      (∀ r n, r ≠ c.row + m → n < 256 → u.accAt r n = T.accAt r n) ∧
      fget false u.rowBad (c.row + m) = ((c.acc && fget false T.rowBad (c.row + m)) ||
        (List.range 64).any (fun v => (s.team c.team).bad (c.tunWordAt j v)))) ∧
    (T.leaving.isSome = true → T.queue = [] → tunIs (.arrayRelease core) { T with
      owner := none, leaving := none, dirty := true, heldTo := if T.order = [] then none else some (now + 4096) }) ∧
    (∀ c, T.clearTo = some c → c ≤ now → tunIs (.arrayClear core) { T with
      bank0 := Bank.clear, bank1 := Bank.clear, acc := [], rowBad := [], clearTo := none }) ∧
    (∀ c, T.heldTo = some c → c ≤ now → tunIs (.arrayHoldExpire core) { T with order := T.order.tail, heldTo := none }) ∧
    (∀ acc, s.dieFence (coreDie core) ≠ 2 → Goes (.tunEccError core acc n) s (fun t =>
      (t.core core).tun = (if acc then { T with rowBad := fset false T.rowBad (n % 128) true }
        else T.setBank (n % 2) { T.bankOf (n % 2) with poison := some 0x0A }) ∧
      (t.die (coreDie core)).errseq = (s.die (coreDie core)).errseq + 1)) ∧
    (∀ k q r rest, takeRequest q (s.grp k).rays = some (r, rest) → (∀ va, s.fetchOpen k .ray (s.spaceOf k) va = true) →
      let answered := fun (t : State) => (t.grp k).rays = rest ∧ (t.grp k).csr = (s.grp k).csr ∧
        ∃ e, e.mask = r.entry.mask ∧ (t.grp k).queue (q + 1) = (s.grp k).queue (q + 1) ++ [e];
      ((q = 0 ∨ q = 2) → Goes (.rayRequest k q) s answered) ∧ (q = 4 → Goes (.lightWalk k) s answered)) ∧
    (∀ c q, (s.sparge n).queue = c :: q →
      (c.started = false → s.lives c.team = true → s.dieC.rsPhase ≠ 1 → s.spargeSees c = true → s.dieDown (n / 16) = false →
        (s.borderVas n c).all (s.wayAt (spargeEnd n) c.space) = true →
        s.callableRooms n (s.exec (s.team c.m).exec).pool (pBudget c.desc) ≠ [] →
        Goes (.spargeStart n) s (fun t => (t.sparge n).queue = { c with started := true } :: q ∧ (t.sparge n).teams.head? = some c.m ∧
          (t.sparge n).teams.length ≤ 8 ∧ (t.sparge n).border = s.borderCopy n c)) ∧
      (s.lives c.team = false → exec (.spargeComplete n) s = .next (s.dropSparge n c)) ∧
      (s.lives c.team = true → c.started = true → s.tellOpen (spargeEnd n) c = true → ∀ code, (s.sparge n).fault = some code →
        exec (.spargeComplete n) s = .next ((s.dropSparge n c).finish { c with fault := some (code, s.spargeLowest n c) } 5)) ∧
      (s.lives c.team = true → c.started = true → (s.sparge n).fault = none →
        Goes (.spargeComplete n) s (fun t => t = firstStep s.spent s.choice [fun t => t.spargePrepare n c,
          fun t => t.spargePush n (s.choice / 8) (s.choice / 64), fun t => t.spargeTake n, fun t => t.spargeExit n c,
          fun t => t.spargeWrite n c, fun t => t.spargeEnd n c]))) ∧
    (∀ c q, (s.die n).grist = c :: q →
      (c.started = false → s.lives c.team = true → Goes (.gristStart n) s (fun t =>
        ((t.die n).grist.head?.map (fun d => (d.id, d.started))) = some (c.id, true))) ∧
      (s.lives c.team = false → TurnsDie (.gristComplete n) s n { s.die n with grist := (s.die n).grist.filter (fun d => d.id != c.id) }) ∧
      (s.lives c.team = true → c.started = true → exec (.gristComplete n) s = .next (s.gristAdvance n c))) ∧
    (∀ kb (l : List Pair), (sortPairs kb l).Perm l ∧
      (sortPairs kb l).Pairwise (fun a b => sortKey kb a.key ≤ sortKey kb b.key) ∧
      ∀ x, (sortPairs kb l).filter (fun p => sortKey kb p.key == x) = l.filter (fun p => sortKey kb p.key == x)) ∧
    (∀ c : Cmd, (gSeg c.desc = false → c.sorted = sortPairs (gBits c.desc) c.pairs) ∧
      ((gSeg c.desc = true → c.desc2 ≠ []) → c.sorted.Perm c.pairs)) ∧
    (let inForce := fun (t : State) (w : Word) => t.dieC.rsctl = w ∧ t.dieC.rsPhase = 1 ∧ t.dieC.rsOn = w ∧
        t.dieC.rsDimOn = s.dieC.rsdim ∧ t.dieC.rsBaseOn = s.dieC.rsbase;
    (∀ v : Word, s.dieC.open_ = true → v.getLsbD 0 = true → (s.dieC.rsPhase = 0 ∨ s.dieC.rsPhase = 3) →
      (s.dieC.rsCheck = false → TurnsC (.rsctlEnable v) s { s.dieC with rsctl := rsctlStored v &&& 0xFFFFFFFE }) ∧
      (s.dieC.rsCheck = true → s.dieC.rsPhase = 3 → TurnsC (.rsctlEnable v) s { s.dieC with rsctl := rsctlStored v, rsPhase := 4 }) ∧
      (s.dieC.rsCheck = true → s.dieC.rsPhase = 0 → Goes (.rsctlEnable v) s (fun t => inForce t (rsctlStored v)))) ∧
    (s.dieC.rsPhase = 1 → TurnsC .reservoirFillDone s { s.dieC with rsPhase := 2 }) ∧
    (∀ v : Word, s.dieC.open_ = true → s.dieC.rsEnabled = true → v.getLsbD 0 = false →
      TurnsC (.rsctlDisable v) s { s.dieC with rsctl := rsctlStored v, rsPhase := 3 }) ∧
    (s.rsBusy = false →
      (s.dieC.rsPhase = 3 → Goes .reservoirWritebackDone s (fun t => t.dieC.rsPhase = 0 ∧ t.dieC.rsctl = s.dieC.rsctl)) ∧
      (s.dieC.rsPhase = 4 → Goes .reservoirWritebackDone s (fun t => inForce t s.dieC.rsctl))))

/-- Groups retire, teams end, halt, are saved and resume; the dispatcher takes requests, starts executions and places teams
(R134, R269, R273, R274, R340, R341, R347, R349, R350, R354, R369, R371).
The fault noMemory is log entry 36, the resume that reads its block log entry 32, the drains log entry 31. -/
def Obligations.TeamsAndDispatch : Prop :=
  ∀ (s : State) (k : Nat),
    (s.mayRetire k = true → ((s.retire k).grp k).retired = true ∧
      exec (.groupRetire k) s = .next (if (s.retire k).teamDone (s.grp k).team then (s.retire k).completeTeam (s.grp k).team
        else s.retire k)) ∧
    ((ffind s.teams k).isSome = true → (s.team k).callable = false → ((s.team k).dead = true ∨ (s.exec (s.team k).exec).fenced = true) →
      exec (.fatalTrap k) s = .next (((s.freeTun k).stopWork k).endTeam k)) ∧
    (∀ b, (ffind s.teams k).isSome = true → s.controlOpen (s.team k).core = true →
      s.victim (coreDie (s.team k).core) = some k → (s.exec (s.team k).exec).freeBlock = some b →
      Goes (.haltRequest k) s (fun t => t.team k = { s.team k with halted := true, block := some b } ∧
        (∀ j, j ≠ k → t.team j = s.team j) ∧ (t.exec (s.team k).exec).blocks = (s.exec (s.team k).exec).blocks ++ [b] ∧
        ∀ a, t.byteAt a = s.byteAt a)) ∧
    (s.maySave k = true → exec (.contextSaveDone k) s = .next (s.save k)) ∧
    (∀ core w, let d := s.drains (coreDie core)
      d.firstFit (coreDie core) = some (w, core) → w.saved = some k → d.controlOpen core = true →
      let e := d.exec (d.team k).exec
      let back := d.contextFault e .read (e.context + blockBytes * (d.team k).block.getD 0) blockBytes
      d = { s with cores := d.cores } ∧
      (∀ bad, back = some bad → Goes (.teamResume k core) s (fun t => (t.exec (s.team k).exec).fenced = true ∧ t.teams = s.teams)) ∧
      (∀ ps, back = none → d.fitGone core w [] = some ps → Goes (.teamResume k core) s (fun t => t = d.restore k core ps ∧
        t.team k = { s.team k with core := core, halted := false, saved := false, tun := none, block := none } ∧
        ∀ j, j ≠ k → t.team j = s.team j))) ∧
    (s.watches k = true → s.slotThere k = true → exec (.reqseqNotify k) s = .next (s.notify k)) ∧
    (s.mayStart k = true → s.slotThere k = true → exec (.executionStart k) s = .next (if s.predBad k then
      s.refuseExec { s.readExec k (s.nextNum k) with width := 8 } (plainFault 0x15 0 true) else s.startExec k (s.nextNum k))) ∧
    (s.watches k = true → s.slotThere k = false → exec (.reqseqNotify k) s = .fault (.noMemory (s.slotKey k)) ∧
      exec (.executionStart k) s = .fault (.noMemory (s.slotKey k))) ∧
    (k < 2 → s.dieDown k = false → s.dieC.stopped = false →
      let d := s.drains k
      d = { s with cores := d.cores } ∧
      (∀ w c, d.firstFit k = some (w, c) → w.saved = none → d.controlOpen c = true → exec (.teamPlace k) s = .next (d.placeNew w c)) ∧
      (∀ w c, d.firstFit k = some (w, c) → (w.saved ≠ none ∨ d.controlOpen c = false) → exec (.teamPlace k) s = .next d) ∧
      (d.firstFit k = none → exec (.teamPlace k) s = .next d)) ∧
    (∀ p, (s.core k).drain = some p → s.resident k = [] → s.keepsContext k = false → Goes (.coreSplitChange k) s (fun t =>
      t.core k = { s.core k with split := some p, drain := none } ∧ (∀ j, j ≠ k → t.core j = s.core j) ∧ t = { s with cores := t.cores })) ∧
    (∀ c, s.dieC.launches.find? (fun c => c.id == k) = some c →
      (s.lives c.team = false → TurnsC (.launchReqseqAdd k) s { s.dieC with launches := s.dieC.launches.filter (fun x => x.id != c.id) }) ∧
      (s.lives c.team = true → s.launchOpen c = false → exec (.launchReqseqAdd k) s = .next s) ∧
      (s.lives c.team = true → s.launchOpen c = true → c.started = true →
        atOrAfter (s.slotWord c.op offAck) (nth (0, false) c.block 0).1 = true → exec (.launchReqseqAdd k) s = .next (s.endLaunch c none)) ∧
      (s.lives c.team = true → s.launchOpen c = true → c.started = false → s.launchReady c = true →
        (s.dieC.slotCount ≤ c.op → Goes (.launchReqseqAdd k) s (fun t => t = s.endLaunch c (some 0x15) ∧ ∀ a, t.byteAt a = s.byteAt a)) ∧
        (c.op < s.dieC.slotCount → s.slotThere c.op = true → s.slotValid c.op = true → s.slotDevl c.op = true → nth 0 c.args 0 ≠ 0 →
          Goes (.launchReqseqAdd k) s (fun t => t = s.launchAdd c ∧
            Wrote s t (s.effective (cellsOf (s.slotKey c.op + offReq) (s.slotWord c.op offReq + nth 0 c.args 0).toNat 4)))))) ∧
    (∀ j, s.runs k = true → (s.team k).tmoff.isSome = true → (s.team k).batch < (s.team k).batches → s.retiredPlace k = some j →
      Goes (.fragmentGroupStart k) s (fun t => (t.team k).batch = (s.team k).batch + 1 ∧
        (t.grp (groupKey k j)).epoch = (s.grp (groupKey k j)).epoch + 1 ∧ ∀ a, t.byteAt a = s.byteAt a)) ∧
    (∀ d, (s.exec k).raster = some d → s.dieDown (s.upDie (s.exec k).home) = false → exec (.rasterBinning k) s =
      .next ((s.binAll k d).setExec k { (s.binAll k d).exec k with raster := none }).settle) ∧
    (∀ b, (ffind s.execs k).isSome = true → ((s.exec k).gbar b).overdue s.dieA.cycle = true →
      Goes (.gbarTimeout k b) s (fun t => t = s.breakGbar k b ∧ ((t.exec k).gbar b).phase = ((s.exec k).gbar b).phase + 1 ∧
        ((t.exec k).gbar b).since = none ∧ (t.exec k).fault.isSome = true ∧ ∀ a, t.byteAt a = s.byteAt a)) ∧
    (s.groupRuns k = true → s.overdue k ≠ [] → Goes (.ordTimeout k) s (fun t => t = s.ordTimeout k ∧
      (∀ i ∈ s.overdue k, i < (s.grp k).lanes.length → ((t.grp k).lane i).ord = 2) ∧ (∀ a, t.byteAt a = s.byteAt a) ∧
      ∃ c m, (t.grp k).pend = (s.grp k).pend ++ [(c, m)] ∧ c.code = 0x0F)) ∧
    (∀ va w l, s.walk k va = .leaf l → Goes (.pageWalk k va w) s (fun t => t = s.touch k l (w && pteW l.entry) ∧
      ∃ c ∈ t.tlb, c.space = k ∧ c.va = l.va ∧ c.leaf = l.entry ||| 0x10 ||| (if w && pteW l.entry then 0x20 else 0)))

/-- Register errors poison what they hit; dies are fenced, reset and tested; the package restarts, or die C fails (R271, R413,
R415, R416, R417, R418, R421, R441, R442, R446, R447, R450).
What resets keep and clear is log entry 38; BOOTSTAT after a reset, self-tests and DIE_C_FATAL are log entry 39. -/
def Obligations.ErrorsAndResets : Prop :=
  ∀ (s : State) (k d i r : Nat) (v : Word),
    let core := (s.team (s.grp k).team).core
    let logged := fun (t : State) => (s.dieFence (coreDie core) ≠ 2 →
      (t.die (coreDie core)).errseq = (s.die (coreDie core)).errseq + 1) ∧ ∀ a, t.byteAt a = s.byteAt a
    let tested := fun (t : State) (d : Nat) => (t.die d).testing = true ∧ ∀ c ∈ coresOf d, ∃ q, (t.team q).core = c ∧
      (t.exec (t.team q).exec).slot = controllerSlot ∧ (t.grp (groupKey q 0)).csr.sup = true ∧
      (t.grp (groupKey q 0)).csr.hset = BitVec.allOnes 64 ∧ (t.grp (groupKey q 0)).csr.tvec = 0 ∧ (t.grp (groupKey q 0)).csr.prio = 23
    (s.groupRuns k = true →
      (i < (s.grp k).width → r < 128 → Goes (.registerEccError k 0 i r) s (fun t => logged t ∧
        t.grp k = { s.grp k with vp := fset false (s.grp k).vp (vkey i r) true } ∧ ∀ j, j ≠ k → t.grp j = s.grp j)) ∧
      (r < 127 → Goes (.registerEccError k 1 i r) s (fun t => logged t ∧
        t.grp k = { s.grp k with sp := fset false (s.grp k).sp r true } ∧ ∀ j, j ≠ k → t.grp j = s.grp j)) ∧
      (∀ kind, 2 ≤ kind → Goes (.registerEccError k kind i r) s (fun t => logged t)) ∧
      (r < 128 → Goes (.registerScrub k r) s (fun t => t.fresh = s.fresh + 1 ∧ (∀ a, t.byteAt a = s.byteAt a) ∧
        t.grp k = { s.grp k with vp := (t.grp k).vp, sp := (t.grp k).sp } ∧ (∀ j, j ≠ k → t.grp j = s.grp j) ∧
        (∀ q, q ≠ r → fget false (t.grp k).sp q = fget false (s.grp k).sp q) ∧
        ∀ q, (∀ j, j < (s.grp k).width → q ≠ vkey j r) → fget false (t.grp k).vp q = fget false (s.grp k).vp q))) ∧
    (d < 2 →
      (s.fences d 1 = true → Goes (.dieCoreFence d) s (fun t => t = s.fenceDie d 1 2 ∧ (t.die d).state = 1 ∧ (t.die d).cause = 2)) ∧
      (s.fences d 1 = false → exec (.dieCoreFence d) s = .next s) ∧
      (s.fences d 2 = true → Goes (.dieFullFence d) s (fun t => t = s.fenceDie d 2 3 ∧ (t.die d).state = 2 ∧ (t.die d).cause = 3)) ∧
      (s.fences d 2 = false → exec (.dieFullFence d) s = .next s) ∧
      ((s.die d).state = 3 → (s.die d).domain ≠ 2 → Goes (.coreResetDone d) s (fun t => (t.die d).state = 0 ∧
        tested t d ∧ (t.die d).cycle = (s.die d).cycle ∧ (∀ c, coreDie c = d → t.core c = Core.start) ∧
        ∀ a, t.byteAt a = s.byteAt a)) ∧
      ((s.die d).state = 3 → (s.die d).domain = 2 → Goes (.uncoreResetDone d) s (fun t => (t.die d).state = 0 ∧
        tested t d ∧ t.tlb = [] ∧ (t.die d).netarb = 0x0C40037F ∧ (t.die d).cycle = 0 ∧ (t.die d).display = Display.off ∧ (∀ c, coreDie c = d → t.core c = Core.start) ∧
        ∀ a, t.byteAt a = if onDie (some d) a then Memory.unlisted else s.byteAt a)) ∧
      ((s.die d).testing = true → (s.die d).state = 0 → s.testTeams d = [] →
        (∃ j, j < 96 ∧ i.testBit j = false ∧ fget false (s.die d).corestat j = false) →
        Goes (.selfTest d i) s (fun t => (t.die d).testing = false ∧ (t.die d).state = 0 ∧
          (∀ j, j < 96 → fget false (t.die d).corestat j = (fget false (s.die d).corestat j || i.testBit j)) ∧
          (s.dieC.bootstat = 4 → (s.die (otherDie d)).testing = false → t.dieC.bootstat = 5) ∧ ∀ a, t.byteAt a = s.byteAt a))) ∧
    (s.dieC.open_ = true → (s.die (ctlDie v)).state ≠ 3 →
      let x := s.putLinka v
      (ctlCmd v = 1 → exec (.diectlCoreFence v) s = .next (x.fenceDie (ctlDie v) 1 1)) ∧
      (ctlCmd v = 2 → Goes (.diectlCoreReset v) s (fun t => (t.die (ctlDie v)).state = 3 ∧ t.dieC.linka = v.getLsbD 3 ∧
        (t.die (ctlDie v)).domain = if (s.die (ctlDie v)).state = 2 then 3 else 1)) ∧
      (ctlCmd v = 3 → Goes (.diectlUncoreReset v) s (fun t => (t.die (ctlDie v)).state = 3 ∧ (t.die (ctlDie v)).domain = 2 ∧
        t.dieC.linka = v.getLsbD 3))) ∧
    let off := fun (t : State) => t.groups = [] ∧ t.teams = [] ∧ t.execs = [] ∧ t.cores = [] ∧ t.dieC.bootstat = 0 ∧ t.dieC.booting = true ∧
      t.dieC.flash = s.dieC.flash ∧ t.dieC.fuseKey = s.dieC.fuseKey ∧ t.dieC.fuseVersion = s.dieC.fuseVersion ∧
      t.dieC.fuseSecret = s.dieC.fuseSecret ∧ t.agenda = s.agenda ∧
      ∀ a, t.byteAt a = if isHost a then s.byteAt a else Memory.unlisted
    (∀ n, Goes (.packageReset true n) s off) ∧ Goes (.pkgrst 1) s off ∧
    (∀ n, s.dieC.booting = true → s.dieC.bootstat = n →
      (n = 0 → TurnsC (.packageReset false n) s { s.dieC with bootstat := 1 }) ∧
      (n = 1 → s.dieC.imageCheck = 0 → Goes (.packageReset false n) s (fun t => t.dieC.bootstat = 2 ∧
        t.dieC.meas0 = sha256 (s.dieC.imageBytes 0) ∧ t.dieC.meas1 = sha256 (s.dieC.imageBytes 6) ∧
        (t.dieC.fuseVersion = s.dieC.fuseVersion ∨ t.dieC.fuseVersion = s.dieC.imageVersion) ∧ ∀ a, t.byteAt a = s.byteAt a)) ∧
      (n = 1 → s.dieC.imageCheck ≠ 0 → Goes (.packageReset false n) s (fun t => t.dieC.bootstat = 1 ∧ t.dieC.recovery = true ∧
        t.dieC.refusal = s.dieC.imageCheck ∧ 1 ≤ t.dieC.refusal ∧ t.dieC.refusal ≤ 3)) ∧
      (n = 2 → Goes (.packageReset false n) s (fun t => t.dieC.bootstat = 3 ∧
        ∀ a, t.byteAt a = if isHost a then s.byteAt a else Memory.unlisted)) ∧
      (n = 3 → Goes (.packageReset false n) s (fun t => t.dieC.bootstat = 4 ∧ tested t 0 ∧ tested t 1 ∧
        ∀ a, t.byteAt a = s.byteAt a)) ∧
      (n = 5 → TurnsC (.packageReset false n) s { s.dieC with bootstat := 6 })) ∧
    (∀ n, (s.dieC.booting = false ∨ s.dieC.bootstat ≠ n) → exec (.packageReset false n) s = .next s) ∧
    (v ≠ 1 → exec (.pkgrst v) s = .next s) ∧
    Goes .dieCFatal s (fun t => t.groups = [] ∧ t.teams = [] ∧ t.execs = [] ∧ t.cores = [] ∧ t.sparges = [] ∧
      t.dieC.stopped = true ∧ t.dieC.recovery = true ∧ t.dieC.bootstat = 1 ∧ t.dieC.rsPhase = 0 ∧ ∀ a, t.byteAt a = s.byteAt a)

/-- Links replay, retrain and are lost; the fabric's links and communicators follow their registers; collectives join, complete
and break (R324, R327, R413, R427, R428, R430, R431).
The arbiters' numbers and turns are log entry 41; a collective's timeout and the command of a fenced launch are log entry
46. -/
def Obligations.LinksAndCollectives : Prop :=
  ∀ (s : State) (link lane n rank j : Nat) (v : Word) (ok : Bool),
    let L := s.linkAt link
    let linkIs := fun (i : Instr) (key : Nat) (x : Link) =>
      Goes i s (fun t => t.linkAt key = x ∧ (∀ q, q ≠ key → t.linkAt q = s.linkAt q) ∧ t = { s with links := t.links })
    let C := s.dieC
    let X := s.comm n
    let commIs := fun (i : Instr) (x : Comm) => Goes i s (fun t => t.comm n = x ∧ (∀ m, m ≠ n → t.comm m = s.comm m) ∧
      t = { s with dieC := { C with comms := t.dieC.comms } })
    (∀ a heads, arbiterThere a = false → exec (.packetPromotion a heads) s = .next s) ∧
    (∀ a heads, arbiterThere a = true →
      let arb := (s.die (arbiterDie a)).netarb
      let elig := heads.filterMap (headFlits (requesters a))
      let r := (s.arbiter a).turn (requesters a) (ageLimit arb a) (netWeight arb) elig
      Goes (.packetPromotion a heads) s (fun t => t.arbiter a = r.2 ∧ (∀ b, b ≠ a → t.arbiter b = s.arbiter b) ∧
        t = { s with arbiters := t.arbiters } ∧ r.2.cycle = (s.arbiter a).cycle + 1 ∧
        (∀ h ∈ elig, h.1 < requesters a ∧ 1 ≤ h.2 ∧ h.2 ≤ 2) ∧
        (∀ g, r.1 = some g → (s.arbiter a).busy = 0 ∧ ∃ h ∈ elig, h.1 = g ∧ r.2.busy + 1 ≤ 2) ∧ ((s.arbiter a).busy = 0 → elig ≠ [] → r.1.isSome = true))) ∧
    (linkThere link = true → L.training = false → L.failed < 16 →
      linkIs (.linkCrcReplay link ok) link { L with failed := if ok then 0 else L.failed + 1 }) ∧
    (L.training = false → 16 ≤ L.failed → linkIs (.linkRetrain link) link { L with training := true }) ∧
    (L.training = true →
      (ok = true → linkIs (.linkRetrainDone link ok) link { L with training := false, failed := 0 }) ∧
      (ok = false → Goes (.linkRetrainDone link ok) s (fun t => t =
        (s.setLink link { L with training := false, failed := 0 }).fenceDie (s.linkVictim link) 2 3))) ∧
    (C.lowestLane lane = true →
      TurnsC (.fabricLinkUp lane) s { C with trained := fset false C.trained lane true } ∧
      TurnsC (.fabricLinkDown lane) s { C with trained := fset false C.trained lane false }) ∧
    (C.open_ = true → j < 72 → C.bond j ≠ bits v.toNat 0 2 →
      Goes (.linkctlWrite j v) s (fun t => t.dieC.bond j = bits v.toNat 0 2 ∧ (∀ i, i ≠ j → t.dieC.bond i = C.bond i) ∧
        (∀ i, i < 4 → t.dieC.laneUp (4 * j + i) = false) ∧ t = { s with dieC := t.dieC })) ∧
    (C.open_ = true → n < 16 →
      (X.cmds = [] → X.parts = [] → commIs (.commWrite n v) { X with reg := v &&& 0x800FFFFF }) ∧
      ((X.cmds ≠ [] ∨ X.parts ≠ []) → commIs (.commWrite n v) { X with next := some (v &&& 0x800FFFFF) })) ∧
    (∀ kind fn fmt len root data, n < 16 → C.usable X.reg = true → rank < commRanks X.reg →
      (rank ≠ C.ownRank X.reg → X.part rank = none → kind ≤ 2 → fn ≤ 5 → [4, 5, 11, 12].contains fmt = true →
        commIs (.collContribution n rank kind fn fmt len root data)
          { X with parts := X.parts ++ [⟨rank, kind, fn, fmt, len, root, elemsOf (fmtBytes fmt) len data⟩] }) ∧
      (∀ c cs, rank = C.ownRank X.reg → X.cmds = c :: cs → X.joined rank = false → s.collLives c = true →
        exec (.collContribution n rank kind fn fmt len root data) s = .next (s.collSend n c))) ∧
    (∀ c cs, X.cmds = c :: cs → s.collLives c = true → (∀ r, r < commRanks X.reg → X.joined r = true) →
      (∀ r, X.refused c = some r → s.tellOpen .dieC c = false → exec (.collOperationComplete n) s = .next s) ∧
      (∀ r, X.refused c = some r → s.tellOpen .dieC c = true → Goes (.collOperationComplete n) s (fun t =>
        t = (s.endColl n).finish { c with fault := some (0x15, r) } 8 ∧ (t.comm n).cmds = cs ∧ (t.comm n).parts = [] ∧
        ∀ a, t.byteAt a = s.byteAt a)) ∧
      (X.refused c = none → exec (.collOperationComplete n) s = .next (s.collAdvance n X c))) ∧
    (∀ c cs, X.cmds = c :: cs → s.collLives c = false → X.joined (C.ownRank X.reg) = false →
      commIs (.collOperationComplete n) { X with reg := X.next.getD X.reg, next := none, cmds := cs, parts := [] }) ∧
    (∀ r, s.missing X = some r →
      (∀ c cs, X.cmds = c :: cs → s.collLives c = true → s.tellOpen .dieC c = true → Goes (.collTimeout n) s (fun t =>
        t = (s.endColl n).finish { c with fault := some (0x10, r) } 8 ∧ (t.comm n).cmds = cs ∧ ∀ a, t.byteAt a = s.byteAt a)) ∧
      (X.cmds = [] → X.parts ≠ [] → commIs (.collTimeout n)
        { X with reg := X.next.getD X.reg, next := none, parts := [], missed := X.missed ++ [r] }))

/-- Setting a head's EN starts it or sets BADCFG, clearing EN stops it; its link trains and is lost; lines are scanned out and
released (R376, R377, R378, R379, R380, R382).
UP and BADCFG of a disabled head, the look again at other heads and the training after a loss are log entry 44; that lines
come by events is log entry 43. -/
def Obligations.DisplayHeads : Prop :=
  ∀ (s : State) (d n : Nat) (v : Word), s.displays d = true →
    let X := s.disp d
    let H := X.head n
    let engine := fun (i : Instr) (P : Display → Prop) => Goes i s (fun t => P (t.disp d) ∧
      t.die d = { s.die d with display := t.disp d } ∧ (∀ e, (e = 0 ↔ d ≠ 0) → t.die e = s.die e) ∧
      t = { s with dieA := t.dieA, dieB := t.dieB })
    let others := fun (x : Display) => ∀ m, m ≤ 2 → m ≠ n → (x.head m).hctl = (X.head m).hctl ∧
      (hEn (X.head m).hctl = false ∨ (X.head m).running = true → x.head m = X.head m)
    (s.dieC.open_ = true → n ≤ 2 → hEn H.hctl = false → hEn v = true →
      let Y := X.setHead n { H with hctl := v &&& hctlMask }
      engine (.headEnable d n v) (fun x => others x ∧ (x.head n).hctl = v &&& hctlMask ∧
        (H.running = false → Y.headOk n = true → (x.head n).running = true ∧ (x.head n).badcfg = false ∧ (x.head n).line = 0 ∧
          (x.head n).frame = 0 ∧ (x.head n).up = false) ∧
        (H.running = false → Y.headOk n = false → x.head n = { H with hctl := v &&& hctlMask, frame := 0, badcfg := true }))) ∧
    (s.dieC.open_ = true → n ≤ 2 → hEn H.hctl = true → hEn v = false →
      engine (.headDisable d n v) (fun x => others x ∧
        x.head n = { H with hctl := v &&& hctlMask, running := false, badcfg := false, up := false, training := false })) ∧
    (n < 2 → H.running = true → H.training = true → H.up = false → H.fits = true →
      engine (.headLinkTrained d n) (fun x => x = X.setHead n { H with up := true })) ∧
    (n < 2 → H.up = true → Goes (.displayLinkLoss d n) s (fun t => ((t.disp d).head n).up = false ∧
      ((t.disp d).head n).training = false ∧ ((t.disp d).head n).hctl = H.hctl ∧ t.groups.length = s.groups.length)) ∧
    (n ≤ 2 → H.running = true → X.lineWaits n = false →
      (H.line = 0 → X.headOk n = false →
        engine (.scanoutLine d n) (fun x => x = X.setHead n { H with running := false, badcfg := true })) ∧
      ((H.line = 0 → X.headOk n = true) →
        Goes (.scanoutLine d n) s (fun t => ((t.disp d).head n).running = true ∧
          (n < 2 → H.up = false → ((t.disp d).head n).sent = H.sent) ∧
          (H.line ≠ 0 → ((t.disp d).head n).line = (if H.line + 1 < H.vtot then H.line + 1 else 0) ∧
            ((t.disp d).head n).frame = (if H.line + 1 < H.vtot then H.frame else H.frame + 1)) ∧
          (H.line = 0 → ((t.disp d).head n).ctl = H.hctl ∧ ((t.disp d).head n).fb = H.hfb ∧ ((t.disp d).head n).pitch = H.hpitch)))) ∧
    (∀ f flags, X.owed = some (f, flags) → Goes (.head2FrameRelease d) s (fun t => (t.disp d).owed = none ∧
      ∀ m, m < 2 → (t.disp d).head m = X.head m))

/-- Kiln is enabled and disabled, takes its program and its sources, and every band has a path: network, reprojection, repeat or
fill (R381, R382, R384, R386, R391, R392, R393, R394, R396).
KCTL that applies at once while Kiln is stopped and the band log's fields are log entry 45. -/
def Obligations.KilnWorks : Prop :=
  ∀ (s : State) (d : Nat) (v : Word), s.displays d = true →
    let X := s.disp d
    let engine := fun (i : Instr) (P : Display → Prop) => Goes i s (fun t => P (t.disp d) ∧
      (∀ m, m ≤ 2 → (t.disp d).head m = X.head m) ∧ t.die d = { s.die d with display := t.disp d } ∧
      (∀ e, (e = 0 ↔ d ≠ 0) → t.die e = s.die e) ∧ t = { s with dieA := t.dieA, dieB := t.dieB })
    let looked := fun (i : Instr) (P : Display → Prop) => Goes i s (fun t => P (t.disp d) ∧
      (∀ m, m ≤ 2 → hEn (X.head m).hctl = false ∨ (X.head m).running = true → (t.disp d).head m = X.head m) ∧
      t.die d = { s.die d with display := t.disp d } ∧ (∀ e, (e = 0 ↔ d ≠ 0) → t.die e = s.die e) ∧
      t = { s with dieA := t.dieA, dieB := t.dieB })
    let shown := fun (i : Instr) (P : Display → Prop) => Goes i s (fun t => P (t.disp d) ∧ t.teams.length = s.teams.length)
    (s.dieC.open_ = true → kEn X.kctl = false → kEn v = true → looked (.kilnEnable d v) (fun x => x.reading = none ∧
      x.kctl = v &&& kctlMask ∧ x.kcur = v &&& kctlMask ∧ x.frames = [] ∧ x.sources = [] ∧ x.cur = none ∧ x.ready = [] ∧
      x.run = x.kilnFits ∧ x.badcfg = !x.kilnFits)) ∧
    (s.dieC.open_ = true → kEn X.kctl = true → kEn v = false → looked (.kilnDisable d v) (fun x => x.reading = none ∧
      x.kctl = v &&& kctlMask ∧ x.frames = [] ∧ x.cur = none ∧ x.run = false ∧ x.badcfg = false)) ∧
    (∀ p : Dword, s.dieC.open_ = true → engine (.kprogWrite d p) (fun x => x = { X with kprog := p, marked := true })) ∧
    (X.latchDue = true → shown (.kilnLatch d) (fun x => x.kcur = X.kctl ∧ x.marked = false ∧
      ∃ f, f ∈ x.frames ∧ f.frame = (X.head (kHead X.kctl)).frame + 1 ∧ f.ctl = X.kctl ∧ f.next = 0 ∧ f.working = false)) ∧
    (∀ base, X.run = true → X.reading = some base → shown (.programValidated d) (fun x => x.reading = none ∧ x.progok = x.prog.isSome ∧
      (∀ f ∈ x.frames, f.waits = false) ∧ (x.prog = none → x.progok = false))) ∧
    (∀ f, X.nextNet = some f → engine (.bandStart d) (fun x => ffind x.held (f.next % 4) = some (f.frame, f.next) ∧
      (∀ r, r < 16 → fget false x.ready (16 * (f.next % 4) + r) = false) ∧
      ∀ g ∈ x.frames, g.frame = f.frame → g = { f with working := true })) ∧
    (∀ f p x0, X.run = true → X.frames.find? KFrame.working = some f → f.prog = some p → X.sourceOf f = some x0 →
      shown (.bandNetworkDone d) (fun x => ∀ g ∈ x.frames, g.frame = f.frame → g.working = false ∧ g.next = f.next + 1)) ∧
    (∀ f, X.deadlineAt = some f → f.fall = 0 →
      (f.done.contains f.due = true → engine (.networkDeadline d) (fun x => fget 0 x.paths (f.due % 4) = 0 ∧
        ∀ g ∈ x.frames, g.frame = f.frame → g.due = f.due + 1 ∧ g.fall = 0 ∧ (g.logAt f.due).path = 0)) ∧
      (f.done.contains f.due = false → engine (.networkDeadline d) (fun x => fget 0 x.paths (f.due % 4) = (if f.late then 2 else 1) ∧
        ∀ g ∈ x.frames, g.frame = f.frame → g.due = f.due + 1 ∧ g.fall = (if f.late then 2 else 1) ∧ g.fallBand = f.due))) ∧
    (∀ f x0, X.run = true → X.frames.find? (fun f => f.fall == 1) = some f → X.sourceOf f = some x0 →
      shown (.reprojectionDone d) (fun x => ∀ g ∈ x.frames, g.frame = f.frame → g.fall = 0 ∨
        (g.fall = 2 ∧ (g.logAt f.fallBand).fault = true ∧ fget 0 x.paths (f.fallBand % 4) = 2))) ∧
    (∀ f, X.run = true → X.frames.find? (fun f => f.fall == 2) = some f →
      shown (.repeatDone d) (fun x => ∀ g ∈ x.frames, g.frame = f.frame → g.fall = 0)) ∧
    (∀ f, X.underAt = some f → shown (.bandUnderrun d) (fun x => ∀ g ∈ x.frames, g.frame = f.frame →
      g.fall = 0 ∧ (g.logAt f.fallBand).under = true)) ∧
    (∀ key x0, X.run = true → X.cur = some key → X.source = some x0 → X.estimates x0 = true → x0.blocks < blocksIn x0.entry →
      shown (.motionBlockDone d) (fun x => ∃ x1, x.source = some x1 ∧ x1.blocks = x0.blocks + 1 ∧ x1.entry = x0.entry))

/-- A host reads, writes and operates on memory through its window; ports, semaphores, interrupts, mailboxes and the flash do as
told (R296, R316, R433, R434, R435, R436, R438, R443, R444, R445).
HOST_WRITE with p + 2 is log entry 81, the window on a HOSTM page log entry 53, the checks of FLOFF and FLLEN by every flash
command log entry 47. -/
def Obligations.HostsAndMailboxes : Prop :=
  ∀ (s : State) (p off n : Nat) (v : Word) (x y : Dword),
    let P := s.port p
    let portIs := fun (i : Instr) (q : Port) => Goes i s (fun t => t.port p = q ∧ (∀ e, (e = 0 ↔ p ≠ 0) → t.port e = s.port e) ∧
      t = { s with dieC := { s.dieC with port0 := t.dieC.port0, port1 := t.dieC.port1 } })
    let before := fun (w : Bool) => (s.windowTouch p off w).spent
    (s.mayAsk p off n .read = true → Goes (.hostRead p off n) s (fun t =>
      (∀ a, t.byteAt a = (before false).byteAt a) ∧ t.groups = (before false).groups ∧
      (s.window p off .read = none → t = { before false with reply := ⟨p, [], false, true⟩ }) ∧
      (∀ l key, s.window p off .read = some (l, key) → t.reply.ur = false ∧ t.reply.bytes.length = n ∧
        ∀ j, j < n → nth 0 t.reply.bytes j = if s.tainted (key + j) then 0xFF else s.byteAt (key + j)))) ∧
    (∀ (data : List Byte) ro, p < 2 → off + data.length ≤ 2 ^ 51 → Goes (.hostWrite (p + 2) off data ro) s (fun t =>
      Wrote s t (mapFrom (fun j (b : Byte) => (portKey p (off + j), b)) 0 data) ∧ t.teams = s.teams)) ∧
    (∀ (data : List Byte) ro, s.mayAsk p off data.length .write = true →
      (s.window p off .write = none → Goes (.hostWrite p off data ro) s (fun t =>
        (t.port p).hdrop = bump ((before true).port p).hdrop ∧ ∀ a, t.byteAt a = (before true).byteAt a)) ∧
      (∀ l key, s.window p off .write = some (l, key) → Goes (.hostWrite p off data ro) s (fun t =>
        Wrote (before true) t ((before true).effective (mapFrom (fun j (b : Byte) => (key + j, b)) 0 data)) ∧ t.teams = s.teams))) ∧
    (∀ fn, fn ≤ 2 → s.mayAsk p off n .both = true →
      let refused : State := { s with reply := ⟨p, [], false, true⟩ }
      (n = 16 → off % 16 = 0 → exec (.hostAtomicop p off n fn x y) s = .next refused) ∧
      ((n = 4 ∨ n = 8) → off % n = 0 →
        (s.window p off .both = none → Goes (.hostAtomicop p off n fn x y) s (fun t => t.reply = ⟨p, [], false, true⟩ ∧
          ∀ a, t.byteAt a = (s.windowTouch p off false).byteAt a)) ∧
        (∀ l key, s.window p off .both = some (l, key) →
          (pteSys l.entry = false → exec (.hostAtomicop p off n fn x y) s = .next refused) ∧
          (pteSys l.entry = true → s.tainted key = false →
            let old := s.natAt key n
            let r := opx (hostFn fn) n old x.toNat y.toNat
            let t0 := s.touch P.hwAs l r.2
            Goes (.hostAtomicop p off n fn x y) s (fun t => t.reply = ⟨p, bytesOf old n, false, false⟩ ∧
              Wrote t0 t (if r.2 = true then t0.effective (cellsOf key r.1 n) else []))))) ∧
      ((n ≠ 4 ∧ n ≠ 8 ∧ n ≠ 16 ∨ off % n ≠ 0) → exec (.hostAtomicop p off n fn x y) s = .next s)) ∧
    (p < 2 → (1 ≤ s.dieC.bootstat → portIs (.hostLinkUp p) { P with up := true }) ∧
      (P.up = true → Goes (.hostLinkDown p) s (fun t => (t.port p).up = false ∧ (t.port p).evctl.getLsbD 31 = false ∧
        ∀ m, m < 8 → fget 0 t.dieC.sems m ≠ p + 1 ∧ (fget 0 s.dieC.sems m ≠ p + 1 → fget 0 t.dieC.sems m = fget 0 s.dieC.sems m))) ∧
      (v.getLsbD 31 = true → P.evEn = false → Goes (.evctlEnable p v) s (fun t => (t.port p).evctl = v &&& evctlMask ∧
        (s.dieC.refusal = 0 → (t.port p).evseq = 0 ∧ ∀ a, t.byteAt a = s.byteAt a))) ∧
      (P.owed = true → portIs (.msixInterrupt p) { P with owed := false, sent := P.sent + 1 })) ∧
    (n < 8 → ∀ agent, s.reaches agent = true →
      Goes (.semRead n agent) s (fun t => t.reply = ⟨agent, bytesOf (fget 0 s.dieC.sems n) 4, false, false⟩ ∧
        ∀ m, fget 0 t.dieC.sems m = if m = n ∧ fget 0 s.dieC.sems n = 0 then agent + 1 else fget 0 s.dieC.sems m) ∧
      Goes (.semRelease n agent v) s (fun t =>
        (∀ m, fget 0 t.dieC.sems m = if m = n ∧ bits v.toNat 0 2 = agent ∧ fget 0 s.dieC.sems n = agent + 1 then 0 else fget 0 s.dieC.sems m) ∧
        t = { s with dieC := { s.dieC with sems := t.dieC.sems } })) ∧
    (p < 2 → P.busy = false →
      (bits v.toNat 0 8 = 1 → portIs (.getcert p v) { P with mbcmd := v &&& 0xFF, busy := true }) ∧
      (bits v.toNat 0 8 = 2 → portIs (.attest p v) { P with mbcmd := v &&& 0xFF, busy := true }) ∧
      (bits v.toNat 0 8 = 3 → Goes (.extend p v) s (fun t => t.port p = { P with mbcmd := v &&& 0xFF, busy := true } ∧
        (∀ e, (e = 0 ↔ p ≠ 0) → t.port e = s.port e) ∧ t = { s with dieC :=
          { s.dieC with port0 := t.dieC.port0, port1 := t.dieC.port1, extending := s.dieC.extending ++ [p] } })) ∧
      ((bits v.toNat 0 8 = 0 ∨ 3 < bits v.toNat 0 8) → portIs (.mailboxUnknown p v) { P with mbcmd := v &&& 0xFF, result := 1, len := 0 })) ∧
    (p < 2 → P.busy = true → (P.mbcmd = 3 → s.dieC.extending.head? = some p) → Goes (.mailboxDone p) s (fun t => (t.port p).busy = false ∧ (t.port p).mbcmd = P.mbcmd ∧
      (P.mbcmd = 3 → t.dieC.meas2 = sha256 (s.dieC.meas2 ++ P.windowBytes 32) ∧ (t.port p).result = 0 ∧ (t.port p).len = 0) ∧
      (P.mbcmd = 1 ∨ P.mbcmd = 2 → t.dieC.meas2 = s.dieC.meas2) ∧ (P.mbcmd = 2 → (t.port p).result = 0 ∧ (t.port p).len = 256))) ∧
    (s.dieC.flcmd = 0 →
      let C := { s.dieC with flat := (s.dieC.floff.toNat, s.dieC.fllen.toNat) }
      (bits v.toNat 0 8 = 1 → TurnsC (.flashErase v) s { C with flcmd := 1 }) ∧
      (bits v.toNat 0 8 = 2 → TurnsC (.flashProgram v) s { C with flcmd := 2 }) ∧
      (bits v.toNat 0 8 = 3 → TurnsC (.flashRead v) s { C with flcmd := 3 })) ∧
    (s.dieC.flcmd ≠ 0 → ∀ ok,
      let at_ := s.dieC.flat
      Goes (.flashCommandDone ok) s (fun t => t.dieC.flcmd = 0 ∧
        (flashFits at_ = false → t.dieC = { s.dieC with flcmd := 0, flresult := 1 }) ∧
        (flashFits at_ = true → ok = false → s.dieC.flcmd ≠ 3 → t.dieC = { s.dieC with flcmd := 0, flresult := 2 }) ∧
        (flashFits at_ = true → ok = true → s.dieC.flcmd = 1 → t.dieC.flresult = 0 ∧ ∀ o, t.dieC.flashAt o =
          if at_.1 ≤ o ∧ o < at_.1 + 65536 then 0xFF else s.dieC.flashAt o) ∧
        (flashFits at_ = true → ok = true → s.dieC.flcmd = 2 → t.dieC.flresult = 0 ∧ ∀ o, t.dieC.flashAt o =
          if at_.1 ≤ o ∧ o < at_.1 + at_.2 then s.dieC.flashAt o &&& fget 0 s.dieC.flwin (o - at_.1) else s.dieC.flashAt o) ∧
        (flashFits at_ = true → s.dieC.flcmd = 3 → t.dieC.flresult = 0 ∧ (∀ o, t.dieC.flashAt o = s.dieC.flashAt o) ∧
          ∀ j, fget 0 t.dieC.flwin j = if j < at_.2 then s.dieC.flashAt (at_.1 + j) else fget 0 s.dieC.flwin j)))

/-- A register write changes its own register alone, a write of 0 clears a counter; samples are kept, 105 °C fences, the clock
follows (R338, R371, R421, R427, R434, R442, R448, R449, R451, R452).
Samples that come as events, and the clock's steps, are log entry 61; the places of registers in BAR0 are log entry 47. -/
def Obligations.RegistersPowerHeat : Prop :=
  ∀ (s : State) (d n : Nat) (v : Word) (x : Dword),
    let w : Word := x.setWidth 32
    let hstat := fun (m : Nat) => ∃ e h, e < 2 ∧ h < 3 ∧ m = computeBlock e + 0x10000 + 0x100 * h + 0x30
    let alone := fun (t : State) => t = { s with dieA := t.dieA, dieB := t.dieB, dieC := t.dieC } ∧
      ∀ m, m ≠ n → ¬ hstat m → t.register m = s.register m
    (s.dieC.open_ = true → TurnsC (.dispctlWrite v) s { s.dieC with dispctl := v &&& 0x0FFF00F1 }) ∧
    (s.dieC.open_ = false → exec (.dispctlWrite v) s = .next s) ∧
    Goes (.registerWrite n x) s alone ∧
    Goes (.counterClear n x) s (fun t => alone t ∧ ((w ≠ 0 ∨ s.dieC.open_ = false) → t = s)) ∧
    (s.dieC.open_ = true → d < 2 →
      let portIs := fun (i : Instr) (p : Port) => Goes i s (fun t => t.port d = p ∧ (∀ e, (e = 0 ↔ d ≠ 0) → t.port e = s.port e) ∧
        t = { s with dieC := { s.dieC with port0 := t.dieC.port0, port1 := t.dieC.port1 } })
      portIs (.registerWrite (portBlock d + 8) x) { s.port d with hwbase := x &&& 0xFFFFFFFFFFFF0000 } ∧
      portIs (.registerWrite (portBlock d + 0x18) x) { s.port d with evbase := x &&& 0xFFFFFFFFFFFFF000 } ∧
      TurnsDie (.registerWrite (computeBlock d + 8) x) s d { s.die d with ordwd := BitVec.ofNat 32 (max 10 (bits w.toNat 0 5)) } ∧
      TurnsDie (.registerWrite (computeBlock d + 0x10) x) s d { s.die d with
        tlim := max 70 (min 95 (bits w.toNat 16 8)), tmax := if bits w.toNat 8 8 = 0 then 0 else (s.die d).tmax } ∧
      (w = 0 →
        portIs (.counterClear (portBlock d + 0x10) x) { s.port d with hdrop := 0 } ∧
        TurnsDie (.counterClear (place8 dieBlock (2 + d)) x) s d { s.die d with drops := 0 } ∧
        TurnsDie (.counterClear (computeBlock d + 0x38) x) s d { s.die d with cecount := 0 } ∧
        ∀ i, i < 8 → TurnsDie (.counterClear (computeBlock d + 0x10460 + 8 * i) x) s d { s.die d with
          display := { s.disp d with counters := fset 0 (s.disp d).counters i 0 } })) ∧
    (s.dieC.open_ = true →
      TurnsC (.registerWrite (fabricBlock + 8 * 72) x) s { s.dieC with modid := w &&& 0x3FF } ∧
      (n < 1024 → TurnsC (.registerWrite (fabricBlock + 8 * (73 + n)) x) s
        { s.dieC with routes := fset 0x1FF s.dieC.routes n (w &&& 0x1FF) }) ∧
      (n < 256 → TurnsC (.registerWrite (0x10 + 8 * n) x) s { s.dieC with asroot := fset 0 s.dieC.asroot n (x &&& 0xFFFFFFFFFF01FFFF) }) ∧
      TurnsC (.registerWrite (place8 dieBlock 6) x) s { s.dieC with pwrlim := max 800 (min 1600 w.toNat) }) ∧
    TurnsC (.powerSample n) s { s.dieC with power := n } ∧
    (2 ≤ d → exec (.thermalSample d n) s = .next s ∧ exec (.throttleStep d) s = .next s) ∧
    (d < 2 →
      let D := s.die d
      let heated := { D with tnow := min n 255, tmax := max D.tmax (min n 255) }
      (n < 105 → TurnsDie (.thermalSample d n) s d heated) ∧
      (105 ≤ n → Goes (.thermalSample d n) s (fun t => t = (s.setDie d heated).fenceDie d 2 3 ∧ (t.die d).tnow = min n 255 ∧
        (s.fences d 2 = true → (t.die d).state = 2 ∧ (t.die d).cause = 3))) ∧
      TurnsDie (.throttleStep d) s d { D with clock :=
        if s.dieC.pwrlim < s.dieC.power ∨ D.tlim < D.tnow then max 1880 (D.clock - 235) else min 3760 (D.clock + 235) })
end

