-- ==== Sys2Proof/Laws/Alu.lean ====
section
/-!
SUPPORT.  The integer functions, each equal to the formula of its rule (R88 to R90).
-/

namespace Sys2Proof.Machine

theorem aluMulhs_eq (a b : Word) : aluMulhs a b = BitVec.ofNat 32 (bits (a.toInt * b.toInt % 2 ^ 64).toNat 32 32) := by
  unfold aluMulhs wordOfInt bits
  generalize a.toInt * b.toInt = x
  apply BitVec.eq_of_toNat_eq
  rw [BitVec.toNat_ofInt, BitVec.toNat_ofNat]
  norm_num
  omega

theorem aluMulhn_eq (a b : Word) : aluMulhn a b = BitVec.ofNat 32 (bits (a.toNat * b.toNat) 32 32) := by
  unfold aluMulhn bits
  apply BitVec.eq_of_toNat_eq
  simp

theorem aluMins_eq (a b : Word) : aluMins a b = BitVec.ofInt 32 (min a.toInt b.toInt) := by
  unfold aluMins; split
  · rw [min_eq_left ‹_›]; simp
  · rw [min_eq_right (by omega)]; simp

theorem aluMaxs_eq (a b : Word) : aluMaxs a b = BitVec.ofInt 32 (max a.toInt b.toInt) := by
  unfold aluMaxs; split
  · rw [max_eq_right ‹_›]; simp
  · rw [max_eq_left (by omega)]; simp

theorem aluMinn_eq (a b : Word) : aluMinn a b = BitVec.ofNat 32 (min a.toNat b.toNat) := by
  unfold aluMinn; split
  · rw [min_eq_left ‹_›]; simp
  · rw [min_eq_right (by omega)]; simp

theorem aluMaxn_eq (a b : Word) : aluMaxn a b = BitVec.ofNat 32 (max a.toNat b.toNat) := by
  unfold aluMaxn; split
  · rw [max_eq_right ‹_›]; simp
  · rw [max_eq_left (by omega)]; simp

theorem aluShl_eq (a b : Word) : aluShl a b = if b.toNat < 32 then BitVec.ofNat 32 (a.toNat * 2 ^ b.toNat) else 0 := by
  unfold aluShl; split
  · apply BitVec.eq_of_toNat_eq; simp [Nat.shiftLeft_eq]
  · rfl

theorem aluShrn_eq (a b : Word) : aluShrn a b = if b.toNat < 32 then BitVec.ofNat 32 (a.toNat / 2 ^ b.toNat) else 0 := by
  unfold aluShrn; split
  · apply BitVec.eq_of_toNat_eq
    have := a.isLt
    have h2 : a.toNat / 2 ^ b.toNat < 2 ^ 32 := Nat.lt_of_le_of_lt (Nat.div_le_self _ _) this
    rw [BitVec.toNat_ushiftRight, Nat.shiftRight_eq_div_pow, BitVec.toNat_ofNat, Nat.mod_eq_of_lt h2]
  · rfl

theorem aluShrs_eq (a b : Word) : aluShrs a b
    = if b.toNat < 32 then BitVec.ofInt 32 (a.toInt / 2 ^ b.toNat) else if a.toInt < 0 then 0xFFFFFFFF else 0 := by
  unfold aluShrs; split
  · rename_i h
    rw [min_eq_left (by omega)]
    apply BitVec.eq_of_toInt_eq
    rw [BitVec.toInt_sshiftRight, BitVec.toInt_ofInt, Int.shiftRight_eq_div_pow]
    have h1 := BitVec.toInt_lt (x := a)
    have h2 := BitVec.le_toInt (x := a)
    have hp : (0 : Int) < 2 ^ b.toNat := by positivity
    symm
    apply Int.bmod_eq_of_le
    · have : -(2 : Int) ^ 31 ≤ a.toInt / 2 ^ b.toNat := by
        rw [Int.le_ediv_iff_mul_le hp]
        have : (1 : Int) ≤ 2 ^ b.toNat := hp
        norm_num at h2
        nlinarith
      norm_num at this ⊢
      omega
    · have : a.toInt / 2 ^ b.toNat < (2 : Int) ^ 31 := by
        rw [Int.ediv_lt_iff_lt_mul hp]
        have : (1 : Int) ≤ 2 ^ b.toNat := hp
        norm_num at h1
        nlinarith
      norm_num at this ⊢
      omega
  · rename_i h
    rw [min_eq_right (by omega)]
    apply BitVec.eq_of_toInt_eq
    rw [BitVec.toInt_sshiftRight, Int.shiftRight_eq_div_pow]
    have h1 := BitVec.toInt_lt (x := a)
    have h2 := BitVec.le_toInt (x := a)
    norm_num at h1 h2
    split
    · have : ((0xFFFFFFFF : Word)).toInt = -1 := by decide
      rw [this]; norm_num; omega
    · have : ((0 : Word)).toInt = 0 := by decide
      rw [this]; norm_num; omega

theorem bits_one (x k : Nat) : bits x k 1 = (x.testBit k).toNat := by
  simp only [bits, pow_one, Nat.testBit_eq_decide_div_mod_eq]
  have : x / 2 ^ k % 2 = 0 ∨ x / 2 ^ k % 2 = 1 := by omega
  rcases this with h | h <;> simp [h]

theorem popCount_eq (x n : Nat) : popCount x n = ((List.range n).filter (fun k => x.testBit k)).length := by
  induction n with
  | zero => rfl
  | succ n ih =>
    simp only [popCount, ih, bits_one, List.range_succ, List.filter_append, List.length_append]
    cases h : x.testBit n <;> simp [h]

theorem aluPopc_eq (a : Word) : aluPopc a = BitVec.ofNat 32 ((List.range 32).filter (fun k => a.getLsbD k)).length := by
  unfold aluPopc; rw [popCount_eq]; rfl

theorem filter_lt_pow (x n : Nat) (h : x < 2 ^ n) : ((List.range n).filter (fun k => decide (x < 2 ^ k))).length
    = if x = 0 then n else n - 1 - x.log2 := by
  split
  · subst_vars; simp
  · rename_i hx
    have hlog : x.log2 < n := by rwa [Nat.log2_lt hx]
    have : (List.range n).filter (fun k => decide (x < 2 ^ k)) = (List.range n).filter (fun k => decide (x.log2 < k)) := by
      apply List.filter_congr; intro k _; simp [Nat.log2_lt hx]
    rw [this]
    clear this h
    have key : ∀ m n : Nat, ((List.range n).filter (fun k => decide (m < k))).length = n - 1 - m := by
      intro m n
      induction n with
      | zero => simp
      | succ n ih =>
        simp only [List.range_succ, List.filter_append, List.length_append, ih]
        by_cases h : m < n
        · simp [h]; omega
        · simp [h]; omega
    exact key _ _

theorem aluClz_eq (a : Word) : aluClz a = BitVec.ofNat 32 ((List.range 32).filter (fun k => decide (a.toNat < 2 ^ k))).length := by
  rw [filter_lt_pow _ _ a.isLt]
  unfold aluClz
  by_cases h : a = 0
  · subst h; rfl
  · have : a.toNat ≠ 0 := fun h0 => h (BitVec.eq_of_toNat_eq (by simpa using h0))
    rw [if_neg h, if_neg this]

theorem revBits_lt (x n : Nat) : revBits x n < 2 ^ n := by
  induction n generalizing x with
  | zero => simp [revBits]
  | succ n ih =>
    have h := ih (x / 2)
    have hb : bits x 0 1 < 2 := by unfold bits; omega
    simp only [revBits, pow_succ]
    nlinarith [Nat.two_pow_pos n]

theorem revBits_testBit (x n k : Nat) : (revBits x n).testBit k = (decide (k < n) && x.testBit (n - 1 - k)) := by
  induction n generalizing x with
  | zero => simp [revBits]
  | succ n ih =>
    have hlt := revBits_lt (x / 2) n
    simp only [revBits, bits_one]
    rw [Nat.add_comm, Nat.mul_comm, Nat.testBit_two_pow_mul_add _ hlt, ih]
    by_cases hk : k < n
    · simp only [hk, if_true, decide_true, Bool.true_and, show k < n + 1 by omega]
      rw [Nat.testBit_div_two]
      congr 1; omega
    · simp only [hk, if_false]
      by_cases he : k = n
      · subst he; cases h : x.testBit 0 <;> simp [h]
      · have : ¬(k < n + 1) := by omega
        simp only [this, decide_false, Bool.false_and]
        have hpos : k - n = (k - n - 1) + 1 := by omega
        rw [hpos]
        cases x.testBit 0 <;> simp [Nat.testBit_succ]

theorem aluBrev_eq (a : Word) : aluBrev a = a.reverse := by
  unfold aluBrev
  apply BitVec.eq_of_getLsbD_eq
  intro i hi
  rw [BitVec.getLsbD_ofNat, revBits_testBit, BitVec.getLsbD_reverse, BitVec.getMsbD_eq_getLsbD]
  simp [hi, BitVec.getLsbD]

end Sys2Proof.Machine
end

