-- ==== Sys2Proof/Laws/Decode.lean ====
section
/-!
SUPPORT.  The layouts read back what they were packed from, and the codes of the named fields are inverse to their
readings.  The round trip of the decoder and the encoder rests on these.
-/

namespace Sys2Proof

theorem packR_toNat (c : Bool) (mj : BitVec 6) (fn : BitVec 4) (d : Reg) (a : Reg) (b : Reg) :
    (packR c mj fn d a b).toNat = c.toNat * 2147483648 + mj.toNat * 33554432 + fn.toNat * 2097152 + d.toNat * 16384 + a.toNat * 128 + b.toNat := by
  have h0 := Bool.toNat_lt c
  have h1 := mj.isLt
  have h2 := fn.isLt
  have h3 := d.isLt
  have h4 := a.isLt
  have h5 := b.isLt
  simp only [packR, BitVec.toNat_ofNat]; omega

@[simp] theorem rFn_packR (c : Bool) (mj : BitVec 6) (fn : BitVec 4) (d : Reg) (a : Reg) (b : Reg) :
    rFn (packR c mj fn d a b) = fn := by
  have h0 := Bool.toNat_lt c
  have h1 := mj.isLt
  have h2 := fn.isLt
  have h3 := d.isLt
  have h4 := a.isLt
  have h5 := b.isLt
  apply BitVec.eq_of_toNat_eq
  simp only [rFn, fieldOf, BitVec.toNat_ofNat, packR_toNat]; omega

@[simp] theorem rD_packR (c : Bool) (mj : BitVec 6) (fn : BitVec 4) (d : Reg) (a : Reg) (b : Reg) :
    rD (packR c mj fn d a b) = d := by
  have h0 := Bool.toNat_lt c
  have h1 := mj.isLt
  have h2 := fn.isLt
  have h3 := d.isLt
  have h4 := a.isLt
  have h5 := b.isLt
  apply BitVec.eq_of_toNat_eq
  simp only [rD, fieldOf, BitVec.toNat_ofNat, packR_toNat]; omega

@[simp] theorem rA_packR (c : Bool) (mj : BitVec 6) (fn : BitVec 4) (d : Reg) (a : Reg) (b : Reg) :
    rA (packR c mj fn d a b) = a := by
  have h0 := Bool.toNat_lt c
  have h1 := mj.isLt
  have h2 := fn.isLt
  have h3 := d.isLt
  have h4 := a.isLt
  have h5 := b.isLt
  apply BitVec.eq_of_toNat_eq
  simp only [rA, fieldOf, BitVec.toNat_ofNat, packR_toNat]; omega

@[simp] theorem rB_packR (c : Bool) (mj : BitVec 6) (fn : BitVec 4) (d : Reg) (a : Reg) (b : Reg) :
    rB (packR c mj fn d a b) = b := by
  have h0 := Bool.toNat_lt c
  have h1 := mj.isLt
  have h2 := fn.isLt
  have h3 := d.isLt
  have h4 := a.isLt
  have h5 := b.isLt
  apply BitVec.eq_of_toNat_eq
  simp only [rB, fieldOf, BitVec.toNat_ofNat, packR_toNat]; omega

@[simp] theorem majorOf_packR (c : Bool) (mj : BitVec 6) (fn : BitVec 4) (d : Reg) (a : Reg) (b : Reg) :
    majorOf (packR c mj fn d a b) = mj := by
  have h0 := Bool.toNat_lt c
  have h1 := mj.isLt
  have h2 := fn.isLt
  have h3 := d.isLt
  have h4 := a.isLt
  have h5 := b.isLt
  apply BitVec.eq_of_toNat_eq
  simp only [majorOf, fieldOf, BitVec.toNat_ofNat, packR_toNat]; omega

@[simp] theorem tieBit_packR (c : Bool) (mj : BitVec 6) (fn : BitVec 4) (d : Reg) (a : Reg) (b : Reg) :
    tieBit (packR c mj fn d a b) = BitVec.ofBool c := by
  have h0 := Bool.toNat_lt c
  have h1 := mj.isLt
  have h2 := fn.isLt
  have h3 := d.isLt
  have h4 := a.isLt
  have h5 := b.isLt
  apply BitVec.eq_of_toNat_eq
  simp only [tieBit, fieldOf, BitVec.toNat_ofNat, packR_toNat, BitVec.toNat_ofBool]; omega

theorem packI_toNat (c : Bool) (mj : BitVec 6) (d : Reg) (a : Reg) (imm : Imm11) :
    (packI c mj d a imm).toNat = c.toNat * 2147483648 + mj.toNat * 33554432 + d.toNat * 262144 + a.toNat * 2048 + imm.toNat := by
  have h0 := Bool.toNat_lt c
  have h1 := mj.isLt
  have h2 := d.isLt
  have h3 := a.isLt
  have h4 := imm.isLt
  simp only [packI, BitVec.toNat_ofNat]; omega

@[simp] theorem iD_packI (c : Bool) (mj : BitVec 6) (d : Reg) (a : Reg) (imm : Imm11) :
    iD (packI c mj d a imm) = d := by
  have h0 := Bool.toNat_lt c
  have h1 := mj.isLt
  have h2 := d.isLt
  have h3 := a.isLt
  have h4 := imm.isLt
  apply BitVec.eq_of_toNat_eq
  simp only [iD, fieldOf, BitVec.toNat_ofNat, packI_toNat]; omega

@[simp] theorem iA_packI (c : Bool) (mj : BitVec 6) (d : Reg) (a : Reg) (imm : Imm11) :
    iA (packI c mj d a imm) = a := by
  have h0 := Bool.toNat_lt c
  have h1 := mj.isLt
  have h2 := d.isLt
  have h3 := a.isLt
  have h4 := imm.isLt
  apply BitVec.eq_of_toNat_eq
  simp only [iA, fieldOf, BitVec.toNat_ofNat, packI_toNat]; omega

@[simp] theorem iImm_packI (c : Bool) (mj : BitVec 6) (d : Reg) (a : Reg) (imm : Imm11) :
    iImm (packI c mj d a imm) = imm := by
  have h0 := Bool.toNat_lt c
  have h1 := mj.isLt
  have h2 := d.isLt
  have h3 := a.isLt
  have h4 := imm.isLt
  apply BitVec.eq_of_toNat_eq
  simp only [iImm, fieldOf, BitVec.toNat_ofNat, packI_toNat]; omega

@[simp] theorem majorOf_packI (c : Bool) (mj : BitVec 6) (d : Reg) (a : Reg) (imm : Imm11) :
    majorOf (packI c mj d a imm) = mj := by
  have h0 := Bool.toNat_lt c
  have h1 := mj.isLt
  have h2 := d.isLt
  have h3 := a.isLt
  have h4 := imm.isLt
  apply BitVec.eq_of_toNat_eq
  simp only [majorOf, fieldOf, BitVec.toNat_ofNat, packI_toNat]; omega

@[simp] theorem tieBit_packI (c : Bool) (mj : BitVec 6) (d : Reg) (a : Reg) (imm : Imm11) :
    tieBit (packI c mj d a imm) = BitVec.ofBool c := by
  have h0 := Bool.toNat_lt c
  have h1 := mj.isLt
  have h2 := d.isLt
  have h3 := a.isLt
  have h4 := imm.isLt
  apply BitVec.eq_of_toNat_eq
  simp only [tieBit, fieldOf, BitVec.toNat_ofNat, packI_toNat, BitVec.toNat_ofBool]; omega

theorem packU_toNat (c : Bool) (mj : BitVec 6) (la : La) (d : Reg) (a : Reg) (fn : BitVec 4) (md : BitVec 3) :
    (packU c mj la d a fn md).toNat = c.toNat * 2147483648 + mj.toNat * 33554432 + la.toNat * 2097152 + d.toNat * 16384 + a.toNat * 128 + fn.toNat * 8 + md.toNat := by
  have h0 := Bool.toNat_lt c
  have h1 := mj.isLt
  have h2 := la.isLt
  have h3 := d.isLt
  have h4 := a.isLt
  have h5 := fn.isLt
  have h6 := md.isLt
  simp only [packU, BitVec.toNat_ofNat]; omega

@[simp] theorem uLa_packU (c : Bool) (mj : BitVec 6) (la : La) (d : Reg) (a : Reg) (fn : BitVec 4) (md : BitVec 3) :
    uLa (packU c mj la d a fn md) = la := by
  have h0 := Bool.toNat_lt c
  have h1 := mj.isLt
  have h2 := la.isLt
  have h3 := d.isLt
  have h4 := a.isLt
  have h5 := fn.isLt
  have h6 := md.isLt
  apply BitVec.eq_of_toNat_eq
  simp only [uLa, fieldOf, BitVec.toNat_ofNat, packU_toNat]; omega

@[simp] theorem uD_packU (c : Bool) (mj : BitVec 6) (la : La) (d : Reg) (a : Reg) (fn : BitVec 4) (md : BitVec 3) :
    uD (packU c mj la d a fn md) = d := by
  have h0 := Bool.toNat_lt c
  have h1 := mj.isLt
  have h2 := la.isLt
  have h3 := d.isLt
  have h4 := a.isLt
  have h5 := fn.isLt
  have h6 := md.isLt
  apply BitVec.eq_of_toNat_eq
  simp only [uD, fieldOf, BitVec.toNat_ofNat, packU_toNat]; omega

@[simp] theorem uA_packU (c : Bool) (mj : BitVec 6) (la : La) (d : Reg) (a : Reg) (fn : BitVec 4) (md : BitVec 3) :
    uA (packU c mj la d a fn md) = a := by
  have h0 := Bool.toNat_lt c
  have h1 := mj.isLt
  have h2 := la.isLt
  have h3 := d.isLt
  have h4 := a.isLt
  have h5 := fn.isLt
  have h6 := md.isLt
  apply BitVec.eq_of_toNat_eq
  simp only [uA, fieldOf, BitVec.toNat_ofNat, packU_toNat]; omega

@[simp] theorem uFn_packU (c : Bool) (mj : BitVec 6) (la : La) (d : Reg) (a : Reg) (fn : BitVec 4) (md : BitVec 3) :
    uFn (packU c mj la d a fn md) = fn := by
  have h0 := Bool.toNat_lt c
  have h1 := mj.isLt
  have h2 := la.isLt
  have h3 := d.isLt
  have h4 := a.isLt
  have h5 := fn.isLt
  have h6 := md.isLt
  apply BitVec.eq_of_toNat_eq
  simp only [uFn, fieldOf, BitVec.toNat_ofNat, packU_toNat]; omega

@[simp] theorem uMod_packU (c : Bool) (mj : BitVec 6) (la : La) (d : Reg) (a : Reg) (fn : BitVec 4) (md : BitVec 3) :
    uMod (packU c mj la d a fn md) = md := by
  have h0 := Bool.toNat_lt c
  have h1 := mj.isLt
  have h2 := la.isLt
  have h3 := d.isLt
  have h4 := a.isLt
  have h5 := fn.isLt
  have h6 := md.isLt
  apply BitVec.eq_of_toNat_eq
  simp only [uMod, fieldOf, BitVec.toNat_ofNat, packU_toNat]; omega

@[simp] theorem majorOf_packU (c : Bool) (mj : BitVec 6) (la : La) (d : Reg) (a : Reg) (fn : BitVec 4) (md : BitVec 3) :
    majorOf (packU c mj la d a fn md) = mj := by
  have h0 := Bool.toNat_lt c
  have h1 := mj.isLt
  have h2 := la.isLt
  have h3 := d.isLt
  have h4 := a.isLt
  have h5 := fn.isLt
  have h6 := md.isLt
  apply BitVec.eq_of_toNat_eq
  simp only [majorOf, fieldOf, BitVec.toNat_ofNat, packU_toNat]; omega

@[simp] theorem tieBit_packU (c : Bool) (mj : BitVec 6) (la : La) (d : Reg) (a : Reg) (fn : BitVec 4) (md : BitVec 3) :
    tieBit (packU c mj la d a fn md) = BitVec.ofBool c := by
  have h0 := Bool.toNat_lt c
  have h1 := mj.isLt
  have h2 := la.isLt
  have h3 := d.isLt
  have h4 := a.isLt
  have h5 := fn.isLt
  have h6 := md.isLt
  apply BitVec.eq_of_toNat_eq
  simp only [tieBit, fieldOf, BitVec.toNat_ofNat, packU_toNat, BitVec.toNat_ofBool]; omega

theorem packM_toNat (c : Bool) (mj : BitVec 6) (la : La) (d : Reg) (a : Reg) (sz : BitVec 3) (os : BitVec 3) (x : BitVec 1) :
    (packM c mj la d a sz os x).toNat = c.toNat * 2147483648 + mj.toNat * 33554432 + la.toNat * 2097152 + d.toNat * 16384 + a.toNat * 128 + sz.toNat * 16 + os.toNat * 2 + x.toNat := by
  have h0 := Bool.toNat_lt c
  have h1 := mj.isLt
  have h2 := la.isLt
  have h3 := d.isLt
  have h4 := a.isLt
  have h5 := sz.isLt
  have h6 := os.isLt
  have h7 := x.isLt
  simp only [packM, BitVec.toNat_ofNat]; omega

@[simp] theorem mLa_packM (c : Bool) (mj : BitVec 6) (la : La) (d : Reg) (a : Reg) (sz : BitVec 3) (os : BitVec 3) (x : BitVec 1) :
    mLa (packM c mj la d a sz os x) = la := by
  have h0 := Bool.toNat_lt c
  have h1 := mj.isLt
  have h2 := la.isLt
  have h3 := d.isLt
  have h4 := a.isLt
  have h5 := sz.isLt
  have h6 := os.isLt
  have h7 := x.isLt
  apply BitVec.eq_of_toNat_eq
  simp only [mLa, fieldOf, BitVec.toNat_ofNat, packM_toNat]; omega

@[simp] theorem mD_packM (c : Bool) (mj : BitVec 6) (la : La) (d : Reg) (a : Reg) (sz : BitVec 3) (os : BitVec 3) (x : BitVec 1) :
    mD (packM c mj la d a sz os x) = d := by
  have h0 := Bool.toNat_lt c
  have h1 := mj.isLt
  have h2 := la.isLt
  have h3 := d.isLt
  have h4 := a.isLt
  have h5 := sz.isLt
  have h6 := os.isLt
  have h7 := x.isLt
  apply BitVec.eq_of_toNat_eq
  simp only [mD, fieldOf, BitVec.toNat_ofNat, packM_toNat]; omega

@[simp] theorem mA_packM (c : Bool) (mj : BitVec 6) (la : La) (d : Reg) (a : Reg) (sz : BitVec 3) (os : BitVec 3) (x : BitVec 1) :
    mA (packM c mj la d a sz os x) = a := by
  have h0 := Bool.toNat_lt c
  have h1 := mj.isLt
  have h2 := la.isLt
  have h3 := d.isLt
  have h4 := a.isLt
  have h5 := sz.isLt
  have h6 := os.isLt
  have h7 := x.isLt
  apply BitVec.eq_of_toNat_eq
  simp only [mA, fieldOf, BitVec.toNat_ofNat, packM_toNat]; omega

@[simp] theorem mSz_packM (c : Bool) (mj : BitVec 6) (la : La) (d : Reg) (a : Reg) (sz : BitVec 3) (os : BitVec 3) (x : BitVec 1) :
    mSz (packM c mj la d a sz os x) = sz := by
  have h0 := Bool.toNat_lt c
  have h1 := mj.isLt
  have h2 := la.isLt
  have h3 := d.isLt
  have h4 := a.isLt
  have h5 := sz.isLt
  have h6 := os.isLt
  have h7 := x.isLt
  apply BitVec.eq_of_toNat_eq
  simp only [mSz, fieldOf, BitVec.toNat_ofNat, packM_toNat]; omega

@[simp] theorem mOs_packM (c : Bool) (mj : BitVec 6) (la : La) (d : Reg) (a : Reg) (sz : BitVec 3) (os : BitVec 3) (x : BitVec 1) :
    mOs (packM c mj la d a sz os x) = os := by
  have h0 := Bool.toNat_lt c
  have h1 := mj.isLt
  have h2 := la.isLt
  have h3 := d.isLt
  have h4 := a.isLt
  have h5 := sz.isLt
  have h6 := os.isLt
  have h7 := x.isLt
  apply BitVec.eq_of_toNat_eq
  simp only [mOs, fieldOf, BitVec.toNat_ofNat, packM_toNat]; omega

@[simp] theorem mX_packM (c : Bool) (mj : BitVec 6) (la : La) (d : Reg) (a : Reg) (sz : BitVec 3) (os : BitVec 3) (x : BitVec 1) :
    mX (packM c mj la d a sz os x) = x := by
  have h0 := Bool.toNat_lt c
  have h1 := mj.isLt
  have h2 := la.isLt
  have h3 := d.isLt
  have h4 := a.isLt
  have h5 := sz.isLt
  have h6 := os.isLt
  have h7 := x.isLt
  apply BitVec.eq_of_toNat_eq
  simp only [mX, fieldOf, BitVec.toNat_ofNat, packM_toNat]; omega

@[simp] theorem majorOf_packM (c : Bool) (mj : BitVec 6) (la : La) (d : Reg) (a : Reg) (sz : BitVec 3) (os : BitVec 3) (x : BitVec 1) :
    majorOf (packM c mj la d a sz os x) = mj := by
  have h0 := Bool.toNat_lt c
  have h1 := mj.isLt
  have h2 := la.isLt
  have h3 := d.isLt
  have h4 := a.isLt
  have h5 := sz.isLt
  have h6 := os.isLt
  have h7 := x.isLt
  apply BitVec.eq_of_toNat_eq
  simp only [majorOf, fieldOf, BitVec.toNat_ofNat, packM_toNat]; omega

@[simp] theorem tieBit_packM (c : Bool) (mj : BitVec 6) (la : La) (d : Reg) (a : Reg) (sz : BitVec 3) (os : BitVec 3) (x : BitVec 1) :
    tieBit (packM c mj la d a sz os x) = BitVec.ofBool c := by
  have h0 := Bool.toNat_lt c
  have h1 := mj.isLt
  have h2 := la.isLt
  have h3 := d.isLt
  have h4 := a.isLt
  have h5 := sz.isLt
  have h6 := os.isLt
  have h7 := x.isLt
  apply BitVec.eq_of_toNat_eq
  simp only [tieBit, fieldOf, BitVec.toNat_ofNat, packM_toNat, BitVec.toNat_ofBool]; omega

theorem packB_toNat (c : Bool) (mj : BitVec 6) (neg : BitVec 1) (p : Pred) (off : Off21) :
    (packB c mj neg p off).toNat = c.toNat * 2147483648 + mj.toNat * 33554432 + neg.toNat * 16777216 + p.toNat * 2097152 + off.toNat := by
  have h0 := Bool.toNat_lt c
  have h1 := mj.isLt
  have h2 := neg.isLt
  have h3 := p.isLt
  have h4 := off.isLt
  simp only [packB, BitVec.toNat_ofNat]; omega

@[simp] theorem bNeg_packB (c : Bool) (mj : BitVec 6) (neg : BitVec 1) (p : Pred) (off : Off21) :
    bNeg (packB c mj neg p off) = neg := by
  have h0 := Bool.toNat_lt c
  have h1 := mj.isLt
  have h2 := neg.isLt
  have h3 := p.isLt
  have h4 := off.isLt
  apply BitVec.eq_of_toNat_eq
  simp only [bNeg, fieldOf, BitVec.toNat_ofNat, packB_toNat]; omega

@[simp] theorem bP_packB (c : Bool) (mj : BitVec 6) (neg : BitVec 1) (p : Pred) (off : Off21) :
    bP (packB c mj neg p off) = p := by
  have h0 := Bool.toNat_lt c
  have h1 := mj.isLt
  have h2 := neg.isLt
  have h3 := p.isLt
  have h4 := off.isLt
  apply BitVec.eq_of_toNat_eq
  simp only [bP, fieldOf, BitVec.toNat_ofNat, packB_toNat]; omega

@[simp] theorem bOff_packB (c : Bool) (mj : BitVec 6) (neg : BitVec 1) (p : Pred) (off : Off21) :
    bOff (packB c mj neg p off) = off := by
  have h0 := Bool.toNat_lt c
  have h1 := mj.isLt
  have h2 := neg.isLt
  have h3 := p.isLt
  have h4 := off.isLt
  apply BitVec.eq_of_toNat_eq
  simp only [bOff, fieldOf, BitVec.toNat_ofNat, packB_toNat]; omega

@[simp] theorem majorOf_packB (c : Bool) (mj : BitVec 6) (neg : BitVec 1) (p : Pred) (off : Off21) :
    majorOf (packB c mj neg p off) = mj := by
  have h0 := Bool.toNat_lt c
  have h1 := mj.isLt
  have h2 := neg.isLt
  have h3 := p.isLt
  have h4 := off.isLt
  apply BitVec.eq_of_toNat_eq
  simp only [majorOf, fieldOf, BitVec.toNat_ofNat, packB_toNat]; omega

@[simp] theorem tieBit_packB (c : Bool) (mj : BitVec 6) (neg : BitVec 1) (p : Pred) (off : Off21) :
    tieBit (packB c mj neg p off) = BitVec.ofBool c := by
  have h0 := Bool.toNat_lt c
  have h1 := mj.isLt
  have h2 := neg.isLt
  have h3 := p.isLt
  have h4 := off.isLt
  apply BitVec.eq_of_toNat_eq
  simp only [tieBit, fieldOf, BitVec.toNat_ofNat, packB_toNat, BitVec.toNat_ofBool]; omega

theorem packT_toNat (c : Bool) (mj : BitVec 6) (tid : Tid) (cs : Reg) (off : Reg) :
    (packT c mj tid cs off).toNat = c.toNat * 2147483648 + mj.toNat * 33554432 + tid.toNat * 524288 + cs.toNat * 4096 + off.toNat * 32 := by
  have h0 := Bool.toNat_lt c
  have h1 := mj.isLt
  have h2 := tid.isLt
  have h3 := cs.isLt
  have h4 := off.isLt
  simp only [packT, BitVec.toNat_ofNat]; omega

@[simp] theorem tTid_packT (c : Bool) (mj : BitVec 6) (tid : Tid) (cs : Reg) (off : Reg) :
    tTid (packT c mj tid cs off) = tid := by
  have h0 := Bool.toNat_lt c
  have h1 := mj.isLt
  have h2 := tid.isLt
  have h3 := cs.isLt
  have h4 := off.isLt
  apply BitVec.eq_of_toNat_eq
  simp only [tTid, fieldOf, BitVec.toNat_ofNat, packT_toNat]; omega

@[simp] theorem tCs_packT (c : Bool) (mj : BitVec 6) (tid : Tid) (cs : Reg) (off : Reg) :
    tCs (packT c mj tid cs off) = cs := by
  have h0 := Bool.toNat_lt c
  have h1 := mj.isLt
  have h2 := tid.isLt
  have h3 := cs.isLt
  have h4 := off.isLt
  apply BitVec.eq_of_toNat_eq
  simp only [tCs, fieldOf, BitVec.toNat_ofNat, packT_toNat]; omega

@[simp] theorem tOff_packT (c : Bool) (mj : BitVec 6) (tid : Tid) (cs : Reg) (off : Reg) :
    tOff (packT c mj tid cs off) = off := by
  have h0 := Bool.toNat_lt c
  have h1 := mj.isLt
  have h2 := tid.isLt
  have h3 := cs.isLt
  have h4 := off.isLt
  apply BitVec.eq_of_toNat_eq
  simp only [tOff, fieldOf, BitVec.toNat_ofNat, packT_toNat]; omega

@[simp] theorem tZ_packT (c : Bool) (mj : BitVec 6) (tid : Tid) (cs : Reg) (off : Reg) :
    tZ (packT c mj tid cs off) = 0 := by
  have h0 := Bool.toNat_lt c
  have h1 := mj.isLt
  have h2 := tid.isLt
  have h3 := cs.isLt
  have h4 := off.isLt
  have hz : (0 : BitVec 5).toNat = 0 := rfl
  apply BitVec.eq_of_toNat_eq
  simp only [tZ, fieldOf, BitVec.toNat_ofNat, packT_toNat]; omega

@[simp] theorem majorOf_packT (c : Bool) (mj : BitVec 6) (tid : Tid) (cs : Reg) (off : Reg) :
    majorOf (packT c mj tid cs off) = mj := by
  have h0 := Bool.toNat_lt c
  have h1 := mj.isLt
  have h2 := tid.isLt
  have h3 := cs.isLt
  have h4 := off.isLt
  apply BitVec.eq_of_toNat_eq
  simp only [majorOf, fieldOf, BitVec.toNat_ofNat, packT_toNat]; omega

@[simp] theorem tieBit_packT (c : Bool) (mj : BitVec 6) (tid : Tid) (cs : Reg) (off : Reg) :
    tieBit (packT c mj tid cs off) = BitVec.ofBool c := by
  have h0 := Bool.toNat_lt c
  have h1 := mj.isLt
  have h2 := tid.isLt
  have h3 := cs.isLt
  have h4 := off.isLt
  apply BitVec.eq_of_toNat_eq
  simp only [tieBit, fieldOf, BitVec.toNat_ofNat, packT_toNat, BitVec.toNat_ofBool]; omega

theorem packE_toNat (c : Bool) (mj : BitVec 6) (op : BitVec 3) (tid : Tid) (ar : Reg) (tok : Reg) (low : BitVec 2) :
    (packE c mj op tid ar tok low).toNat = c.toNat * 2147483648 + mj.toNat * 33554432 + op.toNat * 4194304 + tid.toNat * 65536 + ar.toNat * 512 + tok.toNat * 4 + low.toNat := by
  have h0 := Bool.toNat_lt c
  have h1 := mj.isLt
  have h2 := op.isLt
  have h3 := tid.isLt
  have h4 := ar.isLt
  have h5 := tok.isLt
  have h6 := low.isLt
  simp only [packE, BitVec.toNat_ofNat]; omega

@[simp] theorem eOp_packE (c : Bool) (mj : BitVec 6) (op : BitVec 3) (tid : Tid) (ar : Reg) (tok : Reg) (low : BitVec 2) :
    eOp (packE c mj op tid ar tok low) = op := by
  have h0 := Bool.toNat_lt c
  have h1 := mj.isLt
  have h2 := op.isLt
  have h3 := tid.isLt
  have h4 := ar.isLt
  have h5 := tok.isLt
  have h6 := low.isLt
  apply BitVec.eq_of_toNat_eq
  simp only [eOp, fieldOf, BitVec.toNat_ofNat, packE_toNat]; omega

@[simp] theorem eTid_packE (c : Bool) (mj : BitVec 6) (op : BitVec 3) (tid : Tid) (ar : Reg) (tok : Reg) (low : BitVec 2) :
    eTid (packE c mj op tid ar tok low) = tid := by
  have h0 := Bool.toNat_lt c
  have h1 := mj.isLt
  have h2 := op.isLt
  have h3 := tid.isLt
  have h4 := ar.isLt
  have h5 := tok.isLt
  have h6 := low.isLt
  apply BitVec.eq_of_toNat_eq
  simp only [eTid, fieldOf, BitVec.toNat_ofNat, packE_toNat]; omega

@[simp] theorem eArg_packE (c : Bool) (mj : BitVec 6) (op : BitVec 3) (tid : Tid) (ar : Reg) (tok : Reg) (low : BitVec 2) :
    eArg (packE c mj op tid ar tok low) = ar := by
  have h0 := Bool.toNat_lt c
  have h1 := mj.isLt
  have h2 := op.isLt
  have h3 := tid.isLt
  have h4 := ar.isLt
  have h5 := tok.isLt
  have h6 := low.isLt
  apply BitVec.eq_of_toNat_eq
  simp only [eArg, fieldOf, BitVec.toNat_ofNat, packE_toNat]; omega

@[simp] theorem eTok_packE (c : Bool) (mj : BitVec 6) (op : BitVec 3) (tid : Tid) (ar : Reg) (tok : Reg) (low : BitVec 2) :
    eTok (packE c mj op tid ar tok low) = tok := by
  have h0 := Bool.toNat_lt c
  have h1 := mj.isLt
  have h2 := op.isLt
  have h3 := tid.isLt
  have h4 := ar.isLt
  have h5 := tok.isLt
  have h6 := low.isLt
  apply BitVec.eq_of_toNat_eq
  simp only [eTok, fieldOf, BitVec.toNat_ofNat, packE_toNat]; omega

@[simp] theorem eLow_packE (c : Bool) (mj : BitVec 6) (op : BitVec 3) (tid : Tid) (ar : Reg) (tok : Reg) (low : BitVec 2) :
    eLow (packE c mj op tid ar tok low) = low := by
  have h0 := Bool.toNat_lt c
  have h1 := mj.isLt
  have h2 := op.isLt
  have h3 := tid.isLt
  have h4 := ar.isLt
  have h5 := tok.isLt
  have h6 := low.isLt
  apply BitVec.eq_of_toNat_eq
  simp only [eLow, fieldOf, BitVec.toNat_ofNat, packE_toNat]; omega

@[simp] theorem majorOf_packE (c : Bool) (mj : BitVec 6) (op : BitVec 3) (tid : Tid) (ar : Reg) (tok : Reg) (low : BitVec 2) :
    majorOf (packE c mj op tid ar tok low) = mj := by
  have h0 := Bool.toNat_lt c
  have h1 := mj.isLt
  have h2 := op.isLt
  have h3 := tid.isLt
  have h4 := ar.isLt
  have h5 := tok.isLt
  have h6 := low.isLt
  apply BitVec.eq_of_toNat_eq
  simp only [majorOf, fieldOf, BitVec.toNat_ofNat, packE_toNat]; omega

@[simp] theorem tieBit_packE (c : Bool) (mj : BitVec 6) (op : BitVec 3) (tid : Tid) (ar : Reg) (tok : Reg) (low : BitVec 2) :
    tieBit (packE c mj op tid ar tok low) = BitVec.ofBool c := by
  have h0 := Bool.toNat_lt c
  have h1 := mj.isLt
  have h2 := op.isLt
  have h3 := tid.isLt
  have h4 := ar.isLt
  have h5 := tok.isLt
  have h6 := low.isLt
  apply BitVec.eq_of_toNat_eq
  simp only [tieBit, fieldOf, BitVec.toNat_ofNat, packE_toNat, BitVec.toNat_ofBool]; omega

theorem packV_toNat (c : Bool) (mj : BitVec 6) (fn : BitVec 2) (tid : Tid) (a : Reg) :
    (packV c mj fn tid a).toNat = c.toNat * 2147483648 + mj.toNat * 33554432 + fn.toNat * 8388608 + tid.toNat * 131072 + a.toNat * 1024 := by
  have h0 := Bool.toNat_lt c
  have h1 := mj.isLt
  have h2 := fn.isLt
  have h3 := tid.isLt
  have h4 := a.isLt
  simp only [packV, BitVec.toNat_ofNat]; omega

@[simp] theorem vFn_packV (c : Bool) (mj : BitVec 6) (fn : BitVec 2) (tid : Tid) (a : Reg) :
    vFn (packV c mj fn tid a) = fn := by
  have h0 := Bool.toNat_lt c
  have h1 := mj.isLt
  have h2 := fn.isLt
  have h3 := tid.isLt
  have h4 := a.isLt
  apply BitVec.eq_of_toNat_eq
  simp only [vFn, fieldOf, BitVec.toNat_ofNat, packV_toNat]; omega

@[simp] theorem vTid_packV (c : Bool) (mj : BitVec 6) (fn : BitVec 2) (tid : Tid) (a : Reg) :
    vTid (packV c mj fn tid a) = tid := by
  have h0 := Bool.toNat_lt c
  have h1 := mj.isLt
  have h2 := fn.isLt
  have h3 := tid.isLt
  have h4 := a.isLt
  apply BitVec.eq_of_toNat_eq
  simp only [vTid, fieldOf, BitVec.toNat_ofNat, packV_toNat]; omega

@[simp] theorem vA_packV (c : Bool) (mj : BitVec 6) (fn : BitVec 2) (tid : Tid) (a : Reg) :
    vA (packV c mj fn tid a) = a := by
  have h0 := Bool.toNat_lt c
  have h1 := mj.isLt
  have h2 := fn.isLt
  have h3 := tid.isLt
  have h4 := a.isLt
  apply BitVec.eq_of_toNat_eq
  simp only [vA, fieldOf, BitVec.toNat_ofNat, packV_toNat]; omega

@[simp] theorem vZ_packV (c : Bool) (mj : BitVec 6) (fn : BitVec 2) (tid : Tid) (a : Reg) :
    vZ (packV c mj fn tid a) = 0 := by
  have h0 := Bool.toNat_lt c
  have h1 := mj.isLt
  have h2 := fn.isLt
  have h3 := tid.isLt
  have h4 := a.isLt
  have hz : (0 : BitVec 10).toNat = 0 := rfl
  apply BitVec.eq_of_toNat_eq
  simp only [vZ, fieldOf, BitVec.toNat_ofNat, packV_toNat]; omega

@[simp] theorem majorOf_packV (c : Bool) (mj : BitVec 6) (fn : BitVec 2) (tid : Tid) (a : Reg) :
    majorOf (packV c mj fn tid a) = mj := by
  have h0 := Bool.toNat_lt c
  have h1 := mj.isLt
  have h2 := fn.isLt
  have h3 := tid.isLt
  have h4 := a.isLt
  apply BitVec.eq_of_toNat_eq
  simp only [majorOf, fieldOf, BitVec.toNat_ofNat, packV_toNat]; omega

@[simp] theorem tieBit_packV (c : Bool) (mj : BitVec 6) (fn : BitVec 2) (tid : Tid) (a : Reg) :
    tieBit (packV c mj fn tid a) = BitVec.ofBool c := by
  have h0 := Bool.toNat_lt c
  have h1 := mj.isLt
  have h2 := fn.isLt
  have h3 := tid.isLt
  have h4 := a.isLt
  apply BitVec.eq_of_toNat_eq
  simp only [tieBit, fieldOf, BitVec.toNat_ofNat, packV_toNat, BitVec.toNat_ofBool]; omega

theorem packS_toNat (c : Bool) (mj : BitVec 6) (la : La) (d : Reg) (a : Reg) (tid : Tid) :
    (packS c mj la d a tid).toNat = c.toNat * 2147483648 + mj.toNat * 33554432 + la.toNat * 2097152 + d.toNat * 16384 + a.toNat * 128 + tid.toNat * 2 := by
  have h0 := Bool.toNat_lt c
  have h1 := mj.isLt
  have h2 := la.isLt
  have h3 := d.isLt
  have h4 := a.isLt
  have h5 := tid.isLt
  simp only [packS, BitVec.toNat_ofNat]; omega

@[simp] theorem sLa_packS (c : Bool) (mj : BitVec 6) (la : La) (d : Reg) (a : Reg) (tid : Tid) :
    sLa (packS c mj la d a tid) = la := by
  have h0 := Bool.toNat_lt c
  have h1 := mj.isLt
  have h2 := la.isLt
  have h3 := d.isLt
  have h4 := a.isLt
  have h5 := tid.isLt
  apply BitVec.eq_of_toNat_eq
  simp only [sLa, fieldOf, BitVec.toNat_ofNat, packS_toNat]; omega

@[simp] theorem sD_packS (c : Bool) (mj : BitVec 6) (la : La) (d : Reg) (a : Reg) (tid : Tid) :
    sD (packS c mj la d a tid) = d := by
  have h0 := Bool.toNat_lt c
  have h1 := mj.isLt
  have h2 := la.isLt
  have h3 := d.isLt
  have h4 := a.isLt
  have h5 := tid.isLt
  apply BitVec.eq_of_toNat_eq
  simp only [sD, fieldOf, BitVec.toNat_ofNat, packS_toNat]; omega

@[simp] theorem sA_packS (c : Bool) (mj : BitVec 6) (la : La) (d : Reg) (a : Reg) (tid : Tid) :
    sA (packS c mj la d a tid) = a := by
  have h0 := Bool.toNat_lt c
  have h1 := mj.isLt
  have h2 := la.isLt
  have h3 := d.isLt
  have h4 := a.isLt
  have h5 := tid.isLt
  apply BitVec.eq_of_toNat_eq
  simp only [sA, fieldOf, BitVec.toNat_ofNat, packS_toNat]; omega

@[simp] theorem sTid_packS (c : Bool) (mj : BitVec 6) (la : La) (d : Reg) (a : Reg) (tid : Tid) :
    sTid (packS c mj la d a tid) = tid := by
  have h0 := Bool.toNat_lt c
  have h1 := mj.isLt
  have h2 := la.isLt
  have h3 := d.isLt
  have h4 := a.isLt
  have h5 := tid.isLt
  apply BitVec.eq_of_toNat_eq
  simp only [sTid, fieldOf, BitVec.toNat_ofNat, packS_toNat]; omega

@[simp] theorem sZ_packS (c : Bool) (mj : BitVec 6) (la : La) (d : Reg) (a : Reg) (tid : Tid) :
    sZ (packS c mj la d a tid) = 0 := by
  have h0 := Bool.toNat_lt c
  have h1 := mj.isLt
  have h2 := la.isLt
  have h3 := d.isLt
  have h4 := a.isLt
  have h5 := tid.isLt
  have hz : (0 : BitVec 1).toNat = 0 := rfl
  apply BitVec.eq_of_toNat_eq
  simp only [sZ, fieldOf, BitVec.toNat_ofNat, packS_toNat]; omega

@[simp] theorem majorOf_packS (c : Bool) (mj : BitVec 6) (la : La) (d : Reg) (a : Reg) (tid : Tid) :
    majorOf (packS c mj la d a tid) = mj := by
  have h0 := Bool.toNat_lt c
  have h1 := mj.isLt
  have h2 := la.isLt
  have h3 := d.isLt
  have h4 := a.isLt
  have h5 := tid.isLt
  apply BitVec.eq_of_toNat_eq
  simp only [majorOf, fieldOf, BitVec.toNat_ofNat, packS_toNat]; omega

@[simp] theorem tieBit_packS (c : Bool) (mj : BitVec 6) (la : La) (d : Reg) (a : Reg) (tid : Tid) :
    tieBit (packS c mj la d a tid) = BitVec.ofBool c := by
  have h0 := Bool.toNat_lt c
  have h1 := mj.isLt
  have h2 := la.isLt
  have h3 := d.isLt
  have h4 := a.isLt
  have h5 := tid.isLt
  apply BitVec.eq_of_toNat_eq
  simp only [tieBit, fieldOf, BitVec.toNat_ofNat, packS_toNat, BitVec.toNat_ofBool]; omega

theorem packL2_toNat (c : Bool) (v : Word) :
    (packL2 c v).toNat = c.toNat * 2147483648 + v.toNat % 2147483648 := by
  have h0 := Bool.toNat_lt c
  have h1 := v.isLt
  simp only [packL2, BitVec.toNat_ofNat]; omega

@[simp] theorem tieBit_packL2 (c : Bool) (v : Word) :
    tieBit (packL2 c v) = BitVec.ofBool c := by
  have h0 := Bool.toNat_lt c
  have h1 := v.isLt
  apply BitVec.eq_of_toNat_eq
  simp only [tieBit, fieldOf, BitVec.toNat_ofNat, packL2_toNat, BitVec.toNat_ofBool]; omega

theorem packQ2_toNat (c : Bool) (fn : BitVec 4) (rnd : BitVec 3) (sat : BitVec 1) (fmt : BitVec 4) (pos : BitVec 2) (s : Reg) :
    (packQ2 c fn rnd sat fmt pos s).toNat = c.toNat * 2147483648 + fn.toNat * 134217728 + rnd.toNat * 16777216 + sat.toNat * 8388608 + fmt.toNat * 524288 + pos.toNat * 131072 + s.toNat * 1024 := by
  have h0 := Bool.toNat_lt c
  have h1 := fn.isLt
  have h2 := rnd.isLt
  have h3 := sat.isLt
  have h4 := fmt.isLt
  have h5 := pos.isLt
  have h6 := s.isLt
  simp only [packQ2, BitVec.toNat_ofNat]; omega

@[simp] theorem q2Fn_packQ2 (c : Bool) (fn : BitVec 4) (rnd : BitVec 3) (sat : BitVec 1) (fmt : BitVec 4) (pos : BitVec 2) (s : Reg) :
    q2Fn (packQ2 c fn rnd sat fmt pos s) = fn := by
  have h0 := Bool.toNat_lt c
  have h1 := fn.isLt
  have h2 := rnd.isLt
  have h3 := sat.isLt
  have h4 := fmt.isLt
  have h5 := pos.isLt
  have h6 := s.isLt
  apply BitVec.eq_of_toNat_eq
  simp only [q2Fn, fieldOf, BitVec.toNat_ofNat, packQ2_toNat]; omega

@[simp] theorem q2Rnd_packQ2 (c : Bool) (fn : BitVec 4) (rnd : BitVec 3) (sat : BitVec 1) (fmt : BitVec 4) (pos : BitVec 2) (s : Reg) :
    q2Rnd (packQ2 c fn rnd sat fmt pos s) = rnd := by
  have h0 := Bool.toNat_lt c
  have h1 := fn.isLt
  have h2 := rnd.isLt
  have h3 := sat.isLt
  have h4 := fmt.isLt
  have h5 := pos.isLt
  have h6 := s.isLt
  apply BitVec.eq_of_toNat_eq
  simp only [q2Rnd, fieldOf, BitVec.toNat_ofNat, packQ2_toNat]; omega

@[simp] theorem q2Sat_packQ2 (c : Bool) (fn : BitVec 4) (rnd : BitVec 3) (sat : BitVec 1) (fmt : BitVec 4) (pos : BitVec 2) (s : Reg) :
    q2Sat (packQ2 c fn rnd sat fmt pos s) = sat := by
  have h0 := Bool.toNat_lt c
  have h1 := fn.isLt
  have h2 := rnd.isLt
  have h3 := sat.isLt
  have h4 := fmt.isLt
  have h5 := pos.isLt
  have h6 := s.isLt
  apply BitVec.eq_of_toNat_eq
  simp only [q2Sat, fieldOf, BitVec.toNat_ofNat, packQ2_toNat]; omega

@[simp] theorem q2Fmt_packQ2 (c : Bool) (fn : BitVec 4) (rnd : BitVec 3) (sat : BitVec 1) (fmt : BitVec 4) (pos : BitVec 2) (s : Reg) :
    q2Fmt (packQ2 c fn rnd sat fmt pos s) = fmt := by
  have h0 := Bool.toNat_lt c
  have h1 := fn.isLt
  have h2 := rnd.isLt
  have h3 := sat.isLt
  have h4 := fmt.isLt
  have h5 := pos.isLt
  have h6 := s.isLt
  apply BitVec.eq_of_toNat_eq
  simp only [q2Fmt, fieldOf, BitVec.toNat_ofNat, packQ2_toNat]; omega

@[simp] theorem q2Pos_packQ2 (c : Bool) (fn : BitVec 4) (rnd : BitVec 3) (sat : BitVec 1) (fmt : BitVec 4) (pos : BitVec 2) (s : Reg) :
    q2Pos (packQ2 c fn rnd sat fmt pos s) = pos := by
  have h0 := Bool.toNat_lt c
  have h1 := fn.isLt
  have h2 := rnd.isLt
  have h3 := sat.isLt
  have h4 := fmt.isLt
  have h5 := pos.isLt
  have h6 := s.isLt
  apply BitVec.eq_of_toNat_eq
  simp only [q2Pos, fieldOf, BitVec.toNat_ofNat, packQ2_toNat]; omega

@[simp] theorem q2S_packQ2 (c : Bool) (fn : BitVec 4) (rnd : BitVec 3) (sat : BitVec 1) (fmt : BitVec 4) (pos : BitVec 2) (s : Reg) :
    q2S (packQ2 c fn rnd sat fmt pos s) = s := by
  have h0 := Bool.toNat_lt c
  have h1 := fn.isLt
  have h2 := rnd.isLt
  have h3 := sat.isLt
  have h4 := fmt.isLt
  have h5 := pos.isLt
  have h6 := s.isLt
  apply BitVec.eq_of_toNat_eq
  simp only [q2S, fieldOf, BitVec.toNat_ofNat, packQ2_toNat]; omega

@[simp] theorem q2Z_packQ2 (c : Bool) (fn : BitVec 4) (rnd : BitVec 3) (sat : BitVec 1) (fmt : BitVec 4) (pos : BitVec 2) (s : Reg) :
    q2Z (packQ2 c fn rnd sat fmt pos s) = 0 := by
  have h0 := Bool.toNat_lt c
  have h1 := fn.isLt
  have h2 := rnd.isLt
  have h3 := sat.isLt
  have h4 := fmt.isLt
  have h5 := pos.isLt
  have h6 := s.isLt
  have hz : (0 : BitVec 10).toNat = 0 := rfl
  apply BitVec.eq_of_toNat_eq
  simp only [q2Z, fieldOf, BitVec.toNat_ofNat, packQ2_toNat]; omega

@[simp] theorem tieBit_packQ2 (c : Bool) (fn : BitVec 4) (rnd : BitVec 3) (sat : BitVec 1) (fmt : BitVec 4) (pos : BitVec 2) (s : Reg) :
    tieBit (packQ2 c fn rnd sat fmt pos s) = BitVec.ofBool c := by
  have h0 := Bool.toNat_lt c
  have h1 := fn.isLt
  have h2 := rnd.isLt
  have h3 := sat.isLt
  have h4 := fmt.isLt
  have h5 := pos.isLt
  have h6 := s.isLt
  apply BitVec.eq_of_toNat_eq
  simp only [tieBit, fieldOf, BitVec.toNat_ofNat, packQ2_toNat, BitVec.toNat_ofBool]; omega

theorem packA2_toNat (c : Bool) (op : BitVec 4) (oss : BitVec 3) (osf : BitVec 3) (size : BitVec 2) (t : BitVec 1) (cmp : Reg) :
    (packA2 c op oss osf size t cmp).toNat = c.toNat * 2147483648 + op.toNat * 134217728 + oss.toNat * 16777216 + osf.toNat * 2097152 + size.toNat * 524288 + t.toNat * 262144 + cmp.toNat * 2048 := by
  have h0 := Bool.toNat_lt c
  have h1 := op.isLt
  have h2 := oss.isLt
  have h3 := osf.isLt
  have h4 := size.isLt
  have h5 := t.isLt
  have h6 := cmp.isLt
  simp only [packA2, BitVec.toNat_ofNat]; omega

@[simp] theorem a2Op_packA2 (c : Bool) (op : BitVec 4) (oss : BitVec 3) (osf : BitVec 3) (size : BitVec 2) (t : BitVec 1) (cmp : Reg) :
    a2Op (packA2 c op oss osf size t cmp) = op := by
  have h0 := Bool.toNat_lt c
  have h1 := op.isLt
  have h2 := oss.isLt
  have h3 := osf.isLt
  have h4 := size.isLt
  have h5 := t.isLt
  have h6 := cmp.isLt
  apply BitVec.eq_of_toNat_eq
  simp only [a2Op, fieldOf, BitVec.toNat_ofNat, packA2_toNat]; omega

@[simp] theorem a2Oss_packA2 (c : Bool) (op : BitVec 4) (oss : BitVec 3) (osf : BitVec 3) (size : BitVec 2) (t : BitVec 1) (cmp : Reg) :
    a2Oss (packA2 c op oss osf size t cmp) = oss := by
  have h0 := Bool.toNat_lt c
  have h1 := op.isLt
  have h2 := oss.isLt
  have h3 := osf.isLt
  have h4 := size.isLt
  have h5 := t.isLt
  have h6 := cmp.isLt
  apply BitVec.eq_of_toNat_eq
  simp only [a2Oss, fieldOf, BitVec.toNat_ofNat, packA2_toNat]; omega

@[simp] theorem a2Osf_packA2 (c : Bool) (op : BitVec 4) (oss : BitVec 3) (osf : BitVec 3) (size : BitVec 2) (t : BitVec 1) (cmp : Reg) :
    a2Osf (packA2 c op oss osf size t cmp) = osf := by
  have h0 := Bool.toNat_lt c
  have h1 := op.isLt
  have h2 := oss.isLt
  have h3 := osf.isLt
  have h4 := size.isLt
  have h5 := t.isLt
  have h6 := cmp.isLt
  apply BitVec.eq_of_toNat_eq
  simp only [a2Osf, fieldOf, BitVec.toNat_ofNat, packA2_toNat]; omega

@[simp] theorem a2Size_packA2 (c : Bool) (op : BitVec 4) (oss : BitVec 3) (osf : BitVec 3) (size : BitVec 2) (t : BitVec 1) (cmp : Reg) :
    a2Size (packA2 c op oss osf size t cmp) = size := by
  have h0 := Bool.toNat_lt c
  have h1 := op.isLt
  have h2 := oss.isLt
  have h3 := osf.isLt
  have h4 := size.isLt
  have h5 := t.isLt
  have h6 := cmp.isLt
  apply BitVec.eq_of_toNat_eq
  simp only [a2Size, fieldOf, BitVec.toNat_ofNat, packA2_toNat]; omega

@[simp] theorem a2T_packA2 (c : Bool) (op : BitVec 4) (oss : BitVec 3) (osf : BitVec 3) (size : BitVec 2) (t : BitVec 1) (cmp : Reg) :
    a2T (packA2 c op oss osf size t cmp) = t := by
  have h0 := Bool.toNat_lt c
  have h1 := op.isLt
  have h2 := oss.isLt
  have h3 := osf.isLt
  have h4 := size.isLt
  have h5 := t.isLt
  have h6 := cmp.isLt
  apply BitVec.eq_of_toNat_eq
  simp only [a2T, fieldOf, BitVec.toNat_ofNat, packA2_toNat]; omega

@[simp] theorem a2Cmp_packA2 (c : Bool) (op : BitVec 4) (oss : BitVec 3) (osf : BitVec 3) (size : BitVec 2) (t : BitVec 1) (cmp : Reg) :
    a2Cmp (packA2 c op oss osf size t cmp) = cmp := by
  have h0 := Bool.toNat_lt c
  have h1 := op.isLt
  have h2 := oss.isLt
  have h3 := osf.isLt
  have h4 := size.isLt
  have h5 := t.isLt
  have h6 := cmp.isLt
  apply BitVec.eq_of_toNat_eq
  simp only [a2Cmp, fieldOf, BitVec.toNat_ofNat, packA2_toNat]; omega

@[simp] theorem a2Z_packA2 (c : Bool) (op : BitVec 4) (oss : BitVec 3) (osf : BitVec 3) (size : BitVec 2) (t : BitVec 1) (cmp : Reg) :
    a2Z (packA2 c op oss osf size t cmp) = 0 := by
  have h0 := Bool.toNat_lt c
  have h1 := op.isLt
  have h2 := oss.isLt
  have h3 := osf.isLt
  have h4 := size.isLt
  have h5 := t.isLt
  have h6 := cmp.isLt
  have hz : (0 : BitVec 11).toNat = 0 := rfl
  apply BitVec.eq_of_toNat_eq
  simp only [a2Z, fieldOf, BitVec.toNat_ofNat, packA2_toNat]; omega

@[simp] theorem tieBit_packA2 (c : Bool) (op : BitVec 4) (oss : BitVec 3) (osf : BitVec 3) (size : BitVec 2) (t : BitVec 1) (cmp : Reg) :
    tieBit (packA2 c op oss osf size t cmp) = BitVec.ofBool c := by
  have h0 := Bool.toNat_lt c
  have h1 := op.isLt
  have h2 := oss.isLt
  have h3 := osf.isLt
  have h4 := size.isLt
  have h5 := t.isLt
  have h6 := cmp.isLt
  apply BitVec.eq_of_toNat_eq
  simp only [tieBit, fieldOf, BitVec.toNat_ofNat, packA2_toNat, BitVec.toNat_ofBool]; omega

theorem packT2_toNat (c : Bool) (mode : BitVec 3) (xp : BitVec 2) (e : BitVec 1) (tok : Reg) (gtid : Tid) :
    (packT2 c mode xp e tok gtid).toNat = c.toNat * 2147483648 + mode.toNat * 268435456 + xp.toNat * 67108864 + e.toNat * 33554432 + tok.toNat * 262144 + gtid.toNat * 4096 := by
  have h0 := Bool.toNat_lt c
  have h1 := mode.isLt
  have h2 := xp.isLt
  have h3 := e.isLt
  have h4 := tok.isLt
  have h5 := gtid.isLt
  simp only [packT2, BitVec.toNat_ofNat]; omega

@[simp] theorem t2Mode_packT2 (c : Bool) (mode : BitVec 3) (xp : BitVec 2) (e : BitVec 1) (tok : Reg) (gtid : Tid) :
    t2Mode (packT2 c mode xp e tok gtid) = mode := by
  have h0 := Bool.toNat_lt c
  have h1 := mode.isLt
  have h2 := xp.isLt
  have h3 := e.isLt
  have h4 := tok.isLt
  have h5 := gtid.isLt
  apply BitVec.eq_of_toNat_eq
  simp only [t2Mode, fieldOf, BitVec.toNat_ofNat, packT2_toNat]; omega

@[simp] theorem t2Xp_packT2 (c : Bool) (mode : BitVec 3) (xp : BitVec 2) (e : BitVec 1) (tok : Reg) (gtid : Tid) :
    t2Xp (packT2 c mode xp e tok gtid) = xp := by
  have h0 := Bool.toNat_lt c
  have h1 := mode.isLt
  have h2 := xp.isLt
  have h3 := e.isLt
  have h4 := tok.isLt
  have h5 := gtid.isLt
  apply BitVec.eq_of_toNat_eq
  simp only [t2Xp, fieldOf, BitVec.toNat_ofNat, packT2_toNat]; omega

@[simp] theorem t2Exp_packT2 (c : Bool) (mode : BitVec 3) (xp : BitVec 2) (e : BitVec 1) (tok : Reg) (gtid : Tid) :
    t2Exp (packT2 c mode xp e tok gtid) = e := by
  have h0 := Bool.toNat_lt c
  have h1 := mode.isLt
  have h2 := xp.isLt
  have h3 := e.isLt
  have h4 := tok.isLt
  have h5 := gtid.isLt
  apply BitVec.eq_of_toNat_eq
  simp only [t2Exp, fieldOf, BitVec.toNat_ofNat, packT2_toNat]; omega

@[simp] theorem t2Tok_packT2 (c : Bool) (mode : BitVec 3) (xp : BitVec 2) (e : BitVec 1) (tok : Reg) (gtid : Tid) :
    t2Tok (packT2 c mode xp e tok gtid) = tok := by
  have h0 := Bool.toNat_lt c
  have h1 := mode.isLt
  have h2 := xp.isLt
  have h3 := e.isLt
  have h4 := tok.isLt
  have h5 := gtid.isLt
  apply BitVec.eq_of_toNat_eq
  simp only [t2Tok, fieldOf, BitVec.toNat_ofNat, packT2_toNat]; omega

@[simp] theorem t2Gtid_packT2 (c : Bool) (mode : BitVec 3) (xp : BitVec 2) (e : BitVec 1) (tok : Reg) (gtid : Tid) :
    t2Gtid (packT2 c mode xp e tok gtid) = gtid := by
  have h0 := Bool.toNat_lt c
  have h1 := mode.isLt
  have h2 := xp.isLt
  have h3 := e.isLt
  have h4 := tok.isLt
  have h5 := gtid.isLt
  apply BitVec.eq_of_toNat_eq
  simp only [t2Gtid, fieldOf, BitVec.toNat_ofNat, packT2_toNat]; omega

@[simp] theorem t2Z_packT2 (c : Bool) (mode : BitVec 3) (xp : BitVec 2) (e : BitVec 1) (tok : Reg) (gtid : Tid) :
    t2Z (packT2 c mode xp e tok gtid) = 0 := by
  have h0 := Bool.toNat_lt c
  have h1 := mode.isLt
  have h2 := xp.isLt
  have h3 := e.isLt
  have h4 := tok.isLt
  have h5 := gtid.isLt
  have hz : (0 : BitVec 12).toNat = 0 := rfl
  apply BitVec.eq_of_toNat_eq
  simp only [t2Z, fieldOf, BitVec.toNat_ofNat, packT2_toNat]; omega

@[simp] theorem tieBit_packT2 (c : Bool) (mode : BitVec 3) (xp : BitVec 2) (e : BitVec 1) (tok : Reg) (gtid : Tid) :
    tieBit (packT2 c mode xp e tok gtid) = BitVec.ofBool c := by
  have h0 := Bool.toNat_lt c
  have h1 := mode.isLt
  have h2 := xp.isLt
  have h3 := e.isLt
  have h4 := tok.isLt
  have h5 := gtid.isLt
  apply BitVec.eq_of_toNat_eq
  simp only [tieBit, fieldOf, BitVec.toNat_ofNat, packT2_toNat, BitVec.toNat_ofBool]; omega

theorem packU2_toNat (c : Bool) (m : BitVec 8) (row : BitVec 7) (t5 : BitVec 1) (acc : BitVec 1) (tid2 : Tid) (tid3 : Tid) :
    (packU2 c m row t5 acc tid2 tid3).toNat = c.toNat * 2147483648 + m.toNat * 8388608 + row.toNat * 65536 + t5.toNat * 32768 + acc.toNat * 16384 + tid2.toNat * 256 + tid3.toNat * 4 := by
  have h0 := Bool.toNat_lt c
  have h1 := m.isLt
  have h2 := row.isLt
  have h3 := t5.isLt
  have h4 := acc.isLt
  have h5 := tid2.isLt
  have h6 := tid3.isLt
  simp only [packU2, BitVec.toNat_ofNat]; omega

@[simp] theorem u2M_packU2 (c : Bool) (m : BitVec 8) (row : BitVec 7) (t5 : BitVec 1) (acc : BitVec 1) (tid2 : Tid) (tid3 : Tid) :
    u2M (packU2 c m row t5 acc tid2 tid3) = m := by
  have h0 := Bool.toNat_lt c
  have h1 := m.isLt
  have h2 := row.isLt
  have h3 := t5.isLt
  have h4 := acc.isLt
  have h5 := tid2.isLt
  have h6 := tid3.isLt
  apply BitVec.eq_of_toNat_eq
  simp only [u2M, fieldOf, BitVec.toNat_ofNat, packU2_toNat]; omega

@[simp] theorem u2Row_packU2 (c : Bool) (m : BitVec 8) (row : BitVec 7) (t5 : BitVec 1) (acc : BitVec 1) (tid2 : Tid) (tid3 : Tid) :
    u2Row (packU2 c m row t5 acc tid2 tid3) = row := by
  have h0 := Bool.toNat_lt c
  have h1 := m.isLt
  have h2 := row.isLt
  have h3 := t5.isLt
  have h4 := acc.isLt
  have h5 := tid2.isLt
  have h6 := tid3.isLt
  apply BitVec.eq_of_toNat_eq
  simp only [u2Row, fieldOf, BitVec.toNat_ofNat, packU2_toNat]; omega

@[simp] theorem u2T5_packU2 (c : Bool) (m : BitVec 8) (row : BitVec 7) (t5 : BitVec 1) (acc : BitVec 1) (tid2 : Tid) (tid3 : Tid) :
    u2T5 (packU2 c m row t5 acc tid2 tid3) = t5 := by
  have h0 := Bool.toNat_lt c
  have h1 := m.isLt
  have h2 := row.isLt
  have h3 := t5.isLt
  have h4 := acc.isLt
  have h5 := tid2.isLt
  have h6 := tid3.isLt
  apply BitVec.eq_of_toNat_eq
  simp only [u2T5, fieldOf, BitVec.toNat_ofNat, packU2_toNat]; omega

@[simp] theorem u2Acc_packU2 (c : Bool) (m : BitVec 8) (row : BitVec 7) (t5 : BitVec 1) (acc : BitVec 1) (tid2 : Tid) (tid3 : Tid) :
    u2Acc (packU2 c m row t5 acc tid2 tid3) = acc := by
  have h0 := Bool.toNat_lt c
  have h1 := m.isLt
  have h2 := row.isLt
  have h3 := t5.isLt
  have h4 := acc.isLt
  have h5 := tid2.isLt
  have h6 := tid3.isLt
  apply BitVec.eq_of_toNat_eq
  simp only [u2Acc, fieldOf, BitVec.toNat_ofNat, packU2_toNat]; omega

@[simp] theorem u2Tid2_packU2 (c : Bool) (m : BitVec 8) (row : BitVec 7) (t5 : BitVec 1) (acc : BitVec 1) (tid2 : Tid) (tid3 : Tid) :
    u2Tid2 (packU2 c m row t5 acc tid2 tid3) = tid2 := by
  have h0 := Bool.toNat_lt c
  have h1 := m.isLt
  have h2 := row.isLt
  have h3 := t5.isLt
  have h4 := acc.isLt
  have h5 := tid2.isLt
  have h6 := tid3.isLt
  apply BitVec.eq_of_toNat_eq
  simp only [u2Tid2, fieldOf, BitVec.toNat_ofNat, packU2_toNat]; omega

@[simp] theorem u2Tid3_packU2 (c : Bool) (m : BitVec 8) (row : BitVec 7) (t5 : BitVec 1) (acc : BitVec 1) (tid2 : Tid) (tid3 : Tid) :
    u2Tid3 (packU2 c m row t5 acc tid2 tid3) = tid3 := by
  have h0 := Bool.toNat_lt c
  have h1 := m.isLt
  have h2 := row.isLt
  have h3 := t5.isLt
  have h4 := acc.isLt
  have h5 := tid2.isLt
  have h6 := tid3.isLt
  apply BitVec.eq_of_toNat_eq
  simp only [u2Tid3, fieldOf, BitVec.toNat_ofNat, packU2_toNat]; omega

@[simp] theorem u2Z_packU2 (c : Bool) (m : BitVec 8) (row : BitVec 7) (t5 : BitVec 1) (acc : BitVec 1) (tid2 : Tid) (tid3 : Tid) :
    u2Z (packU2 c m row t5 acc tid2 tid3) = 0 := by
  have h0 := Bool.toNat_lt c
  have h1 := m.isLt
  have h2 := row.isLt
  have h3 := t5.isLt
  have h4 := acc.isLt
  have h5 := tid2.isLt
  have h6 := tid3.isLt
  have hz : (0 : BitVec 2).toNat = 0 := rfl
  apply BitVec.eq_of_toNat_eq
  simp only [u2Z, fieldOf, BitVec.toNat_ofNat, packU2_toNat]; omega

@[simp] theorem tieBit_packU2 (c : Bool) (m : BitVec 8) (row : BitVec 7) (t5 : BitVec 1) (acc : BitVec 1) (tid2 : Tid) (tid3 : Tid) :
    tieBit (packU2 c m row t5 acc tid2 tid3) = BitVec.ofBool c := by
  have h0 := Bool.toNat_lt c
  have h1 := m.isLt
  have h2 := row.isLt
  have h3 := t5.isLt
  have h4 := acc.isLt
  have h5 := tid2.isLt
  have h6 := tid3.isLt
  apply BitVec.eq_of_toNat_eq
  simp only [tieBit, fieldOf, BitVec.toNat_ofNat, packU2_toNat, BitVec.toNat_ofBool]; omega

theorem packV2_toNat (c : Bool) (mask : BitVec 8) (fl : BitVec 4) (tag : BitVec 8) :
    (packV2 c mask fl tag).toNat = c.toNat * 2147483648 + mask.toNat * 8388608 + fl.toNat * 524288 + tag.toNat * 2048 := by
  have h0 := Bool.toNat_lt c
  have h1 := mask.isLt
  have h2 := fl.isLt
  have h3 := tag.isLt
  simp only [packV2, BitVec.toNat_ofNat]; omega

@[simp] theorem v2Mask_packV2 (c : Bool) (mask : BitVec 8) (fl : BitVec 4) (tag : BitVec 8) :
    v2Mask (packV2 c mask fl tag) = mask := by
  have h0 := Bool.toNat_lt c
  have h1 := mask.isLt
  have h2 := fl.isLt
  have h3 := tag.isLt
  apply BitVec.eq_of_toNat_eq
  simp only [v2Mask, fieldOf, BitVec.toNat_ofNat, packV2_toNat]; omega

@[simp] theorem v2Rfl_packV2 (c : Bool) (mask : BitVec 8) (fl : BitVec 4) (tag : BitVec 8) :
    v2Rfl (packV2 c mask fl tag) = fl := by
  have h0 := Bool.toNat_lt c
  have h1 := mask.isLt
  have h2 := fl.isLt
  have h3 := tag.isLt
  apply BitVec.eq_of_toNat_eq
  simp only [v2Rfl, fieldOf, BitVec.toNat_ofNat, packV2_toNat]; omega

@[simp] theorem v2Tag_packV2 (c : Bool) (mask : BitVec 8) (fl : BitVec 4) (tag : BitVec 8) :
    v2Tag (packV2 c mask fl tag) = tag := by
  have h0 := Bool.toNat_lt c
  have h1 := mask.isLt
  have h2 := fl.isLt
  have h3 := tag.isLt
  apply BitVec.eq_of_toNat_eq
  simp only [v2Tag, fieldOf, BitVec.toNat_ofNat, packV2_toNat]; omega

@[simp] theorem v2Z_packV2 (c : Bool) (mask : BitVec 8) (fl : BitVec 4) (tag : BitVec 8) :
    v2Z (packV2 c mask fl tag) = 0 := by
  have h0 := Bool.toNat_lt c
  have h1 := mask.isLt
  have h2 := fl.isLt
  have h3 := tag.isLt
  have hz : (0 : BitVec 11).toNat = 0 := rfl
  apply BitVec.eq_of_toNat_eq
  simp only [v2Z, fieldOf, BitVec.toNat_ofNat, packV2_toNat]; omega

@[simp] theorem tieBit_packV2 (c : Bool) (mask : BitVec 8) (fl : BitVec 4) (tag : BitVec 8) :
    tieBit (packV2 c mask fl tag) = BitVec.ofBool c := by
  have h0 := Bool.toNat_lt c
  have h1 := mask.isLt
  have h2 := fl.isLt
  have h3 := tag.isLt
  apply BitVec.eq_of_toNat_eq
  simp only [tieBit, fieldOf, BitVec.toNat_ofNat, packV2_toNat, BitVec.toNat_ofBool]; omega

theorem packW2_toNat (c : Bool) (tag : BitVec 8) :
    (packW2 c tag).toNat = c.toNat * 2147483648 + tag.toNat * 8388608 := by
  have h0 := Bool.toNat_lt c
  have h1 := tag.isLt
  simp only [packW2, BitVec.toNat_ofNat]; omega

@[simp] theorem w2Tag_packW2 (c : Bool) (tag : BitVec 8) :
    w2Tag (packW2 c tag) = tag := by
  have h0 := Bool.toNat_lt c
  have h1 := tag.isLt
  apply BitVec.eq_of_toNat_eq
  simp only [w2Tag, fieldOf, BitVec.toNat_ofNat, packW2_toNat]; omega

@[simp] theorem w2Z_packW2 (c : Bool) (tag : BitVec 8) :
    w2Z (packW2 c tag) = 0 := by
  have h0 := Bool.toNat_lt c
  have h1 := tag.isLt
  have hz : (0 : BitVec 23).toNat = 0 := rfl
  apply BitVec.eq_of_toNat_eq
  simp only [w2Z, fieldOf, BitVec.toNat_ofNat, packW2_toNat]; omega

@[simp] theorem tieBit_packW2 (c : Bool) (tag : BitVec 8) :
    tieBit (packW2 c tag) = BitVec.ofBool c := by
  have h0 := Bool.toNat_lt c
  have h1 := tag.isLt
  apply BitVec.eq_of_toNat_eq
  simp only [tieBit, fieldOf, BitVec.toNat_ofNat, packW2_toNat, BitVec.toNat_ofBool]; omega

theorem packS2_toNat (c : Bool) (filt : BitVec 3) (aniso : BitVec 3) (lod : BitVec 2) (wrap : BitVec 2) :
    (packS2 c filt aniso lod wrap).toNat = c.toNat * 2147483648 + filt.toNat * 268435456 + aniso.toNat * 33554432 + lod.toNat * 8388608 + wrap.toNat * 2097152 := by
  have h0 := Bool.toNat_lt c
  have h1 := filt.isLt
  have h2 := aniso.isLt
  have h3 := lod.isLt
  have h4 := wrap.isLt
  simp only [packS2, BitVec.toNat_ofNat]; omega

@[simp] theorem s2Filt_packS2 (c : Bool) (filt : BitVec 3) (aniso : BitVec 3) (lod : BitVec 2) (wrap : BitVec 2) :
    s2Filt (packS2 c filt aniso lod wrap) = filt := by
  have h0 := Bool.toNat_lt c
  have h1 := filt.isLt
  have h2 := aniso.isLt
  have h3 := lod.isLt
  have h4 := wrap.isLt
  apply BitVec.eq_of_toNat_eq
  simp only [s2Filt, fieldOf, BitVec.toNat_ofNat, packS2_toNat]; omega

@[simp] theorem s2Aniso_packS2 (c : Bool) (filt : BitVec 3) (aniso : BitVec 3) (lod : BitVec 2) (wrap : BitVec 2) :
    s2Aniso (packS2 c filt aniso lod wrap) = aniso := by
  have h0 := Bool.toNat_lt c
  have h1 := filt.isLt
  have h2 := aniso.isLt
  have h3 := lod.isLt
  have h4 := wrap.isLt
  apply BitVec.eq_of_toNat_eq
  simp only [s2Aniso, fieldOf, BitVec.toNat_ofNat, packS2_toNat]; omega

@[simp] theorem s2Lod_packS2 (c : Bool) (filt : BitVec 3) (aniso : BitVec 3) (lod : BitVec 2) (wrap : BitVec 2) :
    s2Lod (packS2 c filt aniso lod wrap) = lod := by
  have h0 := Bool.toNat_lt c
  have h1 := filt.isLt
  have h2 := aniso.isLt
  have h3 := lod.isLt
  have h4 := wrap.isLt
  apply BitVec.eq_of_toNat_eq
  simp only [s2Lod, fieldOf, BitVec.toNat_ofNat, packS2_toNat]; omega

@[simp] theorem s2Wrap_packS2 (c : Bool) (filt : BitVec 3) (aniso : BitVec 3) (lod : BitVec 2) (wrap : BitVec 2) :
    s2Wrap (packS2 c filt aniso lod wrap) = wrap := by
  have h0 := Bool.toNat_lt c
  have h1 := filt.isLt
  have h2 := aniso.isLt
  have h3 := lod.isLt
  have h4 := wrap.isLt
  apply BitVec.eq_of_toNat_eq
  simp only [s2Wrap, fieldOf, BitVec.toNat_ofNat, packS2_toNat]; omega

@[simp] theorem s2Z_packS2 (c : Bool) (filt : BitVec 3) (aniso : BitVec 3) (lod : BitVec 2) (wrap : BitVec 2) :
    s2Z (packS2 c filt aniso lod wrap) = 0 := by
  have h0 := Bool.toNat_lt c
  have h1 := filt.isLt
  have h2 := aniso.isLt
  have h3 := lod.isLt
  have h4 := wrap.isLt
  have hz : (0 : BitVec 21).toNat = 0 := rfl
  apply BitVec.eq_of_toNat_eq
  simp only [s2Z, fieldOf, BitVec.toNat_ofNat, packS2_toNat]; omega

@[simp] theorem tieBit_packS2 (c : Bool) (filt : BitVec 3) (aniso : BitVec 3) (lod : BitVec 2) (wrap : BitVec 2) :
    tieBit (packS2 c filt aniso lod wrap) = BitVec.ofBool c := by
  have h0 := Bool.toNat_lt c
  have h1 := filt.isLt
  have h2 := aniso.isLt
  have h3 := lod.isLt
  have h4 := wrap.isLt
  apply BitVec.eq_of_toNat_eq
  simp only [tieBit, fieldOf, BitVec.toNat_ofNat, packS2_toNat, BitVec.toNat_ofBool]; omega

theorem packG2_toNat (c : Bool) (imm : BitVec 12) :
    (packG2 c imm).toNat = c.toNat * 2147483648 + imm.toNat * 524288 := by
  have h0 := Bool.toNat_lt c
  have h1 := imm.isLt
  simp only [packG2, BitVec.toNat_ofNat]; omega

@[simp] theorem g2Imm_packG2 (c : Bool) (imm : BitVec 12) :
    g2Imm (packG2 c imm) = imm := by
  have h0 := Bool.toNat_lt c
  have h1 := imm.isLt
  apply BitVec.eq_of_toNat_eq
  simp only [g2Imm, fieldOf, BitVec.toNat_ofNat, packG2_toNat]; omega

@[simp] theorem g2Z_packG2 (c : Bool) (imm : BitVec 12) :
    g2Z (packG2 c imm) = 0 := by
  have h0 := Bool.toNat_lt c
  have h1 := imm.isLt
  have hz : (0 : BitVec 19).toNat = 0 := rfl
  apply BitVec.eq_of_toNat_eq
  simp only [g2Z, fieldOf, BitVec.toNat_ofNat, packG2_toNat]; omega

@[simp] theorem tieBit_packG2 (c : Bool) (imm : BitVec 12) :
    tieBit (packG2 c imm) = BitVec.ofBool c := by
  have h0 := Bool.toNat_lt c
  have h1 := imm.isLt
  apply BitVec.eq_of_toNat_eq
  simp only [tieBit, fieldOf, BitVec.toNat_ofNat, packG2_toNat, BitVec.toNat_ofBool]; omega

@[simp] theorem tieBit_true : (BitVec.ofBool true == (1 : BitVec 1)) = true := rfl
@[simp] theorem Size.ofCode_code (x : Size) : Size.ofCode x.code = .ok x := by cases x <;> rfl
@[simp] theorem Order.ofCode_code (x : Order) : Order.ofCode x.code = .ok x := by cases x <;> rfl
@[simp] theorem Scope.ofCode7_code7 (x : Scope) : Scope.ofCode7 x.code7 = .ok x := by cases x <;> rfl
@[simp] theorem Rnd.ofCode3_code3 (x : Rnd) : Rnd.ofCode3 x.code3 = .ok x := by cases x <;> rfl
@[simp] theorem QRnd.ofCode_code (x : QRnd) : QRnd.ofCode x.code = .ok x := by cases x <;> rfl
@[simp] theorem QFmt.ofCode_code (x : QFmt) : QFmt.ofCode x.code = .ok x := by cases x <;> rfl
@[simp] theorem Xpose.ofCode_code (x : Xpose) : Xpose.ofCode x.code = .ok x := by cases x <;> rfl
@[simp] theorem Filt.ofCode_code (x : Filt) : Filt.ofCode x.code = .ok x := by cases x <;> rfl
@[simp] theorem Aniso.ofCode_code (x : Aniso) : Aniso.ofCode x.code = .ok x := by cases x <;> rfl
@[simp] theorem Wrap.ofCode_code (x : Wrap) : Wrap.ofCode x.code = x := by cases x <;> rfl
@[simp] theorem lodOf_lodCode (b : Bool) : lodOf (lodCode b) = .ok b := by cases b <;> rfl
@[simp] theorem sizeBit_sizeCode (b : Bool) : sizeBit (sizeCode b) = .ok b := by cases b <;> rfl
@[simp] theorem bankOf_bankCode (b : Bool) : bankOf (bankCode b) = .ok b := by cases b <;> rfl
@[simp] theorem collKind_collImm (k : CollKind) (f : CollFn) : collKind (collImm k f) = .ok k := by cases k <;> cases f <;> rfl
@[simp] theorem collFn_collImm (k : CollKind) (f : CollFn) : collFn (collImm k f) = .ok f := by cases k <;> cases f <;> rfl
@[simp] theorem low1_bit7 (b : Bool) : low1 (bit7 b) = .ok b := by cases b <;> rfl
@[simp] theorem low2_setWidth (x : BitVec 2) : low2 (x.setWidth 7) = .ok x := by revert x; decide
@[simp] theorem low3_setWidth (x : BitVec 3) : low3 (x.setWidth 7) = .ok x := by revert x; decide
@[simp] theorem low4_setWidth (x : BitVec 4) : low4 (x.setWidth 7) = .ok x := by revert x; decide
@[simp] theorem low5_setWidth (x : BitVec 5) : low5 (x.setWidth 7) = .ok x := by revert x; decide
@[simp] theorem low6_setWidth (x : BitVec 6) : low6 (x.setWidth 7) = .ok x := by revert x; decide
@[simp] theorem low3of4_setWidth (x : BitVec 3) : low3of4 (x.setWidth 4) = .ok x := by revert x; decide
@[simp] theorem low2of4_setWidth (x : BitVec 2) : low2of4 (x.setWidth 4) = .ok x := by revert x; decide
@[simp] theorem low7of8_setWidth (x : BitVec 7) : low7of8 (x.setWidth 8) = .ok x := by revert x; decide
@[simp] theorem barF_barE (f : Bool) (b : BitVec 4) : barF (barE f b) = f := by revert f b; decide
@[simp] theorem low4_barE (f : Bool) (b : BitVec 4) : low4 (barE f b &&& 0x6f) = .ok b := by revert f b; decide
@[simp] theorem shiOp_shiImm (o : BitVec 2) (n : BitVec 5) : shiOp (shiImm o n) = o := by revert o n; decide
@[simp] theorem shiN_shiImm (o : BitVec 2) (n : BitVec 5) : shiN (shiImm o n) = .ok n := by revert o n; decide
@[simp] theorem selS_selFn (s : BitVec 1) (p : Pred) : selS (selFn s p) = s := by revert s p; decide
@[simp] theorem selP_selFn (s : BitVec 1) (p : Pred) : selP (selFn s p) = p := by revert s p; decide
@[simp] theorem redOs_redD (o : Order) (s : Bool) : redOs (redD o s) = .ok o := by cases o <;> cases s <;> rfl
@[simp] theorem redS8_redD (o : Order) (s : Bool) : redS8 (redD o s) = s := by cases o <;> cases s <;> rfl
@[simp] theorem fenceOrder_fenceE (o : BitVec 2) (s : Scope) : fenceOrder (fenceE o s) = o := by
  revert o; cases s <;> decide
@[simp] theorem fenceScope_fenceE (o : BitVec 2) (s : Scope) : fenceScope (fenceE o s) = .ok s := by
  revert o; cases s <;> decide
@[simp] theorem litSd_litImm (sd : Bool) (v : Word) : litSd (litImm sd v) = sd := by
  have := v.isLt; have := Bool.toNat_lt sd
  simp only [litSd, litImm, BitVec.toNat_ofNat]; cases sd <;> simp <;> omega
@[simp] theorem litHigh_litImm (sd : Bool) (v : Word) : litHigh (litImm sd v) = true := by
  have := v.isLt; have := Bool.toNat_lt sd
  simp only [litHigh, litImm, BitVec.toNat_ofNat]; simp; omega
@[simp] theorem litValue_litImm (sd : Bool) (v : Word) (c : Bool) : litValue (litImm sd v) (packL2 c v) = v := by
  have := v.isLt; have := Bool.toNat_lt sd
  apply BitVec.eq_of_toNat_eq
  simp only [litValue, litImm, packL2_toNat, BitVec.toNat_ofNat]; omega
@[simp] theorem zero_zero {n : Nat} : zero (0 : BitVec n) = .ok () := by simp [zero, require]
@[simp] theorem require_true (r : Reject) : require true r = .ok () := rfl

end Sys2Proof
end

