-- ==== Sys2Proof/Laws/Map.lean ====
section
/-!
SUPPORT.  Finite maps: a read after a write, and the canonical form that every operation keeps.
-/

namespace Sys2Proof.Machine

variable {α : Type}

/-! ### Reading after writing -/

theorem fget_fins (d : α) (m : FMap α) (i j : Nat) (x : α) : fget d (fins m i x) j = if j = i then x else fget d m j := by
  induction m with
  | nil => simp [fins, fget]
  | cons e m ih =>
    obtain ⟨k, v⟩ := e
    simp only [fins]
    split
    · subst_vars; simp only [fget]; split <;> simp_all
    · split
      · simp only [fget]
      · simp only [fget, ih]; split <;> split <;> simp_all

theorem ffind_fins (m : FMap α) (i j : Nat) (x : α) : ffind (fins m i x) j = if j = i then some x else ffind m j := by
  induction m with
  | nil => simp [fins, ffind]
  | cons e m ih =>
    obtain ⟨k, v⟩ := e
    simp only [fins]
    split
    · subst_vars; simp only [ffind]; split <;> simp_all
    · split
      · simp only [ffind]
      · simp only [ffind, ih]; split <;> split <;> simp_all

theorem fget_fdel (d : α) (m : FMap α) (i j : Nat) : fget d (fdel m i) j = if j = i then d else fget d m j := by
  induction m with
  | nil => simp [fdel, fget]
  | cons e m ih =>
    obtain ⟨k, v⟩ := e
    have h : fdel ((k, v) :: m) i = if k = i then fdel m i else (k, v) :: fdel m i := by
      simp only [fdel, List.filter_cons, bne_iff_ne, ne_eq]; split <;> simp_all
    rw [h]
    split
    · subst_vars; simp only [ih, fget]; split <;> simp_all
    · simp only [fget, ih]; split <;> split <;> simp_all

/-- A read after a write. -/
theorem fget_fset [DecidableEq α] (d : α) (m : FMap α) (i j : Nat) (x : α) :
    fget d (fset d m i x) j = if j = i then x else fget d m j := by
  unfold fset
  split
  · subst_vars; simp [fget_fdel]
  · simp [fget_fins]

@[simp] theorem fget_fset_same [DecidableEq α] (d : α) (m : FMap α) (i : Nat) (x : α) : fget d (fset d m i x) i = x := by
  simp [fget_fset]

theorem fget_fset_other [DecidableEq α] (d : α) (m : FMap α) {i j : Nat} (h : j ≠ i) (x : α) :
    fget d (fset d m i x) j = fget d m j := by simp [fget_fset, h]

@[simp] theorem ffind_fins_same (m : FMap α) (i : Nat) (x : α) : ffind (fins m i x) i = some x := by simp [ffind_fins]

theorem ffind_fins_other (m : FMap α) {i j : Nat} (h : j ≠ i) (x : α) : ffind (fins m i x) j = ffind m j := by
  simp [ffind_fins, h]

/-! ### The canonical form -/

theorem fwfFrom_le [DecidableEq α] {d : α} {lo lo' : Nat} {m : FMap α} (h : fwfFrom d lo m = true) (hl : lo' ≤ lo) :
    fwfFrom d lo' m = true := by
  cases m with
  | nil => rfl
  | cons e m =>
    obtain ⟨k, v⟩ := e
    simp only [fwfFrom, Bool.and_eq_true, decide_eq_true_eq] at h ⊢
    exact ⟨⟨by omega, h.1.2⟩, h.2⟩

theorem fwfFrom_fins [DecidableEq α] {d : α} {lo : Nat} {m : FMap α} {i : Nat} {x : α} (h : fwfFrom d lo m = true)
    (hi : lo ≤ i) (hx : x ≠ d) : fwfFrom d lo (fins m i x) = true := by
  induction m generalizing lo with
  | nil => simp [fins, fwfFrom, hi, hx]
  | cons e m ih =>
    obtain ⟨k, v⟩ := e
    simp only [fwfFrom, Bool.and_eq_true, decide_eq_true_eq] at h
    simp only [fins]
    split
    · subst_vars; simp only [fwfFrom, Bool.and_eq_true, decide_eq_true_eq]; exact ⟨⟨hi, hx⟩, h.2⟩
    · split
      · simp only [fwfFrom, Bool.and_eq_true, decide_eq_true_eq]
        exact ⟨⟨hi, hx⟩, ⟨by omega, h.1.2⟩, h.2⟩
      · simp only [fwfFrom, Bool.and_eq_true, decide_eq_true_eq]
        exact ⟨h.1, ih h.2 (by omega)⟩

theorem fwfFrom_filter [DecidableEq α] {d : α} {lo : Nat} {m : FMap α} (p : Nat × α → Bool) (h : fwfFrom d lo m = true) :
    fwfFrom d lo (m.filter p) = true := by
  induction m generalizing lo with
  | nil => rfl
  | cons e m ih =>
    obtain ⟨k, v⟩ := e
    simp only [fwfFrom, Bool.and_eq_true, decide_eq_true_eq] at h
    simp only [List.filter_cons]
    split
    · simp only [fwfFrom, Bool.and_eq_true, decide_eq_true_eq]; exact ⟨h.1, ih h.2⟩
    · exact fwfFrom_le (ih h.2) (by omega)

/-- Setting a key keeps the canonical form. -/
theorem fwf_fset [DecidableEq α] {d : α} {m : FMap α} (h : fwf d m = true) (i : Nat) (x : α) : fwf d (fset d m i x) = true := by
  unfold fset
  split
  · exact fwfFrom_filter _ h
  · exact fwfFrom_fins h (Nat.zero_le _) ‹_›

/-- Setting keys one after another keeps it. -/
theorem fwf_foldl_fset [DecidableEq α] {β : Type} {d : α} (l : List β) (k : β → Nat) (v : β → α) {m : FMap α} (h : fwf d m = true) :
    fwf d (l.foldl (fun m c => fset d m (k c) (v c)) m) = true := by
  induction l generalizing m with
  | nil => exact h
  | cons c l ih => exact ih (fwf_fset h _ _)

theorem fget_of_lt [DecidableEq α] {d : α} {lo i : Nat} {m : FMap α} (h : fwfFrom d lo m = true) (hi : i < lo) : fget d m i = d := by
  induction m generalizing lo with
  | nil => rfl
  | cons e m ih =>
    obtain ⟨k, v⟩ := e
    simp only [fwfFrom, Bool.and_eq_true, decide_eq_true_eq] at h
    simp only [fget]
    rw [if_neg (by omega)]
    exact ih h.2 (by omega)

theorem fwfFrom_ext [DecidableEq α] {d : α} {lo : Nat} {m n : FMap α} (hm : fwfFrom d lo m = true) (hn : fwfFrom d lo n = true)
    (h : ∀ i, fget d m i = fget d n i) : m = n := by
  induction m generalizing n lo with
  | nil =>
    cases n with
    | nil => rfl
    | cons e n =>
      obtain ⟨k, v⟩ := e
      simp only [fwfFrom, Bool.and_eq_true, decide_eq_true_eq] at hn
      have := h k
      simp [fget] at this
      exact absurd this.symm hn.1.2
  | cons e m ih =>
    obtain ⟨k, v⟩ := e
    have hm' := hm
    simp only [fwfFrom, Bool.and_eq_true, decide_eq_true_eq] at hm'
    cases n with
    | nil =>
      have := h k
      simp [fget] at this
      exact absurd this hm'.1.2
    | cons e' n =>
      obtain ⟨k', v'⟩ := e'
      have hn' := hn
      simp only [fwfFrom, Bool.and_eq_true, decide_eq_true_eq] at hn'
      have hk : k = k' := by
        rcases Nat.lt_trichotomy k k' with hl | hl | hl
        · have := h k
          simp only [fget, if_true, if_neg (Nat.ne_of_lt hl)] at this
          exact absurd (this.trans (fget_of_lt hn'.2 (by omega))) hm'.1.2
        · exact hl
        · have := h k'
          simp only [fget, if_true, if_neg (Nat.ne_of_lt hl)] at this
          exact absurd (this.symm.trans (fget_of_lt hm'.2 (by omega))) hn'.1.2
      subst hk
      have hv : v = v' := by have := h k; simpa [fget] using this
      subst hv
      congr 1
      refine ih hm'.2 hn'.2 (fun i => ?_)
      by_cases hi : i = k
      · subst hi; rw [fget_of_lt hm'.2 (by omega), fget_of_lt hn'.2 (by omega)]
      · have := h i; simpa [fget, hi] using this

/-- Canonical maps that read the same are the same list. -/
theorem fwf_ext [DecidableEq α] {d : α} {m n : FMap α} (hm : fwf d m = true) (hn : fwf d n = true)
    (h : ∀ i, fget d m i = fget d n i) : m = n := fwfFrom_ext hm hn h

/-! ### Lists by index -/

@[simp] theorem nth_nil (d : α) (i : Nat) : nth d [] i = d := by cases i <;> rfl
@[simp] theorem nth_zero (d x : α) (l : List α) : nth d (x :: l) 0 = x := rfl
@[simp] theorem nth_succ (d x : α) (l : List α) (i : Nat) : nth d (x :: l) (i + 1) = nth d l i := rfl

theorem nth_mapFrom {β : Type} (f : Nat → α → β) (d : α) (e : β) (l : List α) (n i : Nat) :
    nth e (mapFrom f n l) i = if i < l.length then f (n + i) (nth d l i) else e := by
  induction l generalizing n i with
  | nil => simp [mapFrom]
  | cons x l ih =>
    cases i with
    | zero => simp [mapFrom]
    | succ i =>
      simp only [mapFrom, nth_succ, ih, List.length_cons, Nat.add_lt_add_iff_right]
      split
      · congr 1; omega
      · rfl

@[simp] theorem length_mapFrom {β : Type} (f : Nat → α → β) (n : Nat) (l : List α) : (mapFrom f n l).length = l.length := by
  induction l generalizing n with
  | nil => rfl
  | cons x l ih => simp [mapFrom, ih]

theorem nth_of_le (d : α) (l : List α) (i : Nat) (h : l.length ≤ i) : nth d l i = d := by
  induction l generalizing i with
  | nil => simp
  | cons x l ih =>
    cases i with
    | zero => simp at h
    | succ i => simpa using ih i (by simpa using h)

theorem nth_modNth (d : α) (f : α → α) (l : List α) (i j : Nat) :
    nth d (modNth l i f) j = if j = i ∧ i < l.length then f (nth d l i) else nth d l j := by
  induction l generalizing i j with
  | nil => simp [modNth]
  | cons x l ih =>
    cases i with
    | zero => cases j <;> simp [modNth]
    | succ i => cases j <;> simp [modNth, ih]

/-! ### Lane masks -/

theorem mem_lanesOf {n : Nat} {m : Lanes} {i : Nat} : i ∈ lanesOf n m ↔ i < n ∧ m.getLsbD i = true := by
  simp [lanesOf]

theorem nodup_lanesOf (n : Nat) (m : Lanes) : (lanesOf n m).Nodup := List.nodup_range.filter _

end Sys2Proof.Machine
end

