-- ==== Sys2Proof/Laws/State.lean ====
section
/-!
SUPPORT.  The state's updates, field by field: one lemma for each field of each update, and what an accessor reads after
one.
-/

namespace Sys2Proof.Machine

/-! ### setGrp -/

@[simp] theorem State.setGrp_groups (s : State) (k : Nat) (g : Group) : (s.setGrp k g).groups = fins s.groups k g := rfl
@[simp] theorem State.setGrp_teams (s : State) (k : Nat) (g : Group) : (s.setGrp k g).teams = s.teams := rfl
@[simp] theorem State.setGrp_cores (s : State) (k : Nat) (g : Group) : (s.setGrp k g).cores = s.cores := rfl
@[simp] theorem State.setGrp_execs (s : State) (k : Nat) (g : Group) : (s.setGrp k g).execs = s.execs := rfl
@[simp] theorem State.setGrp_nextKey (s : State) (k : Nat) (g : Group) : (s.setGrp k g).nextKey = s.nextKey := rfl
@[simp] theorem State.setGrp_mem (s : State) (k : Nat) (g : Group) : (s.setGrp k g).mem = s.mem := rfl
@[simp] theorem State.setGrp_marks (s : State) (k : Nat) (g : Group) : (s.setGrp k g).marks = s.marks := rfl
@[simp] theorem State.setGrp_parts (s : State) (k : Nat) (g : Group) : (s.setGrp k g).parts = s.parts := rfl
@[simp] theorem State.setGrp_wcount (s : State) (k : Nat) (g : Group) : (s.setGrp k g).wcount = s.wcount := rfl
@[simp] theorem State.setGrp_tlb (s : State) (k : Nat) (g : Group) : (s.setGrp k g).tlb = s.tlb := rfl
@[simp] theorem State.setGrp_dieA (s : State) (k : Nat) (g : Group) : (s.setGrp k g).dieA = s.dieA := rfl
@[simp] theorem State.setGrp_dieB (s : State) (k : Nat) (g : Group) : (s.setGrp k g).dieB = s.dieB := rfl
@[simp] theorem State.setGrp_dieC (s : State) (k : Nat) (g : Group) : (s.setGrp k g).dieC = s.dieC := rfl
@[simp] theorem State.setGrp_sparges (s : State) (k : Nat) (g : Group) : (s.setGrp k g).sparges = s.sparges := rfl
@[simp] theorem State.setGrp_spoilt (s : State) (k : Nat) (g : Group) : (s.setGrp k g).spoilt = s.spoilt := rfl
@[simp] theorem State.setGrp_links (s : State) (k : Nat) (g : Group) : (s.setGrp k g).links = s.links := rfl
@[simp] theorem State.setGrp_arbiters (s : State) (k : Nat) (g : Group) : (s.setGrp k g).arbiters = s.arbiters := rfl
@[simp] theorem State.setGrp_reply (s : State) (k : Nat) (g : Group) : (s.setGrp k g).reply = s.reply := rfl
@[simp] theorem State.setGrp_tick (s : State) (k : Nat) (g : Group) : (s.setGrp k g).tick = s.tick := rfl
@[simp] theorem State.setGrp_fresh (s : State) (k : Nat) (g : Group) : (s.setGrp k g).fresh = s.fresh := rfl
@[simp] theorem State.setGrp_pace (s : State) (k : Nat) (g : Group) : (s.setGrp k g).pace = s.pace := rfl
@[simp] theorem State.setGrp_strikes (s : State) (k : Nat) (g : Group) : (s.setGrp k g).strikes = s.strikes := rfl
@[simp] theorem State.setGrp_agenda (s : State) (k : Nat) (g : Group) : (s.setGrp k g).agenda = s.agenda := rfl
@[simp] theorem State.setGrp_unit (s : State) (k : Nat) (g : Group) : (s.setGrp k g).unit = s.unit := rfl

/-! ### setTeam -/

@[simp] theorem State.setTeam_groups (s : State) (k : Nat) (t : Team) : (s.setTeam k t).groups = s.groups := rfl
@[simp] theorem State.setTeam_teams (s : State) (k : Nat) (t : Team) : (s.setTeam k t).teams = fins s.teams k t := rfl
@[simp] theorem State.setTeam_cores (s : State) (k : Nat) (t : Team) : (s.setTeam k t).cores = s.cores := rfl
@[simp] theorem State.setTeam_execs (s : State) (k : Nat) (t : Team) : (s.setTeam k t).execs = s.execs := rfl
@[simp] theorem State.setTeam_nextKey (s : State) (k : Nat) (t : Team) : (s.setTeam k t).nextKey = s.nextKey := rfl
@[simp] theorem State.setTeam_mem (s : State) (k : Nat) (t : Team) : (s.setTeam k t).mem = s.mem := rfl
@[simp] theorem State.setTeam_marks (s : State) (k : Nat) (t : Team) : (s.setTeam k t).marks = s.marks := rfl
@[simp] theorem State.setTeam_parts (s : State) (k : Nat) (t : Team) : (s.setTeam k t).parts = s.parts := rfl
@[simp] theorem State.setTeam_wcount (s : State) (k : Nat) (t : Team) : (s.setTeam k t).wcount = s.wcount := rfl
@[simp] theorem State.setTeam_tlb (s : State) (k : Nat) (t : Team) : (s.setTeam k t).tlb = s.tlb := rfl
@[simp] theorem State.setTeam_dieA (s : State) (k : Nat) (t : Team) : (s.setTeam k t).dieA = s.dieA := rfl
@[simp] theorem State.setTeam_dieB (s : State) (k : Nat) (t : Team) : (s.setTeam k t).dieB = s.dieB := rfl
@[simp] theorem State.setTeam_dieC (s : State) (k : Nat) (t : Team) : (s.setTeam k t).dieC = s.dieC := rfl
@[simp] theorem State.setTeam_sparges (s : State) (k : Nat) (t : Team) : (s.setTeam k t).sparges = s.sparges := rfl
@[simp] theorem State.setTeam_spoilt (s : State) (k : Nat) (t : Team) : (s.setTeam k t).spoilt = s.spoilt := rfl
@[simp] theorem State.setTeam_links (s : State) (k : Nat) (t : Team) : (s.setTeam k t).links = s.links := rfl
@[simp] theorem State.setTeam_arbiters (s : State) (k : Nat) (t : Team) : (s.setTeam k t).arbiters = s.arbiters := rfl
@[simp] theorem State.setTeam_reply (s : State) (k : Nat) (t : Team) : (s.setTeam k t).reply = s.reply := rfl
@[simp] theorem State.setTeam_tick (s : State) (k : Nat) (t : Team) : (s.setTeam k t).tick = s.tick := rfl
@[simp] theorem State.setTeam_fresh (s : State) (k : Nat) (t : Team) : (s.setTeam k t).fresh = s.fresh := rfl
@[simp] theorem State.setTeam_pace (s : State) (k : Nat) (t : Team) : (s.setTeam k t).pace = s.pace := rfl
@[simp] theorem State.setTeam_strikes (s : State) (k : Nat) (t : Team) : (s.setTeam k t).strikes = s.strikes := rfl
@[simp] theorem State.setTeam_agenda (s : State) (k : Nat) (t : Team) : (s.setTeam k t).agenda = s.agenda := rfl
@[simp] theorem State.setTeam_unit (s : State) (k : Nat) (t : Team) : (s.setTeam k t).unit = s.unit := rfl

/-! ### setExec -/

@[simp] theorem State.setExec_groups (s : State) (k : Nat) (e : Exec) : (s.setExec k e).groups = s.groups := rfl
@[simp] theorem State.setExec_teams (s : State) (k : Nat) (e : Exec) : (s.setExec k e).teams = s.teams := rfl
@[simp] theorem State.setExec_cores (s : State) (k : Nat) (e : Exec) : (s.setExec k e).cores = s.cores := rfl
@[simp] theorem State.setExec_execs (s : State) (k : Nat) (e : Exec) : (s.setExec k e).execs = fins s.execs k e := rfl
@[simp] theorem State.setExec_nextKey (s : State) (k : Nat) (e : Exec) : (s.setExec k e).nextKey = s.nextKey := rfl
@[simp] theorem State.setExec_mem (s : State) (k : Nat) (e : Exec) : (s.setExec k e).mem = s.mem := rfl
@[simp] theorem State.setExec_marks (s : State) (k : Nat) (e : Exec) : (s.setExec k e).marks = s.marks := rfl
@[simp] theorem State.setExec_parts (s : State) (k : Nat) (e : Exec) : (s.setExec k e).parts = s.parts := rfl
@[simp] theorem State.setExec_wcount (s : State) (k : Nat) (e : Exec) : (s.setExec k e).wcount = s.wcount := rfl
@[simp] theorem State.setExec_tlb (s : State) (k : Nat) (e : Exec) : (s.setExec k e).tlb = s.tlb := rfl
@[simp] theorem State.setExec_dieA (s : State) (k : Nat) (e : Exec) : (s.setExec k e).dieA = s.dieA := rfl
@[simp] theorem State.setExec_dieB (s : State) (k : Nat) (e : Exec) : (s.setExec k e).dieB = s.dieB := rfl
@[simp] theorem State.setExec_dieC (s : State) (k : Nat) (e : Exec) : (s.setExec k e).dieC = s.dieC := rfl
@[simp] theorem State.setExec_sparges (s : State) (k : Nat) (e : Exec) : (s.setExec k e).sparges = s.sparges := rfl
@[simp] theorem State.setExec_spoilt (s : State) (k : Nat) (e : Exec) : (s.setExec k e).spoilt = s.spoilt := rfl
@[simp] theorem State.setExec_links (s : State) (k : Nat) (e : Exec) : (s.setExec k e).links = s.links := rfl
@[simp] theorem State.setExec_arbiters (s : State) (k : Nat) (e : Exec) : (s.setExec k e).arbiters = s.arbiters := rfl
@[simp] theorem State.setExec_reply (s : State) (k : Nat) (e : Exec) : (s.setExec k e).reply = s.reply := rfl
@[simp] theorem State.setExec_tick (s : State) (k : Nat) (e : Exec) : (s.setExec k e).tick = s.tick := rfl
@[simp] theorem State.setExec_fresh (s : State) (k : Nat) (e : Exec) : (s.setExec k e).fresh = s.fresh := rfl
@[simp] theorem State.setExec_pace (s : State) (k : Nat) (e : Exec) : (s.setExec k e).pace = s.pace := rfl
@[simp] theorem State.setExec_strikes (s : State) (k : Nat) (e : Exec) : (s.setExec k e).strikes = s.strikes := rfl
@[simp] theorem State.setExec_agenda (s : State) (k : Nat) (e : Exec) : (s.setExec k e).agenda = s.agenda := rfl
@[simp] theorem State.setExec_unit (s : State) (k : Nat) (e : Exec) : (s.setExec k e).unit = s.unit := rfl

/-! ### setCore -/

@[simp] theorem State.setCore_groups (s : State) (k : Nat) (c : Core) : (s.setCore k c).groups = s.groups := rfl
@[simp] theorem State.setCore_teams (s : State) (k : Nat) (c : Core) : (s.setCore k c).teams = s.teams := rfl
@[simp] theorem State.setCore_cores (s : State) (k : Nat) (c : Core) : (s.setCore k c).cores = fins s.cores k c := rfl
@[simp] theorem State.setCore_execs (s : State) (k : Nat) (c : Core) : (s.setCore k c).execs = s.execs := rfl
@[simp] theorem State.setCore_nextKey (s : State) (k : Nat) (c : Core) : (s.setCore k c).nextKey = s.nextKey := rfl
@[simp] theorem State.setCore_mem (s : State) (k : Nat) (c : Core) : (s.setCore k c).mem = s.mem := rfl
@[simp] theorem State.setCore_marks (s : State) (k : Nat) (c : Core) : (s.setCore k c).marks = s.marks := rfl
@[simp] theorem State.setCore_parts (s : State) (k : Nat) (c : Core) : (s.setCore k c).parts = s.parts := rfl
@[simp] theorem State.setCore_wcount (s : State) (k : Nat) (c : Core) : (s.setCore k c).wcount = s.wcount := rfl
@[simp] theorem State.setCore_tlb (s : State) (k : Nat) (c : Core) : (s.setCore k c).tlb = s.tlb := rfl
@[simp] theorem State.setCore_dieA (s : State) (k : Nat) (c : Core) : (s.setCore k c).dieA = s.dieA := rfl
@[simp] theorem State.setCore_dieB (s : State) (k : Nat) (c : Core) : (s.setCore k c).dieB = s.dieB := rfl
@[simp] theorem State.setCore_dieC (s : State) (k : Nat) (c : Core) : (s.setCore k c).dieC = s.dieC := rfl
@[simp] theorem State.setCore_sparges (s : State) (k : Nat) (c : Core) : (s.setCore k c).sparges = s.sparges := rfl
@[simp] theorem State.setCore_spoilt (s : State) (k : Nat) (c : Core) : (s.setCore k c).spoilt = s.spoilt := rfl
@[simp] theorem State.setCore_links (s : State) (k : Nat) (c : Core) : (s.setCore k c).links = s.links := rfl
@[simp] theorem State.setCore_arbiters (s : State) (k : Nat) (c : Core) : (s.setCore k c).arbiters = s.arbiters := rfl
@[simp] theorem State.setCore_reply (s : State) (k : Nat) (c : Core) : (s.setCore k c).reply = s.reply := rfl
@[simp] theorem State.setCore_tick (s : State) (k : Nat) (c : Core) : (s.setCore k c).tick = s.tick := rfl
@[simp] theorem State.setCore_fresh (s : State) (k : Nat) (c : Core) : (s.setCore k c).fresh = s.fresh := rfl
@[simp] theorem State.setCore_pace (s : State) (k : Nat) (c : Core) : (s.setCore k c).pace = s.pace := rfl
@[simp] theorem State.setCore_strikes (s : State) (k : Nat) (c : Core) : (s.setCore k c).strikes = s.strikes := rfl
@[simp] theorem State.setCore_agenda (s : State) (k : Nat) (c : Core) : (s.setCore k c).agenda = s.agenda := rfl
@[simp] theorem State.setCore_unit (s : State) (k : Nat) (c : Core) : (s.setCore k c).unit = s.unit := rfl

/-! ### setMe -/

@[simp] theorem State.setMe_groups (s : State) (g : Group) : (s.setMe g).groups = fins s.groups s.unit.g g := rfl
@[simp] theorem State.setMe_teams (s : State) (g : Group) : (s.setMe g).teams = s.teams := rfl
@[simp] theorem State.setMe_cores (s : State) (g : Group) : (s.setMe g).cores = s.cores := rfl
@[simp] theorem State.setMe_execs (s : State) (g : Group) : (s.setMe g).execs = s.execs := rfl
@[simp] theorem State.setMe_nextKey (s : State) (g : Group) : (s.setMe g).nextKey = s.nextKey := rfl
@[simp] theorem State.setMe_mem (s : State) (g : Group) : (s.setMe g).mem = s.mem := rfl
@[simp] theorem State.setMe_marks (s : State) (g : Group) : (s.setMe g).marks = s.marks := rfl
@[simp] theorem State.setMe_parts (s : State) (g : Group) : (s.setMe g).parts = s.parts := rfl
@[simp] theorem State.setMe_wcount (s : State) (g : Group) : (s.setMe g).wcount = s.wcount := rfl
@[simp] theorem State.setMe_tlb (s : State) (g : Group) : (s.setMe g).tlb = s.tlb := rfl
@[simp] theorem State.setMe_dieA (s : State) (g : Group) : (s.setMe g).dieA = s.dieA := rfl
@[simp] theorem State.setMe_dieB (s : State) (g : Group) : (s.setMe g).dieB = s.dieB := rfl
@[simp] theorem State.setMe_dieC (s : State) (g : Group) : (s.setMe g).dieC = s.dieC := rfl
@[simp] theorem State.setMe_sparges (s : State) (g : Group) : (s.setMe g).sparges = s.sparges := rfl
@[simp] theorem State.setMe_spoilt (s : State) (g : Group) : (s.setMe g).spoilt = s.spoilt := rfl
@[simp] theorem State.setMe_links (s : State) (g : Group) : (s.setMe g).links = s.links := rfl
@[simp] theorem State.setMe_arbiters (s : State) (g : Group) : (s.setMe g).arbiters = s.arbiters := rfl
@[simp] theorem State.setMe_reply (s : State) (g : Group) : (s.setMe g).reply = s.reply := rfl
@[simp] theorem State.setMe_tick (s : State) (g : Group) : (s.setMe g).tick = s.tick := rfl
@[simp] theorem State.setMe_fresh (s : State) (g : Group) : (s.setMe g).fresh = s.fresh := rfl
@[simp] theorem State.setMe_pace (s : State) (g : Group) : (s.setMe g).pace = s.pace := rfl
@[simp] theorem State.setMe_strikes (s : State) (g : Group) : (s.setMe g).strikes = s.strikes := rfl
@[simp] theorem State.setMe_agenda (s : State) (g : Group) : (s.setMe g).agenda = s.agenda := rfl
@[simp] theorem State.setMe_unit (s : State) (g : Group) : (s.setMe g).unit = s.unit := rfl

/-! ### onMe -/

@[simp] theorem State.onMe_groups (s : State) (f : Group → Group) : (s.onMe f).groups = fins s.groups s.unit.g (f s.me) := rfl
@[simp] theorem State.onMe_teams (s : State) (f : Group → Group) : (s.onMe f).teams = s.teams := rfl
@[simp] theorem State.onMe_cores (s : State) (f : Group → Group) : (s.onMe f).cores = s.cores := rfl
@[simp] theorem State.onMe_execs (s : State) (f : Group → Group) : (s.onMe f).execs = s.execs := rfl
@[simp] theorem State.onMe_nextKey (s : State) (f : Group → Group) : (s.onMe f).nextKey = s.nextKey := rfl
@[simp] theorem State.onMe_mem (s : State) (f : Group → Group) : (s.onMe f).mem = s.mem := rfl
@[simp] theorem State.onMe_marks (s : State) (f : Group → Group) : (s.onMe f).marks = s.marks := rfl
@[simp] theorem State.onMe_parts (s : State) (f : Group → Group) : (s.onMe f).parts = s.parts := rfl
@[simp] theorem State.onMe_wcount (s : State) (f : Group → Group) : (s.onMe f).wcount = s.wcount := rfl
@[simp] theorem State.onMe_tlb (s : State) (f : Group → Group) : (s.onMe f).tlb = s.tlb := rfl
@[simp] theorem State.onMe_dieA (s : State) (f : Group → Group) : (s.onMe f).dieA = s.dieA := rfl
@[simp] theorem State.onMe_dieB (s : State) (f : Group → Group) : (s.onMe f).dieB = s.dieB := rfl
@[simp] theorem State.onMe_dieC (s : State) (f : Group → Group) : (s.onMe f).dieC = s.dieC := rfl
@[simp] theorem State.onMe_sparges (s : State) (f : Group → Group) : (s.onMe f).sparges = s.sparges := rfl
@[simp] theorem State.onMe_spoilt (s : State) (f : Group → Group) : (s.onMe f).spoilt = s.spoilt := rfl
@[simp] theorem State.onMe_links (s : State) (f : Group → Group) : (s.onMe f).links = s.links := rfl
@[simp] theorem State.onMe_arbiters (s : State) (f : Group → Group) : (s.onMe f).arbiters = s.arbiters := rfl
@[simp] theorem State.onMe_reply (s : State) (f : Group → Group) : (s.onMe f).reply = s.reply := rfl
@[simp] theorem State.onMe_tick (s : State) (f : Group → Group) : (s.onMe f).tick = s.tick := rfl
@[simp] theorem State.onMe_fresh (s : State) (f : Group → Group) : (s.onMe f).fresh = s.fresh := rfl
@[simp] theorem State.onMe_pace (s : State) (f : Group → Group) : (s.onMe f).pace = s.pace := rfl
@[simp] theorem State.onMe_strikes (s : State) (f : Group → Group) : (s.onMe f).strikes = s.strikes := rfl
@[simp] theorem State.onMe_agenda (s : State) (f : Group → Group) : (s.onMe f).agenda = s.agenda := rfl
@[simp] theorem State.onMe_unit (s : State) (f : Group → Group) : (s.onMe f).unit = s.unit := rfl

/-! ### onC -/

@[simp] theorem State.onC_groups (s : State) (f : DieC → DieC) : (s.onC f).groups = s.groups := rfl
@[simp] theorem State.onC_teams (s : State) (f : DieC → DieC) : (s.onC f).teams = s.teams := rfl
@[simp] theorem State.onC_cores (s : State) (f : DieC → DieC) : (s.onC f).cores = s.cores := rfl
@[simp] theorem State.onC_execs (s : State) (f : DieC → DieC) : (s.onC f).execs = s.execs := rfl
@[simp] theorem State.onC_nextKey (s : State) (f : DieC → DieC) : (s.onC f).nextKey = s.nextKey := rfl
@[simp] theorem State.onC_mem (s : State) (f : DieC → DieC) : (s.onC f).mem = s.mem := rfl
@[simp] theorem State.onC_marks (s : State) (f : DieC → DieC) : (s.onC f).marks = s.marks := rfl
@[simp] theorem State.onC_parts (s : State) (f : DieC → DieC) : (s.onC f).parts = s.parts := rfl
@[simp] theorem State.onC_wcount (s : State) (f : DieC → DieC) : (s.onC f).wcount = s.wcount := rfl
@[simp] theorem State.onC_tlb (s : State) (f : DieC → DieC) : (s.onC f).tlb = s.tlb := rfl
@[simp] theorem State.onC_dieA (s : State) (f : DieC → DieC) : (s.onC f).dieA = s.dieA := rfl
@[simp] theorem State.onC_dieB (s : State) (f : DieC → DieC) : (s.onC f).dieB = s.dieB := rfl
@[simp] theorem State.onC_dieC (s : State) (f : DieC → DieC) : (s.onC f).dieC = f s.dieC := rfl
@[simp] theorem State.onC_sparges (s : State) (f : DieC → DieC) : (s.onC f).sparges = s.sparges := rfl
@[simp] theorem State.onC_spoilt (s : State) (f : DieC → DieC) : (s.onC f).spoilt = s.spoilt := rfl
@[simp] theorem State.onC_links (s : State) (f : DieC → DieC) : (s.onC f).links = s.links := rfl
@[simp] theorem State.onC_arbiters (s : State) (f : DieC → DieC) : (s.onC f).arbiters = s.arbiters := rfl
@[simp] theorem State.onC_reply (s : State) (f : DieC → DieC) : (s.onC f).reply = s.reply := rfl
@[simp] theorem State.onC_tick (s : State) (f : DieC → DieC) : (s.onC f).tick = s.tick := rfl
@[simp] theorem State.onC_fresh (s : State) (f : DieC → DieC) : (s.onC f).fresh = s.fresh := rfl
@[simp] theorem State.onC_pace (s : State) (f : DieC → DieC) : (s.onC f).pace = s.pace := rfl
@[simp] theorem State.onC_strikes (s : State) (f : DieC → DieC) : (s.onC f).strikes = s.strikes := rfl
@[simp] theorem State.onC_agenda (s : State) (f : DieC → DieC) : (s.onC f).agenda = s.agenda := rfl
@[simp] theorem State.onC_unit (s : State) (f : DieC → DieC) : (s.onC f).unit = s.unit := rfl

/-! ### spent -/

@[simp] theorem State.spent_groups (s : State) : s.spent.groups = s.groups := rfl
@[simp] theorem State.spent_teams (s : State) : s.spent.teams = s.teams := rfl
@[simp] theorem State.spent_cores (s : State) : s.spent.cores = s.cores := rfl
@[simp] theorem State.spent_execs (s : State) : s.spent.execs = s.execs := rfl
@[simp] theorem State.spent_nextKey (s : State) : s.spent.nextKey = s.nextKey := rfl
@[simp] theorem State.spent_mem (s : State) : s.spent.mem = s.mem := rfl
@[simp] theorem State.spent_marks (s : State) : s.spent.marks = s.marks := rfl
@[simp] theorem State.spent_parts (s : State) : s.spent.parts = s.parts := rfl
@[simp] theorem State.spent_wcount (s : State) : s.spent.wcount = s.wcount := rfl
@[simp] theorem State.spent_tlb (s : State) : s.spent.tlb = s.tlb := rfl
@[simp] theorem State.spent_dieA (s : State) : s.spent.dieA = s.dieA := rfl
@[simp] theorem State.spent_dieB (s : State) : s.spent.dieB = s.dieB := rfl
@[simp] theorem State.spent_dieC (s : State) : s.spent.dieC = s.dieC := rfl
@[simp] theorem State.spent_sparges (s : State) : s.spent.sparges = s.sparges := rfl
@[simp] theorem State.spent_spoilt (s : State) : s.spent.spoilt = s.spoilt := rfl
@[simp] theorem State.spent_links (s : State) : s.spent.links = s.links := rfl
@[simp] theorem State.spent_arbiters (s : State) : s.spent.arbiters = s.arbiters := rfl
@[simp] theorem State.spent_reply (s : State) : s.spent.reply = s.reply := rfl
@[simp] theorem State.spent_tick (s : State) : s.spent.tick = s.tick := rfl
@[simp] theorem State.spent_fresh (s : State) : s.spent.fresh = s.fresh + 1 := rfl
@[simp] theorem State.spent_pace (s : State) : s.spent.pace = s.pace := rfl
@[simp] theorem State.spent_strikes (s : State) : s.spent.strikes = s.strikes := rfl
@[simp] theorem State.spent_agenda (s : State) : s.spent.agenda = s.agenda := rfl
@[simp] theorem State.spent_unit (s : State) : s.spent.unit = s.unit := rfl

/-! ### mapGroups -/

@[simp] theorem State.mapGroups_groups (s : State) (f : Nat → Group → Group) : (s.mapGroups f).groups = fmapVals f s.groups := rfl
@[simp] theorem State.mapGroups_teams (s : State) (f : Nat → Group → Group) : (s.mapGroups f).teams = s.teams := rfl
@[simp] theorem State.mapGroups_cores (s : State) (f : Nat → Group → Group) : (s.mapGroups f).cores = s.cores := rfl
@[simp] theorem State.mapGroups_execs (s : State) (f : Nat → Group → Group) : (s.mapGroups f).execs = s.execs := rfl
@[simp] theorem State.mapGroups_nextKey (s : State) (f : Nat → Group → Group) : (s.mapGroups f).nextKey = s.nextKey := rfl
@[simp] theorem State.mapGroups_mem (s : State) (f : Nat → Group → Group) : (s.mapGroups f).mem = s.mem := rfl
@[simp] theorem State.mapGroups_marks (s : State) (f : Nat → Group → Group) : (s.mapGroups f).marks = s.marks := rfl
@[simp] theorem State.mapGroups_parts (s : State) (f : Nat → Group → Group) : (s.mapGroups f).parts = s.parts := rfl
@[simp] theorem State.mapGroups_wcount (s : State) (f : Nat → Group → Group) : (s.mapGroups f).wcount = s.wcount := rfl
@[simp] theorem State.mapGroups_tlb (s : State) (f : Nat → Group → Group) : (s.mapGroups f).tlb = s.tlb := rfl
@[simp] theorem State.mapGroups_dieA (s : State) (f : Nat → Group → Group) : (s.mapGroups f).dieA = s.dieA := rfl
@[simp] theorem State.mapGroups_dieB (s : State) (f : Nat → Group → Group) : (s.mapGroups f).dieB = s.dieB := rfl
@[simp] theorem State.mapGroups_dieC (s : State) (f : Nat → Group → Group) : (s.mapGroups f).dieC = s.dieC := rfl
@[simp] theorem State.mapGroups_sparges (s : State) (f : Nat → Group → Group) : (s.mapGroups f).sparges = s.sparges := rfl
@[simp] theorem State.mapGroups_spoilt (s : State) (f : Nat → Group → Group) : (s.mapGroups f).spoilt = s.spoilt := rfl
@[simp] theorem State.mapGroups_links (s : State) (f : Nat → Group → Group) : (s.mapGroups f).links = s.links := rfl
@[simp] theorem State.mapGroups_arbiters (s : State) (f : Nat → Group → Group) : (s.mapGroups f).arbiters = s.arbiters := rfl
@[simp] theorem State.mapGroups_reply (s : State) (f : Nat → Group → Group) : (s.mapGroups f).reply = s.reply := rfl
@[simp] theorem State.mapGroups_tick (s : State) (f : Nat → Group → Group) : (s.mapGroups f).tick = s.tick := rfl
@[simp] theorem State.mapGroups_fresh (s : State) (f : Nat → Group → Group) : (s.mapGroups f).fresh = s.fresh := rfl
@[simp] theorem State.mapGroups_pace (s : State) (f : Nat → Group → Group) : (s.mapGroups f).pace = s.pace := rfl
@[simp] theorem State.mapGroups_strikes (s : State) (f : Nat → Group → Group) : (s.mapGroups f).strikes = s.strikes := rfl
@[simp] theorem State.mapGroups_agenda (s : State) (f : Nat → Group → Group) : (s.mapGroups f).agenda = s.agenda := rfl
@[simp] theorem State.mapGroups_unit (s : State) (f : Nat → Group → Group) : (s.mapGroups f).unit = s.unit := rfl

/-! ### onSparge -/

@[simp] theorem State.onSparge_groups (s : State) (n : Nat) (f : Sparge → Sparge) : (s.onSparge n f).groups = s.groups := rfl
@[simp] theorem State.onSparge_teams (s : State) (n : Nat) (f : Sparge → Sparge) : (s.onSparge n f).teams = s.teams := rfl
@[simp] theorem State.onSparge_cores (s : State) (n : Nat) (f : Sparge → Sparge) : (s.onSparge n f).cores = s.cores := rfl
@[simp] theorem State.onSparge_execs (s : State) (n : Nat) (f : Sparge → Sparge) : (s.onSparge n f).execs = s.execs := rfl
@[simp] theorem State.onSparge_nextKey (s : State) (n : Nat) (f : Sparge → Sparge) : (s.onSparge n f).nextKey = s.nextKey := rfl
@[simp] theorem State.onSparge_mem (s : State) (n : Nat) (f : Sparge → Sparge) : (s.onSparge n f).mem = s.mem := rfl
@[simp] theorem State.onSparge_marks (s : State) (n : Nat) (f : Sparge → Sparge) : (s.onSparge n f).marks = s.marks := rfl
@[simp] theorem State.onSparge_parts (s : State) (n : Nat) (f : Sparge → Sparge) : (s.onSparge n f).parts = s.parts := rfl
@[simp] theorem State.onSparge_wcount (s : State) (n : Nat) (f : Sparge → Sparge) : (s.onSparge n f).wcount = s.wcount := rfl
@[simp] theorem State.onSparge_tlb (s : State) (n : Nat) (f : Sparge → Sparge) : (s.onSparge n f).tlb = s.tlb := rfl
@[simp] theorem State.onSparge_dieA (s : State) (n : Nat) (f : Sparge → Sparge) : (s.onSparge n f).dieA = s.dieA := rfl
@[simp] theorem State.onSparge_dieB (s : State) (n : Nat) (f : Sparge → Sparge) : (s.onSparge n f).dieB = s.dieB := rfl
@[simp] theorem State.onSparge_dieC (s : State) (n : Nat) (f : Sparge → Sparge) : (s.onSparge n f).dieC = s.dieC := rfl
@[simp] theorem State.onSparge_sparges (s : State) (n : Nat) (f : Sparge → Sparge) : (s.onSparge n f).sparges = fins s.sparges n (f (s.sparge n)) := rfl
@[simp] theorem State.onSparge_spoilt (s : State) (n : Nat) (f : Sparge → Sparge) : (s.onSparge n f).spoilt = s.spoilt := rfl
@[simp] theorem State.onSparge_links (s : State) (n : Nat) (f : Sparge → Sparge) : (s.onSparge n f).links = s.links := rfl
@[simp] theorem State.onSparge_arbiters (s : State) (n : Nat) (f : Sparge → Sparge) : (s.onSparge n f).arbiters = s.arbiters := rfl
@[simp] theorem State.onSparge_reply (s : State) (n : Nat) (f : Sparge → Sparge) : (s.onSparge n f).reply = s.reply := rfl
@[simp] theorem State.onSparge_tick (s : State) (n : Nat) (f : Sparge → Sparge) : (s.onSparge n f).tick = s.tick := rfl
@[simp] theorem State.onSparge_fresh (s : State) (n : Nat) (f : Sparge → Sparge) : (s.onSparge n f).fresh = s.fresh := rfl
@[simp] theorem State.onSparge_pace (s : State) (n : Nat) (f : Sparge → Sparge) : (s.onSparge n f).pace = s.pace := rfl
@[simp] theorem State.onSparge_strikes (s : State) (n : Nat) (f : Sparge → Sparge) : (s.onSparge n f).strikes = s.strikes := rfl
@[simp] theorem State.onSparge_agenda (s : State) (n : Nat) (f : Sparge → Sparge) : (s.onSparge n f).agenda = s.agenda := rfl
@[simp] theorem State.onSparge_unit (s : State) (n : Nat) (f : Sparge → Sparge) : (s.onSparge n f).unit = s.unit := rfl

/-! ### setDie, setPort -/

@[simp] theorem State.setDie_groups (s : State) (d : Nat) (x : Die) : (s.setDie d x).groups = s.groups := by unfold State.setDie; split <;> rfl
@[simp] theorem State.setDie_teams (s : State) (d : Nat) (x : Die) : (s.setDie d x).teams = s.teams := by unfold State.setDie; split <;> rfl
@[simp] theorem State.setDie_cores (s : State) (d : Nat) (x : Die) : (s.setDie d x).cores = s.cores := by unfold State.setDie; split <;> rfl
@[simp] theorem State.setDie_execs (s : State) (d : Nat) (x : Die) : (s.setDie d x).execs = s.execs := by unfold State.setDie; split <;> rfl
@[simp] theorem State.setDie_nextKey (s : State) (d : Nat) (x : Die) : (s.setDie d x).nextKey = s.nextKey := by unfold State.setDie; split <;> rfl
@[simp] theorem State.setDie_mem (s : State) (d : Nat) (x : Die) : (s.setDie d x).mem = s.mem := by unfold State.setDie; split <;> rfl
@[simp] theorem State.setDie_marks (s : State) (d : Nat) (x : Die) : (s.setDie d x).marks = s.marks := by unfold State.setDie; split <;> rfl
@[simp] theorem State.setDie_parts (s : State) (d : Nat) (x : Die) : (s.setDie d x).parts = s.parts := by unfold State.setDie; split <;> rfl
@[simp] theorem State.setDie_wcount (s : State) (d : Nat) (x : Die) : (s.setDie d x).wcount = s.wcount := by unfold State.setDie; split <;> rfl
@[simp] theorem State.setDie_tlb (s : State) (d : Nat) (x : Die) : (s.setDie d x).tlb = s.tlb := by unfold State.setDie; split <;> rfl
@[simp] theorem State.setDie_dieC (s : State) (d : Nat) (x : Die) : (s.setDie d x).dieC = s.dieC := by unfold State.setDie; split <;> rfl
@[simp] theorem State.setDie_sparges (s : State) (d : Nat) (x : Die) : (s.setDie d x).sparges = s.sparges := by unfold State.setDie; split <;> rfl
@[simp] theorem State.setDie_spoilt (s : State) (d : Nat) (x : Die) : (s.setDie d x).spoilt = s.spoilt := by unfold State.setDie; split <;> rfl
@[simp] theorem State.setDie_links (s : State) (d : Nat) (x : Die) : (s.setDie d x).links = s.links := by unfold State.setDie; split <;> rfl
@[simp] theorem State.setDie_arbiters (s : State) (d : Nat) (x : Die) : (s.setDie d x).arbiters = s.arbiters := by unfold State.setDie; split <;> rfl
@[simp] theorem State.setDie_reply (s : State) (d : Nat) (x : Die) : (s.setDie d x).reply = s.reply := by unfold State.setDie; split <;> rfl
@[simp] theorem State.setDie_tick (s : State) (d : Nat) (x : Die) : (s.setDie d x).tick = s.tick := by unfold State.setDie; split <;> rfl
@[simp] theorem State.setDie_fresh (s : State) (d : Nat) (x : Die) : (s.setDie d x).fresh = s.fresh := by unfold State.setDie; split <;> rfl
@[simp] theorem State.setDie_pace (s : State) (d : Nat) (x : Die) : (s.setDie d x).pace = s.pace := by unfold State.setDie; split <;> rfl
@[simp] theorem State.setDie_strikes (s : State) (d : Nat) (x : Die) : (s.setDie d x).strikes = s.strikes := by unfold State.setDie; split <;> rfl
@[simp] theorem State.setDie_agenda (s : State) (d : Nat) (x : Die) : (s.setDie d x).agenda = s.agenda := by unfold State.setDie; split <;> rfl
@[simp] theorem State.setDie_unit (s : State) (d : Nat) (x : Die) : (s.setDie d x).unit = s.unit := by unfold State.setDie; split <;> rfl
@[simp] theorem State.setPort_groups (s : State) (p : Nat) (x : Port) : (s.setPort p x).groups = s.groups := by unfold State.setPort; split <;> rfl
@[simp] theorem State.setPort_teams (s : State) (p : Nat) (x : Port) : (s.setPort p x).teams = s.teams := by unfold State.setPort; split <;> rfl
@[simp] theorem State.setPort_cores (s : State) (p : Nat) (x : Port) : (s.setPort p x).cores = s.cores := by unfold State.setPort; split <;> rfl
@[simp] theorem State.setPort_execs (s : State) (p : Nat) (x : Port) : (s.setPort p x).execs = s.execs := by unfold State.setPort; split <;> rfl
@[simp] theorem State.setPort_nextKey (s : State) (p : Nat) (x : Port) : (s.setPort p x).nextKey = s.nextKey := by unfold State.setPort; split <;> rfl
@[simp] theorem State.setPort_mem (s : State) (p : Nat) (x : Port) : (s.setPort p x).mem = s.mem := by unfold State.setPort; split <;> rfl
@[simp] theorem State.setPort_marks (s : State) (p : Nat) (x : Port) : (s.setPort p x).marks = s.marks := by unfold State.setPort; split <;> rfl
@[simp] theorem State.setPort_parts (s : State) (p : Nat) (x : Port) : (s.setPort p x).parts = s.parts := by unfold State.setPort; split <;> rfl
@[simp] theorem State.setPort_wcount (s : State) (p : Nat) (x : Port) : (s.setPort p x).wcount = s.wcount := by unfold State.setPort; split <;> rfl
@[simp] theorem State.setPort_tlb (s : State) (p : Nat) (x : Port) : (s.setPort p x).tlb = s.tlb := by unfold State.setPort; split <;> rfl
@[simp] theorem State.setPort_dieA (s : State) (p : Nat) (x : Port) : (s.setPort p x).dieA = s.dieA := by unfold State.setPort; split <;> rfl
@[simp] theorem State.setPort_dieB (s : State) (p : Nat) (x : Port) : (s.setPort p x).dieB = s.dieB := by unfold State.setPort; split <;> rfl
@[simp] theorem State.setPort_sparges (s : State) (p : Nat) (x : Port) : (s.setPort p x).sparges = s.sparges := by unfold State.setPort; split <;> rfl
@[simp] theorem State.setPort_spoilt (s : State) (p : Nat) (x : Port) : (s.setPort p x).spoilt = s.spoilt := by unfold State.setPort; split <;> rfl
@[simp] theorem State.setPort_links (s : State) (p : Nat) (x : Port) : (s.setPort p x).links = s.links := by unfold State.setPort; split <;> rfl
@[simp] theorem State.setPort_arbiters (s : State) (p : Nat) (x : Port) : (s.setPort p x).arbiters = s.arbiters := by unfold State.setPort; split <;> rfl
@[simp] theorem State.setPort_reply (s : State) (p : Nat) (x : Port) : (s.setPort p x).reply = s.reply := by unfold State.setPort; split <;> rfl
@[simp] theorem State.setPort_tick (s : State) (p : Nat) (x : Port) : (s.setPort p x).tick = s.tick := by unfold State.setPort; split <;> rfl
@[simp] theorem State.setPort_fresh (s : State) (p : Nat) (x : Port) : (s.setPort p x).fresh = s.fresh := by unfold State.setPort; split <;> rfl
@[simp] theorem State.setPort_pace (s : State) (p : Nat) (x : Port) : (s.setPort p x).pace = s.pace := by unfold State.setPort; split <;> rfl
@[simp] theorem State.setPort_strikes (s : State) (p : Nat) (x : Port) : (s.setPort p x).strikes = s.strikes := by unfold State.setPort; split <;> rfl
@[simp] theorem State.setPort_agenda (s : State) (p : Nat) (x : Port) : (s.setPort p x).agenda = s.agenda := by unfold State.setPort; split <;> rfl
@[simp] theorem State.setPort_unit (s : State) (p : Nat) (x : Port) : (s.setPort p x).unit = s.unit := by unfold State.setPort; split <;> rfl

/-! ### What is read after an update -/

theorem State.grp_setGrp (s : State) (k j : Nat) (g : Group) : (s.setGrp k g).grp j = if j = k then g else s.grp j := by
  simp only [State.grp, State.setGrp_groups, ffind_fins]; split <;> rfl

@[simp] theorem State.grp_setGrp_same (s : State) (k : Nat) (g : Group) : (s.setGrp k g).grp k = g := by simp [State.grp_setGrp]

theorem State.grp_setGrp_other (s : State) {k j : Nat} (h : j ≠ k) (g : Group) : (s.setGrp k g).grp j = s.grp j := by
  simp [State.grp_setGrp, h]

@[simp] theorem State.me_onMe (s : State) (f : Group → Group) : (s.onMe f).me = f s.me := by
  simp [State.onMe, State.setMe, State.me]

@[simp] theorem State.me_setMe (s : State) (g : Group) : (s.setMe g).me = g := by simp [State.setMe, State.me]

theorem State.grp_onMe_other (s : State) {j : Nat} (h : j ≠ s.unit.g) (f : Group → Group) : (s.onMe f).grp j = s.grp j := by
  simp [State.onMe, State.setMe, State.grp_setGrp, h]

theorem State.grp_onMe (s : State) (j : Nat) (f : Group → Group) : (s.onMe f).grp j = if j = s.unit.g then f s.me else s.grp j := by
  simp [State.onMe, State.setMe, State.grp_setGrp]

theorem State.team_setTeam (s : State) (k j : Nat) (t : Team) : (s.setTeam k t).team j = if j = k then t else s.team j := by
  simp only [State.team, State.setTeam_teams, ffind_fins]; split <;> rfl

theorem State.exec_setExec (s : State) (k j : Nat) (e : Exec) : (s.setExec k e).exec j = if j = k then e else s.exec j := by
  simp only [State.exec, State.setExec_execs, ffind_fins]; split <;> rfl

theorem State.core_setCore (s : State) (k j : Nat) (c : Core) : (s.setCore k c).core j = if j = k then c else s.core j := by
  simp only [State.core, State.setCore_cores, ffind_fins]; split <;> rfl

@[simp] theorem State.team_setGrp (s : State) (k j : Nat) (g : Group) : (s.setGrp k g).team j = s.team j := rfl
@[simp] theorem State.exec_setGrp (s : State) (k j : Nat) (g : Group) : (s.setGrp k g).exec j = s.exec j := rfl
@[simp] theorem State.core_setGrp (s : State) (k j : Nat) (g : Group) : (s.setGrp k g).core j = s.core j := rfl
@[simp] theorem State.byteAt_setGrp (s : State) (k a : Nat) (g : Group) : (s.setGrp k g).byteAt a = s.byteAt a := rfl
@[simp] theorem State.team_onMe (s : State) (j : Nat) (f : Group → Group) : (s.onMe f).team j = s.team j := rfl
@[simp] theorem State.exec_onMe (s : State) (j : Nat) (f : Group → Group) : (s.onMe f).exec j = s.exec j := rfl
@[simp] theorem State.core_onMe (s : State) (j : Nat) (f : Group → Group) : (s.onMe f).core j = s.core j := rfl
@[simp] theorem State.byteAt_onMe (s : State) (a : Nat) (f : Group → Group) : (s.onMe f).byteAt a = s.byteAt a := rfl
@[simp] theorem State.acts_onMe (s : State) (f : Group → Group) : (s.onMe f).acts = s.acts := rfl
@[simp] theorem State.pre_onMe (s : State) (f : Group → Group) : (s.onMe f).pre = s.pre := rfl
@[simp] theorem State.rv_onMe (s : State) (f : Group → Group) (i r : Nat) : (s.onMe f).rv i r = s.rv i r := rfl
@[simp] theorem State.rs_onMe (s : State) (f : Group → Group) (r : Nat) : (s.onMe f).rs r = s.rs r := rfl
@[simp] theorem State.rp_onMe (s : State) (f : Group → Group) (i r : Nat) : (s.onMe f).rp i r = s.rp i r := rfl

/-! ### Memory -/

/-- Changing bytes keeps the canonical form. -/
theorem State.poke_wf (s : State) (cs : List Host.Cell) (h : Memory.wf s.mem = true) : Memory.wf (s.poke cs).mem = true :=
  fwf_foldl_fset cs Prod.fst Prod.snd h

theorem State.reset_wf : Memory.wf State.reset.mem = true := rfl

end Sys2Proof.Machine
end

