-- ==== Sys2Proof/Laws/Registers.lean ====
section
/-!
SUPPORT.  Registers: what they hold after a write, at once or once the results on their way are written.
-/

namespace Sys2Proof.Machine

/-! ### Words bound for registers -/

/-- The last of a list of destinations with a key. -/
def lastDest : List Dest → Nat → Option Dest
  | [], _ => none
  | d :: ds, j => match lastDest ds j with
    | some e => some e
    | none => if d.key = j then some d else none

theorem lastDest_append (a b : List Dest) (j : Nat) :
    lastDest (a ++ b) j = match lastDest b j with | some e => some e | none => lastDest a j := by
  induction a with
  | nil => simp only [List.nil_append, lastDest]; cases lastDest b j <;> rfl
  | cons d a ih =>
    simp only [List.cons_append, lastDest, ih]
    cases lastDest b j <;> simp

theorem lastDest_eq_none {ds : List Dest} {j : Nat} (h : ∀ d ∈ ds, d.key ≠ j) : lastDest ds j = none := by
  induction ds with
  | nil => rfl
  | cons d ds ih =>
    simp only [lastDest, ih (fun e he => h e (List.mem_cons_of_mem _ he)), if_neg (h d List.mem_cons_self)]

theorem lastDest_eq_some {ds : List Dest} {d : Dest} (hd : d ∈ ds) (h : ∀ e ∈ ds, e.key = d.key → e = d) :
    lastDest ds d.key = some d := by
  induction ds with
  | nil => cases hd
  | cons e ds ih =>
    simp only [lastDest]
    by_cases hm : d ∈ ds
    · rw [ih hm (fun x hx => h x (List.mem_cons_of_mem _ hx))]
    · have he : e = d := by
        rcases List.mem_cons.1 hd with rfl | h'
        · rfl
        · exact absurd h' hm
      subst he
      rw [lastDest_eq_none (fun x hx hk => hm (h x (List.mem_cons_of_mem _ hx) hk ▸ hx))]
      simp

theorem lastDest_filter {ds : List Dest} {p : Dest → Bool} {j : Nat} (h : ∀ d ∈ ds, d.key = j → p d = true) :
    lastDest (ds.filter p) j = lastDest ds j := by
  induction ds with
  | nil => rfl
  | cons d ds ih =>
    have ih' := ih (fun e he => h e (List.mem_cons_of_mem _ he))
    simp only [List.filter_cons]
    split
    · simp only [lastDest, ih']
    · have hk : d.key ≠ j := fun hk => by simp_all
      simp only [lastDest, ih', if_neg hk]
      cases lastDest ds j <;> rfl

theorem fget_foldl_dest {α : Type} [DecidableEq α] (d0 : α) (f : Dest → α) (ds : List Dest) (m : FMap α) (j : Nat) :
    fget d0 (ds.foldl (fun m d => fset d0 m d.key (f d)) m) j
      = match lastDest ds j with | some d => f d | none => fget d0 m j := by
  induction ds generalizing m with
  | nil => rfl
  | cons d ds ih =>
    simp only [List.foldl_cons, ih, lastDest]
    cases hl : lastDest ds j with
    | some e => rfl
    | none =>
      simp only
      by_cases hk : d.key = j
      · subst hk; simp
      · simp [hk, fget_fset_other _ _ (Ne.symm hk)]

/-! ### Results on their way -/

/-- The words that pending results will write. -/
def dueDests (ls : List Look) : List Dest := ls.flatMap (fun l => if l.fault.isSome then [] else l.dests)

/-- The flags that pending results will set. -/
def dueFlags (ls : List Look) : Flags := ls.foldl (fun a l => if l.fault.isSome then a else a ||| l.flags) 0

theorem dueFlags_acc (ls : List Look) (x : Flags) :
    ls.foldl (fun a l => if l.fault.isSome then a else a ||| l.flags) x = x ||| dueFlags ls := by
  unfold dueFlags
  induction ls generalizing x with
  | nil => simp
  | cons l ls ih =>
    simp only [List.foldl_cons]
    rw [ih, ih (if l.fault.isSome then 0 else 0 ||| l.flags)]
    split
    · simp
    · simp [BitVec.or_assoc]

theorem Group.flush_aux (ls : List Look) (g : Group) :
    (ls.foldl (fun g l => if l.fault.isSome then g else (g.write l.dests).addFlags l.flags) g).v
        = (dueDests ls).foldl (fun m d => fset 0 m d.key d.val) g.v ∧
    (ls.foldl (fun g l => if l.fault.isSome then g else (g.write l.dests).addFlags l.flags) g).vp
        = (dueDests ls).foldl (fun m d => fset false m d.key d.poison) g.vp ∧
    (ls.foldl (fun g l => if l.fault.isSome then g else (g.write l.dests).addFlags l.flags) g).csr
        = { g.csr with flags := g.csr.flags ||| dueFlags ls } := by
  induction ls generalizing g with
  | nil => simp [dueDests, dueFlags]
  | cons l ls ih =>
    simp only [List.foldl_cons]
    obtain ⟨h1, h2, h3⟩ := ih (if l.fault.isSome then g else (g.write l.dests).addFlags l.flags)
    rw [h1, h2, h3]
    have hf : dueFlags (l :: ls) = (if l.fault.isSome then 0 else l.flags) ||| dueFlags ls := by
      conv_lhs => unfold dueFlags
      simp only [List.foldl_cons]
      rw [dueFlags_acc]
      split <;> simp
    have hp : dueDests (l :: ls) = (if l.fault.isSome then [] else l.dests) ++ dueDests ls := by simp [dueDests]
    rw [hf, hp]
    split
    · simp
    · simp [Group.write, Group.addFlags, BitVec.or_assoc]

theorem Group.flush_v (g : Group) : g.flushLooks.v = (dueDests g.looks).foldl (fun m d => fset 0 m d.key d.val) g.v :=
  (Group.flush_aux g.looks _).1

theorem Group.flush_vp (g : Group) : g.flushLooks.vp = (dueDests g.looks).foldl (fun m d => fset false m d.key d.poison) g.vp :=
  (Group.flush_aux g.looks _).2.1

theorem Group.flush_flags (g : Group) : g.flushLooks.csr.flags = g.csr.flags ||| dueFlags g.looks := by
  have := (Group.flush_aux g.looks { g with looks := g.looks.filter (fun l => l.fault.isSome) }).2.2
  simp only [Group.flushLooks]; rw [this]

theorem Group.flush_getV (g : Group) (i r : Nat) :
    g.flushLooks.getV i r = match lastDest (dueDests g.looks) (vkey i r) with | some d => d.val | none => g.getV i r := by
  simp only [Group.getV, Group.flush_v, fget_foldl_dest]

theorem Group.flush_vPoison (g : Group) (i r : Nat) :
    g.flushLooks.vPoison i r = match lastDest (dueDests g.looks) (vkey i r) with | some d => d.poison | none => g.vPoison i r := by
  simp only [Group.vPoison, Group.flush_vp, fget_foldl_dest]

theorem dueDests_append (a b : List Look) : dueDests (a ++ b) = dueDests a ++ dueDests b := by simp [dueDests]

theorem dueDests_drop (ls : List Look) (keys : List Nat) :
    dueDests (ls.map (Look.drop keys)) = (dueDests ls).filter (fun d => !keys.contains d.key) := by
  induction ls with
  | nil => rfl
  | cons l ls ih =>
    simp only [dueDests, List.map_cons, List.flatMap_cons] at ih ⊢
    rw [ih, List.filter_append]
    congr 1
    cases hf : l.fault <;> simp [Look.drop, hf]

theorem dueFlags_drop (ls : List Look) (keys : List Nat) : dueFlags (ls.map (Look.drop keys)) = dueFlags ls := by
  simp only [dueFlags, List.foldl_map]; rfl

theorem dueFlags_append (a : List Look) (l : Look) (h : l.fault = none) :
    dueFlags (a ++ [l]) = dueFlags a ||| l.flags := by
  simp [dueFlags, h]

/-- What the pending words of a key are after the words for other keys, or for this one, were dropped. -/
theorem lastDest_dropped (ls : List Look) (keys : List Nat) (j : Nat) :
    lastDest (dueDests (ls.map (Look.drop keys))) j = if keys.contains j then none else lastDest (dueDests ls) j := by
  rw [dueDests_drop]
  split
  · apply lastDest_eq_none
    intro d hd hk
    subst hk
    simp_all
  · apply lastDest_filter
    intro d _ hk
    subst hk
    simp_all

/-! ### Delivering a result -/

theorem vkey_inj {i j r q : Nat} (hr : r < 128) (hq : q < 128) (h : vkey i r = vkey j q) : i = j ∧ r = q := by
  unfold vkey at h; omega

theorem mem_destsAt {key : Nat} {ws : List Word} {d : Dest} (h : d ∈ destsAt key ws) :
    ∃ k, k < ws.length ∧ d = ⟨key + k, nth 0 ws k, false⟩ := by
  induction ws generalizing key with
  | nil => cases h
  | cons w ws ih =>
    rcases List.mem_cons.1 h with rfl | h'
    · exact ⟨0, by simp, by simp⟩
    · obtain ⟨k, hk, rfl⟩ := ih h'
      exact ⟨k + 1, by simpa using hk, by simp; omega⟩

theorem destsAt_mem {key : Nat} {ws : List Word} {k : Nat} (h : k < ws.length) : ⟨key + k, nth 0 ws k, false⟩ ∈ destsAt key ws := by
  induction ws generalizing key k with
  | nil => simp at h
  | cons w ws ih =>
    cases k with
    | zero => simp [destsAt]
    | succ k =>
      have := ih (key := key + 1) (k := k) (by simpa using h)
      simp only [destsAt, List.mem_cons, nth_succ]
      right
      rwa [show key + (k + 1) = key + 1 + k by omega]

theorem dests_some (s : State) (d n : Nat) (res : Nat → List Word) (hn : ∀ i ∈ s.acts, (res i).length = n) (hd : d + n ≤ 128)
    {i k : Nat} (hi : i ∈ s.acts) (hk : k < n) :
    lastDest (s.dests d res) (vkey i (d + k)) = some ⟨vkey i (d + k), nth 0 (res i) k, false⟩ := by
  have hm : (⟨vkey i (d + k), nth 0 (res i) k, false⟩ : Dest) ∈ s.dests d res := by
    refine List.mem_flatMap.2 ⟨i, hi, ?_⟩
    have := destsAt_mem (key := vkey i d) (ws := res i) (k := k) (by rw [hn i hi]; exact hk)
    rwa [show vkey i d + k = vkey i (d + k) by unfold vkey; omega] at this
  refine lastDest_eq_some (d := ⟨vkey i (d + k), nth 0 (res i) k, false⟩) hm (fun e he hek => ?_)
  obtain ⟨j, hj, he'⟩ := List.mem_flatMap.1 he
  obtain ⟨q, hq, rfl⟩ := mem_destsAt he'
  rw [hn j hj] at hq
  simp only [vkey] at hek
  have h := vkey_inj (i := j) (j := i) (r := d + q) (q := d + k) (by omega) (by omega) (by unfold vkey; omega)
  obtain ⟨rfl, hqk⟩ := h
  have : q = k := by omega
  subst this
  rw [show vkey j d + q = vkey j (d + q) by unfold vkey; omega]

theorem dests_none (s : State) (d n : Nat) (res : Nat → List Word) (hn : ∀ i ∈ s.acts, (res i).length = n) (hd : d + n ≤ 128)
    {i r : Nat} (hr : r < 128) (h : ¬(i ∈ s.acts ∧ d ≤ r ∧ r < d + n)) : lastDest (s.dests d res) (vkey i r) = none := by
  apply lastDest_eq_none
  intro e he hek
  obtain ⟨j, hj, he'⟩ := List.mem_flatMap.1 he
  obtain ⟨q, hq, rfl⟩ := mem_destsAt he'
  rw [hn j hj] at hq
  simp only [vkey] at hek
  have h' := vkey_inj (i := j) (j := i) (r := d + q) (q := r) (by omega) hr (by unfold vkey; omega)
  obtain ⟨rfl, hqk⟩ := h'
  exact h ⟨hj, by omega, by omega⟩

theorem lastDest_mem {ds : List Dest} {j : Nat} : (ds.map Dest.key).contains j = (lastDest ds j).isSome := by
  induction ds with
  | nil => rfl
  | cons d ds ih =>
    simp only [List.map_cons, List.contains_cons, ih, lastDest]
    cases lastDest ds j with
    | some e => simp
    | none =>
      by_cases h : d.key = j
      · subst h; simp
      · simp [h, Ne.symm h]

/-- A vector result at once. -/
theorem Group.write_getV (g : Group) (ds : List Dest) (i r : Nat) :
    (g.write ds).getV i r = match lastDest ds (vkey i r) with | some d => d.val | none => g.getV i r := by
  simp only [Group.getV, Group.write, fget_foldl_dest]

theorem Group.write_vPoison (g : Group) (ds : List Dest) (i r : Nat) :
    (g.write ds).vPoison i r = match lastDest ds (vkey i r) with | some d => d.poison | none => g.vPoison i r := by
  simp only [Group.vPoison, Group.write, fget_foldl_dest]

/-- What registers hold once all results are written, after a result was delivered: its words where it has them. -/
theorem deliver_getV (s : State) (la : Nat) (ds : List Dest) (fl : Flags) (i r : Nat) :
    (s.deliver la ds fl).me.flushLooks.getV i r
      = match lastDest ds (vkey i r) with | some d => d.val | none => s.me.flushLooks.getV i r := by
  simp only [State.deliver, State.me_onMe]
  rw [Group.flush_getV, Group.flush_getV]
  by_cases hla : la = 0
  · simp only [hla, if_true, Group.addFlags, Group.write, lastDest_dropped, lastDest_mem]
    cases hl : lastDest ds (vkey i r) with
    | some d => simp [Group.getV, fget_foldl_dest, hl]
    | none => simp [Group.getV, fget_foldl_dest, hl]
  · simp only [hla, if_false, dueDests_append, lastDest_append, lastDest_dropped, lastDest_mem]
    have hp : dueDests [(⟨ds, s.acts.map (fun i => (i, la)), fl, none⟩ : Look)] = ds := by simp [dueDests]
    rw [hp]
    cases hl : lastDest ds (vkey i r) with
    | some d => rfl
    | none => simp [Group.getV]

theorem deliver_vPoison (s : State) (la : Nat) (ds : List Dest) (fl : Flags) (i r : Nat) :
    (s.deliver la ds fl).me.flushLooks.vPoison i r
      = match lastDest ds (vkey i r) with | some d => d.poison | none => s.me.flushLooks.vPoison i r := by
  simp only [State.deliver, State.me_onMe]
  rw [Group.flush_vPoison, Group.flush_vPoison]
  by_cases hla : la = 0
  · simp only [hla, if_true, Group.addFlags, Group.write, lastDest_dropped, lastDest_mem]
    cases hl : lastDest ds (vkey i r) with
    | some d => simp [Group.vPoison, fget_foldl_dest, hl]
    | none => simp [Group.vPoison, fget_foldl_dest, hl]
  · simp only [hla, if_false, dueDests_append, lastDest_append, lastDest_dropped, lastDest_mem]
    have hp : dueDests [(⟨ds, s.acts.map (fun i => (i, la)), fl, none⟩ : Look)] = ds := by simp [dueDests]
    rw [hp]
    cases hl : lastDest ds (vkey i r) with
    | some d => rfl
    | none => simp [Group.vPoison]

theorem deliver_flags (s : State) (la : Nat) (ds : List Dest) (fl : Flags) :
    (s.deliver la ds fl).me.flushLooks.csr.flags = s.me.flushLooks.csr.flags ||| fl := by
  simp only [State.deliver, State.me_onMe, Group.flush_flags]
  split
  · simp only [Group.addFlags, Group.write, dueFlags_drop]
    rw [BitVec.or_assoc, BitVec.or_comm fl, ← BitVec.or_assoc]
  · rw [dueFlags_append _ _ rfl, dueFlags_drop, BitVec.or_assoc]

end Sys2Proof.Machine
end

