-- ==== Sys2Proof/Laws/Results.lean ====
section
/-!
SUPPORT.  The issue of a member, and the three ways to deliver a result: words in lanes, predicates, scalars.  Each lemma
says all that the operation does.
-/

namespace Sys2Proof.Machine

/-! ### The issue of a member -/

/-- A member whose checks all pass takes effect. -/
theorem issue_clear {n : Need} {chk : State → Nat → Option Cause} {la : Nat} {eff : State → State} {s : State}
    (h : s.clear n chk = true) : issue n chk la eff s = .next (eff (s.learn (expand n.ss))) := by
  simp only [State.clear, Bool.and_eq_true, Bool.not_eq_true', Option.isNone_iff_eq_none] at h
  simp [issue, h.1.1, h.1.2, h.2]

/-- A register beyond the budget: ILLEGAL_INSTR. -/
theorem issue_over {n : Need} {chk : State → Nat → Option Cause} {la : Nat} {eff : State → State} {s : State}
    (h : n.over s.pre.budget = true) : issue n chk la eff s = .next (s.raise s.illegal) := by
  simp [issue, h]

/-- A pending token among the sources: the unit waits. -/
theorem issue_token {n : Need} {chk : State → Nat → Option Cause} {la : Nat} {eff : State → State} {s : State} {r : Nat}
    (h : n.over s.pre.budget = false) (ht : s.tokenAt (expand n.ss) = some r) :
    issue n chk la eff s = .next (s.block (s.acts.map (fun i => (i, .token r)))) := by
  simp [issue, h, ht]

/-- A failed check. -/
theorem issue_stop {n : Need} {chk : State → Nat → Option Cause} {la : Nat} {eff : State → State} {s : State} {c : Cause}
    (h : n.over s.pre.budget = false) (ht : s.tokenAt (expand n.ss) = none) (hc : s.stopCause n (chk s) = some c) :
    issue n chk la eff s = .next (s.fail la c) := by
  simp [issue, h, ht, hc]

/-- An issue always answers a next state. -/
theorem issue_next (n : Need) (chk : State → Nat → Option Cause) (la : Nat) (eff : State → State) (s : State) :
    ∃ t, issue n chk la eff s = .next t := by
  unfold issue
  split
  · exact ⟨_, rfl⟩
  · split
    · exact ⟨_, rfl⟩
    · split <;> exact ⟨_, rfl⟩

/-! ### Reading a token's scalar -/

/-- The group, but for what it knows of completed commands. -/
structure Group.SameBut (g h : Group) : Prop where
  eq : h = { g with unread := h.unread, learnt := h.learnt, toldRsvs := h.toldRsvs }

theorem learn_me (s : State) (rs : List Nat) :
    (s.learn rs).me = { s.me with
      unread := (s.learn rs).me.unread, learnt := (s.learn rs).me.learnt, toldRsvs := (s.learn rs).me.toldRsvs } := by
  unfold State.learn
  split
  · simp
  · rfl

@[simp] theorem learn_unit (s : State) (rs : List Nat) : (s.learn rs).unit = s.unit := by
  unfold State.learn; split <;> rfl

theorem learn_only (s : State) (rs : List Nat) : OnlyGroup s (s.learn rs) := by
  unfold State.learn
  split
  · exact ⟨fun j hj => State.grp_onMe_other s hj _, fun _ => rfl, rfl⟩
  · exact ⟨fun _ _ => rfl, fun _ => rfl, rfl⟩

@[simp] theorem learn_pre (s : State) (rs : List Nat) : (s.learn rs).pre = s.pre := by simp [State.pre]
@[simp] theorem learn_acts (s : State) (rs : List Nat) : (s.learn rs).acts = s.acts := by simp [State.acts]
@[simp] theorem learn_lead (s : State) (rs : List Nat) : (s.learn rs).lead = s.lead := by simp [State.lead]
@[simp] theorem learn_rv (s : State) (rs : List Nat) (i r : Nat) : (s.learn rs).rv i r = s.rv i r := by simp [State.rv]
@[simp] theorem learn_rv2 (s : State) (rs : List Nat) (i r : Nat) : (s.learn rs).rv2 i r = s.rv2 i r := by simp [State.rv2]
@[simp] theorem learn_rs (s : State) (rs : List Nat) (r : Nat) : (s.learn rs).rs r = s.rs r := by simp [State.rs]
@[simp] theorem learn_rs2 (s : State) (rs : List Nat) (r : Nat) : (s.learn rs).rs2 r = s.rs2 r := by simp [State.rs2]
@[simp] theorem learn_rp (s : State) (rs : List Nat) (i r : Nat) : (s.learn rs).rp i r = s.rp i r := by simp [State.rp]
@[simp] theorem learn_rb (s : State) (rs : List Nat) (sc : Bool) (i r : Nat) : (s.learn rs).rb sc i r = s.rb sc i r := by
  simp [State.rb]

/-- A member that names no scalar source learns nothing. -/
@[simp] theorem learn_nil (s : State) : s.learn [] = s := by simp [State.learn]

/-! ### The trap that flags may raise -/

theorem fpTrap_eq (s : State) (fl : Nat → Flags) :
    s.fpTrap fl = { s with unit := { s.unit with after := (s.fpTrap fl).unit.after } } := by
  simp only [State.fpTrap]; split <;> rfl

@[simp] theorem fpTrap_me (s : State) (fl : Nat → Flags) : (s.fpTrap fl).me = s.me := by
  rw [fpTrap_eq]; rfl

theorem fpTrap_grp (s : State) (fl : Nat → Flags) (j : Nat) : (s.fpTrap fl).grp j = s.grp j := by
  rw [fpTrap_eq]; rfl

/-- The cause that flags leave depends on the unit alone. -/
theorem fpTrap_after {s t : State} (h : t.unit = s.unit) (fl : Nat → Flags) :
    (t.fpTrap fl).unit.after = (s.fpTrap fl).unit.after := by
  have hp : t.pre = s.pre := by simp [State.pre, h]
  have ha : t.acts = s.acts := by simp [State.acts, hp, h]
  have hl : t.lead = s.lead := by simp [State.lead, ha]
  simp only [State.fpTrap, hp, ha]
  split
  · rw [h]
  · simp [State.addAfter, State.afterCause, State.cause, h, hp]

theorem OnlyGroup.g_eq {s t : State} (h : OnlyGroup s t) : t.unit.g = s.unit.g := by rw [h.rest]

/-- A change of the group keeps what stays. -/
theorem OnlyGroup.onMe {s t : State} (h : OnlyGroup s t) (f : Group → Group) : OnlyGroup s (t.onMe f) where
  others j hj := by rw [State.grp_onMe_other _ (by rw [h.g_eq]; exact hj)]; exact h.others j hj
  memory a := h.memory a
  rest := congrArg (fun u : State => { u with groups := (t.onMe f).groups }) h.rest

theorem OnlyGroup.fpTrap {s t : State} (h : OnlyGroup s t) (fl : Nat → Flags) : OnlyGroup s (t.fpTrap fl) where
  others j hj := by rw [fpTrap_grp]; exact h.others j hj
  memory a := by rw [fpTrap_eq]; exact h.memory a
  rest := by
    refine (fpTrap_eq t fl).trans ?_
    have := congrArg (fun u : State => { u with unit := { u.unit with after := (t.fpTrap fl).unit.after } }) h.rest
    refine this.trans ?_
    have hg : (t.fpTrap fl).groups = t.groups := by rw [fpTrap_eq]
    rw [hg]

/-! ### Results in lanes -/

/-- A vector result, whatever the member read before. -/
theorem vecResult_spec (s : State) (rs : List Nat) (la d n : Nat) (res : Nat → List Word) (fl : Nat → Flags)
    (hn : ∀ i ∈ s.acts, (res i).length = n) (hd : d + n ≤ 128) :
    LaneResult s ((s.learn rs).vecResult la d res fl) la d n (fun i k => nth 0 (res i) k) fl := by
  have hme := learn_me s rs
  have hact : (s.learn rs).acts = s.acts := learn_acts s rs
  have hds : (s.learn rs).dests d res = s.dests d res := by simp [State.dests]
  have hv : ∀ i r, (s.learn rs).me.flushLooks.getV i r = s.me.flushLooks.getV i r := by
    intro i r; rw [Group.flush_getV, Group.flush_getV, hme]; rfl
  have hvp : ∀ i r, (s.learn rs).me.flushLooks.vPoison i r = s.me.flushLooks.vPoison i r := by
    intro i r; rw [Group.flush_vPoison, Group.flush_vPoison, hme]; rfl
  have hfl : (s.learn rs).me.flushLooks.csr.flags = s.me.flushLooks.csr.flags := by
    rw [Group.flush_flags, Group.flush_flags, hme]
  have hone := learn_only s rs
  refine ⟨?_, ?_, ?_, ?_, ?_, ?_, ?_, ?_⟩
  · intro i hi k hk
    simp only [State.vecResult, fpTrap_me, deliver_getV, deliver_vPoison, hds, dests_some s d n res hn hd hi hk]
    exact ⟨trivial, trivial⟩
  · intro i r hr hno
    simp only [State.vecResult, fpTrap_me, deliver_getV, deliver_vPoison, hds, dests_none s d n res hn hd hr hno]
    exact ⟨hv i r, hvp i r⟩
  · simp only [State.vecResult, fpTrap_me, deliver_flags, hact, hfl]
  · intro hla
    subst hla
    simp only [State.vecResult, fpTrap_me, State.deliver, if_true, State.me_onMe, hds]
    refine ⟨fun i hi k hk => ?_, fun i r hr hno => ?_, ?_⟩
    · have := Group.write_getV (s.learn rs).me (s.dests d res) i (d + k)
      rw [dests_some s d n res hn hd hi hk] at this
      exact this
    · have := Group.write_getV (s.learn rs).me (s.dests d res) i r
      rw [dests_none s d n res hn hd hr hno] at this
      refine Eq.trans this ?_
      simp only
      rw [hme]; rfl
    · simp only [Group.addFlags, Group.write, hact]
      rw [hme]
  · intro hla
    simp only [State.vecResult, fpTrap_me, State.deliver, if_neg hla, State.me_onMe]
    rw [hme]
    exact ⟨rfl, rfl, rfl⟩
  · simp only [State.vecResult, fpTrap_me, State.deliver, State.me_onMe]
    split
    · simp only [Group.addFlags, Group.write]
      rw [hme]
    · simp only
      rw [hme]
  · simp only [State.vecResult]
    exact fpTrap_after (by simp [State.deliver]) fl
  · exact (hone.onMe _).fpTrap fl

/-! ### Predicates -/

theorem Group.getP_putP (g : Group) (i j r q : Nat) (b : Bool) (hr : r < 8) (hq : q < 8) :
    (g.putP i r b).getP j q = if j = i ∧ q = r ∧ r ≠ 7 then b else g.getP j q := by
  unfold Group.putP
  split
  · subst_vars; simp
  · rename_i h7
    simp only [Group.getP]
    by_cases hq7 : q = 7
    · subst hq7
      have : ¬(j = i ∧ 7 = r ∧ r ≠ 7) := fun h => h7 h.2.1.symm
      simp [this]
    · simp only [hq7, if_false, fget_fset]
      by_cases h : 8 * j + q = 8 * i + r
      · have h1 : j = i := by omega
        have h2 : q = r := by omega
        subst h1; subst h2; simp [h7]
      · have : ¬(j = i ∧ q = r ∧ r ≠ 7) := fun ⟨h1, h2, _⟩ => h (by subst h1; subst h2; rfl)
        simp [h, this]

theorem Group.putP_eq (g : Group) (i r : Nat) (b : Bool) : g.putP i r b = { g with p := (g.putP i r b).p } := by
  unfold Group.putP; split <;> rfl

theorem putP_fold (ls : List Nat) (r : Nat) (f : Nat → Bool) (hr : r < 8) (g : Group) :
    (∀ j ∈ ls, r ≠ 7 → (ls.foldl (fun g i => g.putP i r (f i)) g).getP j r = f j) ∧
    (∀ j q, q < 8 → ¬(j ∈ ls ∧ q = r) → (ls.foldl (fun g i => g.putP i r (f i)) g).getP j q = g.getP j q) ∧
    ls.foldl (fun g i => g.putP i r (f i)) g = { g with p := (ls.foldl (fun g i => g.putP i r (f i)) g).p } := by
  induction ls generalizing g with
  | nil => simp
  | cons x ls ih =>
    obtain ⟨h1, h2, h3⟩ := ih (g.putP x r (f x))
    simp only [List.foldl_cons]
    refine ⟨fun j hj h7 => ?_, fun j q hq hno => ?_, ?_⟩
    · by_cases hm : j ∈ ls
      · exact h1 j hm h7
      · have hx : j = x := by rcases List.mem_cons.1 hj with h | h; exact h; exact absurd h hm
        rw [h2 j r hr (fun h => hm h.1), Group.getP_putP _ _ _ _ _ _ hr hr]
        simp [hx, h7]
    · rw [h2 j q hq (fun h => hno ⟨List.mem_cons_of_mem _ h.1, h.2⟩), Group.getP_putP _ _ _ _ _ _ hr hq]
      rw [if_neg (fun h => hno ⟨by rw [h.1]; exact List.mem_cons_self, h.2.1⟩)]
    · rw [h3, Group.putP_eq g x r (f x)]

/-- A predicate result and its flags, whatever the member read before. -/
theorem predResult_spec (s : State) (rs : List Nat) (p : Nat) (f : Nat → Bool) (fl : Nat → Flags) (hp : p < 8) :
    let t := ((s.learn rs).predResult p f).raiseFlags fl
    (∀ j ∈ s.acts, p ≠ 7 → t.me.getP j p = f j) ∧
    (∀ j q, q < 8 → ¬(j ∈ s.acts ∧ q = p) → t.me.getP j q = s.me.getP j q) ∧
    t.me.csr.flags = s.me.csr.flags ||| orFlags fl s.acts ∧
    t.me = { s.me with
      p := t.me.p, csr := { s.me.csr with flags := t.me.csr.flags }
      unread := t.me.unread, learnt := t.me.learnt, toldRsvs := t.me.toldRsvs } ∧
    t.unit.after = (s.fpTrap fl).unit.after ∧ OnlyGroup s t := by
  intro t
  have hme := learn_me s rs
  have hone := learn_only s rs
  obtain ⟨h1, h2, h3⟩ := putP_fold s.acts p f hp (s.learn rs).me
  have hg : t.me = (s.acts.foldl (fun g i => g.putP i p (f i)) (s.learn rs).me).addFlags (orFlags fl s.acts) := by
    simp [t, State.raiseFlags, State.predResult, State.acts, State.pre]
  refine ⟨fun j hj h7 => ?_, fun j q hq hno => ?_, ?_, ?_, ?_, ?_⟩
  · rw [hg]; exact h1 j hj h7
  · rw [hg]; exact (h2 j q hq hno).trans (by rw [hme]; rfl)
  · rw [hg, h3, hme]; rfl
  · rw [hg, h3, hme]; rfl
  · exact fpTrap_after (by simp [State.predResult]) fl
  · exact ((hone.onMe _).onMe _).fpTrap fl

/-- A predicate result without flags. -/
theorem predResult_noFlags (s : State) (p : Nat) (f : Nat → Bool) :
    (s.predResult p f).raiseFlags (fun _ => 0) = s.predResult p f := by
  have h0 : ∀ l : List Nat, orFlags (fun _ => 0) l = 0 := by
    intro l; unfold orFlags; induction l with
    | nil => rfl
    | cons x l ih => simpa only [List.foldl_cons, BitVec.or_self] using ih
  have h1 : ∀ t : State, t.fpTrap (fun _ => 0) = t := by
    intro t
    simp only [State.fpTrap]
    rw [h0]
    simp
  rw [State.raiseFlags, h1, h0]
  simp only [State.predResult, State.onMe, State.setMe, State.setGrp, Group.addFlags]
  congr 1
  simp [State.me, State.grp]
  rw [show ∀ (m : FMap Group) (k : Nat) (a b : Group), fins (fins m k a) k b = fins m k b from ?_]
  intro m k a b
  induction m with
  | nil => simp [fins]
  | cons e m ih =>
    obtain ⟨j, v⟩ := e
    simp only [fins]
    split
    · simp [fins]
    · split
      · simp [fins]
      · simp [fins, *]

/-! ### Scalars -/

theorem Group.getS_putS (g : Group) (r q : Nat) (w : Word) (b : Bool) :
    (g.putS r w b).getS q = if q = r ∧ r ≠ 127 then w else g.getS q := by
  unfold Group.putS
  split
  · subst_vars; simp
  · rename_i h
    simp only [Group.getS, fget_fset]
    by_cases hq : q = r
    · subst hq; simp [h]
    · simp [hq]

theorem Group.sPoison_putS (g : Group) (r q : Nat) (w : Word) (b : Bool) :
    (g.putS r w b).sPoison q = if q = r ∧ r ≠ 127 then b else g.sPoison q := by
  unfold Group.putS
  split
  · subst_vars; simp
  · rename_i h
    simp only [Group.sPoison, fget_fset]
    by_cases hq : q = r
    · subst hq; simp [h]
    · simp [hq]

theorem Group.putS_eq (g : Group) (r : Nat) (w : Word) (b : Bool) :
    g.putS r w b = { g with s := (g.putS r w b).s, sp := (g.putS r w b).sp, unread := (g.putS r w b).unread } := by
  unfold Group.putS; split <;> rfl

/-- A change of the group alone, after what the member read. -/
theorem onMe_only (s : State) (rs : List Nat) (f : Group → Group) : OnlyGroup s ((s.learn rs).onMe f) :=
  (learn_only s rs).onMe f

/-- A scalar result (R12, R16). -/
theorem putS_spec {i : Instr} {s : State} {rs : List Nat} {d : Nat} {w : Word}
    (h : exec i s = .next ((s.learn rs).putS d w)) : GivesScalar i s d 1 (fun _ => w) := by
  have hme := learn_me s rs
  refine ⟨_, h, ?_, ?_, ?_, ?_⟩
  · intro k hk h7
    have : k = 0 := by omega
    subst this
    simp only [State.putS, State.me_onMe, Group.getS_putS, Group.sPoison_putS, Nat.add_zero] at h7 ⊢
    simp [h7]
  · intro r hr
    have hne : r ≠ d := by omega
    simp only [State.putS, State.me_onMe, Group.getS_putS, Group.sPoison_putS, hne, false_and, if_false]
    rw [hme]; exact ⟨rfl, rfl⟩
  · simp only [State.putS, State.me_onMe]
    rw [Group.putS_eq, hme]
  · exact onMe_only s rs _

/-- A scalar pair's result. -/
theorem putS2_spec {i : Instr} {s : State} {rs : List Nat} {d : Nat} {x : Dword}
    (h : exec i s = .next ((s.learn rs).putS2 d x)) :
    GivesScalar i s d 2 (fun k => if k = 0 then pairLo x else pairHi x) := by
  have hme := learn_me s rs
  refine ⟨_, h, ?_, ?_, ?_, ?_⟩
  · intro k hk h7
    simp only [State.putS2, State.me_onMe, Group.getS_putS, Group.sPoison_putS]
    have : k = 0 ∨ k = 1 := by omega
    rcases this with rfl | rfl
    · simp only [Nat.add_zero] at h7
      have : ¬(d = d + 1 ∧ d + 1 ≠ 127) := by omega
      simp [h7]
    · simp only [true_and]
      simp [h7]
  · intro r hr
    have h1 : r ≠ d := by omega
    have h2 : r ≠ d + 1 := by omega
    simp only [State.putS2, State.me_onMe, Group.getS_putS, Group.sPoison_putS, h1, h2, false_and, if_false]
    rw [hme]; exact ⟨rfl, rfl⟩
  · simp only [State.putS2, State.me_onMe]
    rw [Group.putS_eq, Group.putS_eq (s.learn rs).me, hme]
  · exact onMe_only s rs _

end Sys2Proof.Machine
end

