-- ==== Sys2Proof/Laws/Shapes.lean ====
section
/-!
SUPPORT.  The instruction shapes: for each, the one lemma that says what a member of that shape does when its checks pass.
-/

namespace Sys2Proof.Machine

theorem LaneResult.congr {s t : State} {la d n : Nat} {f f' : Nat → Nat → Word} {fl : Nat → Flags}
    (h : LaneResult s t la d n f fl) (hf : ∀ i k, k < n → f i k = f' i k) : LaneResult s t la d n f' fl where
  written i hi k hk := by rw [← hf i k hk]; exact h.written i hi k hk
  kept := h.kept
  flags := h.flags
  now hla := ⟨fun i hi k hk => by rw [← hf i k hk]; exact (h.now hla).1 i hi k hk, (h.now hla).2⟩
  later := h.later
  group := h.group
  after := h.after
  only := h.only

/-- An instruction that ends in a vector result. -/
theorem gives_of_vec {i : Instr} {s : State} {rs : List Nat} {la d n : Nat} {res : Nat → List Word} {fl : Nat → Flags}
    {f : Nat → Nat → Word} (h : exec i s = .next ((s.learn rs).vecResult la d res fl))
    (hn : ∀ j, (res j).length = n) (hd : d + n ≤ 128) (hf : ∀ j k, k < n → nth 0 (res j) k = f j k) :
    Gives i s la d n f fl :=
  ⟨_, h, (vecResult_spec s rs la d n res fl (fun j _ => hn j) hd).congr hf⟩

theorem nth_single {w : Word} {k : Nat} (h : k < 1) : nth 0 [w] k = w := by
  obtain rfl : k = 0 := by omega
  rfl

theorem reg_lt (r : Reg) : r.toNat + 1 ≤ 128 := r.isLt

/-- A three-register vector instruction (R85). -/
theorem lane3_gives {i : Instr} {s : State} {c sc : Bool} {d a b : Reg} {f : Word → Word → Word → Word × Flags}
    (hi : exec i s = lane3 c sc d a b f s) (h : s.clear (need3 c sc d.toNat a.toNat b.toNat) noCheck = true) :
    Gives i s 0 d.toNat 1 (fun j _ => (f (s.rv j a.toNat) (s.rb sc j b.toNat) (s.rv j d.toNat)).1)
      (fun j => (f (s.rv j a.toNat) (s.rb sc j b.toNat) (s.rv j d.toNat)).2) := by
  have := hi.trans (issue_clear h)
  simp only [learn_rv, learn_rb] at this
  exact gives_of_vec this (fun _ => rfl) (reg_lt d) (fun _ _ hk => nth_single hk)

/-- The same for a function without flags. -/
theorem lane2_gives {i : Instr} {s : State} {sc : Bool} {d a b : Reg} {f : Word → Word → Word}
    (hi : exec i s = lane2 sc d a b f s) (h : s.clear (need3 false sc d.toNat a.toNat b.toNat) noCheck = true) :
    GivesWord i s d (fun j => f (s.rv j a.toNat) (s.rb sc j b.toNat)) := lane3_gives hi h

/-- A unary vector instruction (R85, R87). -/
theorem lane1_gives {i : Instr} {s : State} {la : La} {d a : Reg} {f : State → Word → Word × Flags}
    (hf : ∀ rs w, f (s.learn rs) w = f s w)
    (hi : exec i s = lane1 la d a f s) (h : s.clear (need2 d.toNat a.toNat) noCheck = true) :
    Gives i s la.toNat d.toNat 1 (fun j _ => (f s (s.rv j a.toNat)).1) (fun j => (f s (s.rv j a.toNat)).2) := by
  have := hi.trans (issue_clear h)
  simp only [learn_rv, hf] at this
  exact gives_of_vec this (fun _ => rfl) (reg_lt d) (fun _ _ hk => nth_single hk)

/-- An immediate instruction (R93, R94). -/
theorem laneImm_gives {i : Instr} {s : State} {d a : Reg} {f : Word → Word}
    (hi : exec i s = laneImm d a f s) (h : s.clear (need2 d.toNat a.toNat) noCheck = true) :
    GivesWord i s d (fun j => f (s.rv j a.toNat)) := lane1_gives (fun _ _ => rfl) hi h

/-- The words of a 64-bit result, by place. -/
theorem nth_pairWords (x : Dword) (k : Nat) (hk : k < 2) : nth 0 (pairWords x) k = if k = 0 then pairLo x else pairHi x := by
  obtain rfl | rfl : k = 0 ∨ k = 1 := by omega
  · rfl
  · rfl

/-- A vector instruction on pairs (R89). -/
theorem lanePair_gives {i : Instr} {s : State} {sc : Bool} {d a b : Reg} {f : Dword → Dword → Dword} (he : d.toNat % 2 = 0)
    (hi : exec i s = lanePair sc d a b f s) (h : s.clear (needPair sc true d.toNat a.toNat b.toNat) noCheck = true) :
    Gives i s 0 d.toNat 2
      (fun j k =>
        let x := f (s.rv2 j a.toNat) (if sc then s.rs2 b.toNat else s.rv2 j b.toNat)
        if k = 0 then pairLo x else pairHi x) (fun _ => 0) := by
  have := hi.trans (issue_clear h)
  simp only [learn_rv2, learn_rs2] at this
  exact gives_of_vec this (fun _ => rfl) (by have := d.isLt; omega) (fun j k hk => nth_pairWords _ k hk)

/-- LEAk (R89). -/
theorem laneLea_gives {i : Instr} {s : State} {sc : Bool} {k : Nat} {d a b : Reg} (he : d.toNat % 2 = 0)
    (hi : exec i s = laneLea sc k d a b s) (h : s.clear (needPair sc false d.toNat a.toNat b.toNat) noCheck = true) :
    Gives i s 0 d.toNat 2
      (fun j q =>
        let x := aluLea k (s.rv2 j a.toNat) (s.rb sc j b.toNat)
        if q = 0 then pairLo x else pairHi x) (fun _ => 0) := by
  have := hi.trans (issue_clear h)
  simp only [learn_rv2, learn_rb] at this
  exact gives_of_vec this (fun _ => rfl) (by have := d.isLt; omega) (fun j k hk => nth_pairWords _ k hk)

/-- A compare (R92, R103). -/
theorem laneCmp_gives {i : Instr} {s : State} {sc : Bool} {d : Pred} {a b : Reg} {f : Word → Word → Bool × Flags}
    (hi : exec i s = laneCmp sc d a b f s) (h : s.clear (needCmp sc a.toNat b.toNat) noCheck = true) :
    GivesPred i s d.toNat (fun j => (f (s.rv j a.toNat) (s.rb sc j b.toNat)).1)
      (fun j => (f (s.rv j a.toNat) (s.rb sc j b.toNat)).2) := by
  have := hi.trans (issue_clear h)
  simp only [learn_rv, learn_rb] at this
  exact ⟨_, this, predResult_spec s _ d.toNat _ _ d.isLt⟩

/-- A predicate result without a check of its own (R141). -/
theorem gives_of_pred {i : Instr} {s : State} {n : Need} {chk : State → Nat → Option Cause} {d : Pred} {f : State → Nat → Bool}
    (hf : ∀ rs j, f (s.learn rs) j = f s j)
    (hi : exec i s = issue n chk 0 (fun s => s.predResult d.toNat (f s)) s) (h : s.clear n chk = true) :
    GivesPred i s d.toNat (f s) (fun _ => 0) := by
  have := hi.trans (issue_clear h)
  rw [show f (s.learn (expand n.ss)) = f s from funext (hf _), ← predResult_noFlags] at this
  exact ⟨_, this, predResult_spec s _ d.toNat _ _ d.isLt⟩

/-- A scalar result (R16). -/
theorem gives_of_putS {i : Instr} {s : State} {n : Need} {chk : State → Nat → Option Cause} {d : Nat} {f : State → Word}
    (hf : ∀ rs, f (s.learn rs) = f s)
    (hi : exec i s = issue n chk 0 (fun s => s.putS d (f s)) s) (h : s.clear n chk = true) :
    GivesScalar i s d 1 (fun _ => f s) := by
  have := hi.trans (issue_clear h)
  rw [hf] at this
  exact putS_spec this

/-- A scalar pair's result. -/
theorem gives_of_putS2 {i : Instr} {s : State} {n : Need} {chk : State → Nat → Option Cause} {d : Nat} {f : State → Dword}
    (hf : ∀ rs, f (s.learn rs) = f s)
    (hi : exec i s = issue n chk 0 (fun s => s.putS2 d (f s)) s) (h : s.clear n chk = true) :
    GivesScalar i s d 2 (fun k => if k = 0 then pairLo (f s) else pairHi (f s)) := by
  have := hi.trans (issue_clear h)
  rw [hf] at this
  exact putS2_spec this

/-- A vector result of one word. -/
theorem gives_of_word {i : Instr} {s : State} {n : Need} {chk : State → Nat → Option Cause} {la : La} {d : Reg}
    {f : State → Nat → Word} {fl : State → Nat → Flags}
    (hf : ∀ rs, f (s.learn rs) = f s ∧ fl (s.learn rs) = fl s)
    (hi : exec i s = issue n chk la.toNat (fun s => s.vecResult la.toNat d.toNat (fun j => [f s j]) (fl s)) s)
    (h : s.clear n chk = true) :
    Gives i s la.toNat d.toNat 1 (fun j _ => f s j) (fl s) := by
  have := hi.trans (issue_clear h)
  rw [(hf _).1, (hf _).2] at this
  exact gives_of_vec this (fun _ => rfl) (reg_lt d) (fun _ _ hk => nth_single hk)

end Sys2Proof.Machine
end

