-- ==== Sys2Proof/Laws/Texture.lean ====
section
/-!
SUPPORT.  A sample that does not stop has four channels, whatever the filter (R245, R247).
-/

namespace Sys2Proof.Machine

/-- Four channels, unless the sample stopped. -/
def Sample.full (x : Sample) : Prop := x.ended = none → x.ch.length = 4

theorem Sample.full_stop (e : TexEnd) : (Sample.stop e).full := fun h => nomatch h
theorem Sample.full_of {l : List Word} (h : l.length = 4) : (Sample.of l).full := fun _ => h

theorem Sample.full_map (f : Word → Word) (x : Sample) : (x.map (map4 f)).full := fun _ => by simp [Sample.map, map4]

theorem Sample.full_both {a b : Sample} (f : Word → Word → Word) : (Sample.both (zip4 f) a b).full := by
  intro h
  unfold Sample.both at h ⊢
  split
  · rename_i ha
    simp [ha] at h
    simp [h] at ha
  · simp [zip4]

theorem nearest_full (s : State) (j : SmpJob) (k : Nat) (u v : Frac) : (s.nearest j k u v).full := by
  unfold State.nearest
  split
  · exact Sample.full_map _ _
  all_goals exact Sample.full_stop _

theorem bilinear_full (s : State) (j : SmpJob) (k : Nat) (u v : Frac) : (s.bilinear j k u v).full := by
  unfold State.bilinear
  split
  · exact Sample.full_both _
  all_goals exact Sample.full_stop _

theorem trilinear_full (s : State) (j : SmpJob) (k f : Nat) (u v : Frac) : (s.trilinear j k f u v).full := by
  unfold State.trilinear
  split
  · exact bilinear_full s j k u v
  · exact Sample.full_both _

theorem sample_full (s : State) (o : SmpOp) (fl : Floors) (space : Nat) (seg : Segs) (d : Desc) (w : List Word) :
    (s.sample o fl space seg d w).full := by
  unfold State.sample
  dsimp only
  split
  · split
    · exact nearest_full _ _ _ _ _
    · exact bilinear_full _ _ _ _ _
    · exact trilinear_full _ _ _ _ _ _
    · split
      · exact trilinear_full _ _ _ _ _ _
      · exact Sample.full_map _ _
  all_goals exact Sample.full_of rfl

/-- A lane's sample gives four words, each with its mark. -/
theorem smpWords_length (s : State) (o : SmpOp) (a tid i : Nat) : (s.smpWords i (s.smpLane o a tid i)).length = 4 := by
  unfold State.smpWords
  split
  · rename_i h
    rw [Option.isNone_iff_eq_none] at h
    rw [List.length_map]
    exact sample_full s o _ _ _ _ _ h
  · simp

end Sys2Proof.Machine
end

