-- ==== Sys2Proof/Tests/Slice0.lean ====
section
/-! SUPPORT.  Tests of the model: words of the spec's encodings with the instructions they stand for, ill-formed terms that
the well-formedness check refuses, and states that meet the statements' hypotheses. -/

namespace Sys2Proof.Tests

open Sys2Proof Sys2Proof.Machine

noncomputable section

/-- The one-word instruction that a word decodes to, untied. -/
def one (w : Word) : Option Instr :=
  match decodeWords [w] with
  | .ok d => if d.words = 1 ∧ d.tied = false then some d.instr else none
  | .error _ => none

/-- The two-word instruction that two words decode to, untied. -/
def two (p : Word × Word) : Option Instr :=
  match decodeWords [p.1, p.2] with
  | .ok d => if d.words = 2 ∧ d.tied = false then some d.instr else none
  | .error _ => none

/-- A register group whose base is no multiple of its size is refused, first part (R35). -/
theorem test_flaw_base_1 : List.map Instr.flaw [
    .segld 2 0, .tlbinv 1 0, .icinv 1 0, .clock 1, .add64 1 0 0, .add64 0 1 0, .add64 0 0 1, .sub64 1 0 0, .sub64 0 1 0,
    .sub64 0 0 1, .lea0 1 0 0, .lea0 0 1 0, .lea1 1 0 0, .lea1 0 1 0, .lea2 1 0 0, .lea2 0 1 0, .lea3 1 0 0, .lea3 0 1 0,
    .add64S 1 0 0, .add64S 0 1 0, .add64S 0 0 1, .sub64S 1 0 0, .sub64S 0 1 0, .sub64S 0 0 1, .lea0S 1 0 0, .lea0S 0 1 0,
    .lea1S 1 0 0, .lea1S 0 1 0, .lea2S 1 0 0, .lea2S 0 1 0, .lea3S 1 0 0, .lea3S 0 1 0, .vbal 1 0, .sadd64 1 0 0] =
    List.replicate 34 (some .registerBase) := by
  rfl

/-- A register group whose base is no multiple of its size is refused, second part (R35). -/
theorem test_flaw_base_2 : List.map Instr.flaw [
    .sadd64 0 1 0, .sadd64 0 0 1, .qscale 0 0 16 .f16, .ldg 0 0 1 .b16 .rlx false, .ldg 0 2 0 .b16 .rlx false,
    .ldgi 0 0 1 .b16 false, .ldgi 0 2 0 .b16 false, .stg 0 1 .b16 .rlx false, .stg 2 0 .b16 .rlx false,
    .lds 0 2 0 .b16 false, .ldsWfull 0 2 0 .b16 false, .ldsWfullEmpty 0 2 0 .b16 false, .sts 2 0 .b16 false,
    .stsWefull 2 0 .b16 false, .stsSfull 2 0 .b16 false, .ldp 0 2 0 .b16 false, .stp 2 0 .b16 false, .ldk 0 0 1 .b16 false,
    .ldk 0 2 0 .b16 false, .atomAdd 0 0 1 0 .rlx false false, .atomAdd 0 1 0 0 .rlx true true,
    .atomAdd 0 0 0 1 .rlx true false, .atomAnd 0 0 1 0 .rlx false false, .atomAnd 0 1 0 0 .rlx true true,
    .atomAnd 0 0 0 1 .rlx true false, .atomOr 0 0 1 0 .rlx false false, .atomOr 0 1 0 0 .rlx true true,
    .atomOr 0 0 0 1 .rlx true false, .atomXor 0 0 1 0 .rlx false false, .atomXor 0 1 0 0 .rlx true true,
    .atomXor 0 0 0 1 .rlx true false, .atomMins 0 0 1 0 .rlx false false, .atomMins 0 1 0 0 .rlx true true,
    .atomMins 0 0 0 1 .rlx true false] =
    List.replicate 34 (some .registerBase) := by
  rfl

/-- A register group whose base is no multiple of its size is refused, third part (R35). -/
theorem test_flaw_base_3 : List.map Instr.flaw [
    .atomMaxs 0 0 1 0 .rlx false false, .atomMaxs 0 1 0 0 .rlx true true, .atomMaxs 0 0 0 1 .rlx true false,
    .atomMinn 0 0 1 0 .rlx false false, .atomMinn 0 1 0 0 .rlx true true, .atomMinn 0 0 0 1 .rlx true false,
    .atomMaxn 0 0 1 0 .rlx false false, .atomMaxn 0 1 0 0 .rlx true true, .atomMaxn 0 0 0 1 .rlx true false,
    .atomExch 0 0 1 0 .rlx false false, .atomExch 0 1 0 0 .rlx true true, .atomExch 0 0 0 1 .rlx true false,
    .atomFadd 0 0 1 0 .rlx false, .atomFadd 0 1 0 0 .rlx true, .atomBfadd2 0 0 1 0 .rlx false,
    .atomBfadd2 0 1 0 0 .rlx true, .atomMaxa 0 0 1 0 .rlx false, .atomMaxa 0 1 0 0 .rlx true,
    .atomCas 0 0 1 0 .rlx .rlx false false 0, .atomCas 0 1 0 0 .rlx .rlx true true 0,
    .atomCas 0 0 0 1 .rlx .rlx true false 0, .atomCas 0 0 0 0 .rlx .rlx true false 1, .redAdd .rlx false 1 0,
    .redAdd .rlx true 0 1, .redAnd .rlx false 1 0, .redAnd .rlx true 0 1, .redOr .rlx false 1 0, .redOr .rlx true 0 1,
    .redXor .rlx false 1 0, .redXor .rlx true 0 1, .redMins .rlx false 1 0, .redMins .rlx true 0 1, .redMaxs .rlx false 1 0,
    .redMaxs .rlx true 0 1] =
    List.replicate 34 (some .registerBase) := by
  rfl

/-- A register group whose base is no multiple of its size is refused, fourth part (R35). -/
theorem test_flaw_base_4 : List.map Instr.flaw [
    .redMinn .rlx false 1 0, .redMinn .rlx true 0 1, .redMaxn .rlx false 1 0, .redMaxn .rlx true 0 1, .redFadd .rlx 1 0,
    .redBfadd2 .rlx 1 0, .redMaxa .rlx 1 0, .tidset false 1 0, .qpush 0 4, .qpop 4 0 0, .qtry 4 0 0, .trace 0 4 0 0 0,
    .tracev 0 4 0 0 0, .tracerc 0 4 0 0 0, .ltwalk 0 4 0, .rsvUpd 4 0 0, .rsvUpd 0 4 0, .rsvMrg 4 0 0, .rsvMrg 0 4 0,
    .rsvNrm 4 0, .rsvClr 4, .rsvLd 0 4 0 .rlx, .rsvLd 0 0 1 .rlx, .rsvSt 4 0 .rlx, .rsvSt 0 1 .rlx,
    .smp 0 2 0 0 .aniso .r1 false .clamp, .smp 0 0 4 0 .aniso .r1 true .clamp] =
    List.replicate 27 (some .registerBase) := by
  rfl

/-- QCVT, QWIDEN and QSCALE: a position outside the word, a draw register without stochastic rounding, and E8M0 as an element
are refused (R113, R245). -/
theorem test_flaw_qcvt :
    (List.map Instr.flaw [
      .qcvt 0 0 0 0 .rne false .f16 2 0, .qcvt 0 0 0 0 .sr false .bf16 3 1, .qcvt 0 0 0 0 .rne false .s8 3 1,
      .qwiden 0 0 0 0 .rne false .bf16 2, .qscale 0 0 0 .e8m0] = List.replicate 5 (some .fieldsClash)) ∧
    (List.map Instr.flaw [
      .qcvt 0 0 0 0 .rne false .f16 1 0, .qcvt 0 0 0 0 .sr false .s4 3 1, .qwiden 0 0 0 0 .rne false .e4m3 3,
      .qscale 0 0 0 .s8] = List.replicate 4 none) := by
  constructor <;> rfl

/-- The tagged forms of LDS and STS take no size below four bytes (R162). -/
theorem test_flaw_tagged :
    (List.map Instr.flaw [
      .ldsWfull 0 0 0 .b2 false, .ldsWfullEmpty 0 0 0 .b1 false, .stsWefull 0 0 .b2 false, .stsSfull 0 0 .b1 false,
      .stsSempty 0 .b2 false] = List.replicate 5 (some .fieldsClash)) ∧
    (List.map Instr.flaw [
      .ldsWfull 0 0 0 .b4 false, .ldsWfullEmpty 0 0 0 .b8 false, .stsWefull 0 0 .b16 false, .stsSfull 0 0 .b32 false,
      .stsSempty 0 .b4 false] = List.replicate 5 none) := by
  constructor <;> rfl

/-- An atomic of eight bytes with a token has no room for its scalar pair at register 126 (R50). -/
theorem test_flaw_atom :
    (List.map Instr.flaw [
      .atomAdd 0 126 0 0 .rlx true true, .atomAnd 0 126 0 0 .rlx true true, .atomOr 0 126 0 0 .rlx true true,
      .atomXor 0 126 0 0 .rlx true true, .atomMins 0 126 0 0 .rlx true true, .atomMaxs 0 126 0 0 .rlx true true,
      .atomMinn 0 126 0 0 .rlx true true, .atomMaxn 0 126 0 0 .rlx true true, .atomExch 0 126 0 0 .rlx true true,
      .atomCas 0 126 0 0 .rlx .rlx true true 0] = List.replicate 10 (some .fieldsClash)) ∧
    (List.map Instr.flaw [
      .atomAdd 0 126 0 0 .rlx true false, .atomAdd 0 126 0 0 .rlx false true, .atomAdd 0 124 0 0 .rlx true true] =
      List.replicate 3 none) := by
  constructor <;> rfl

/-- A tensor command's rows must lie in the accumulator's 128 (R52); a ratio goes with the anisotropic filter alone (R55,
R282); a broadcast has no function (R429). -/
theorem test_flaw_engines :
    (List.map Instr.flaw [
      .tunMm 0 0 0 false 28 100 false false, .tunGmm 0 0 0 false 127 1 false false 0,
      .tunDrn 0 0 0 1 127 0, .tunZero 0 64 64, .tunBdiag 0 0 0 false 8 120 false, .smp 0 0 0 0 .trilin .r2 false .clamp,
      .coll 0 0 0 .bcast .fadd] =
      List.replicate 7 (some .fieldsClash)) ∧
    (List.map Instr.flaw [
      .tunMm 0 0 0 false 27 100 false false, .tunGmm 0 0 0 false 127 0 false false 0, .tunDrn 0 0 0 0 127 0, .tunZero 0 63 64,
      .tunBdiag 0 0 0 false 7 120 false, .smp 0 0 0 0 .aniso .r2 false .clamp, .coll 0 0 0 .bcast .add] =
      List.replicate 7 none) := by
  constructor <;> rfl

/-- The decoder refuses by name: a reserved major, a missing second word, bit 31 of a pair's first word, a field that must be
0, a register base, a reserved value, and fields that clash (R28, R35, R46, R47, R255, R258). -/
theorem test_decode_refuses :
    decodeWords [0x7A000000] = .error .reservedMajor ∧
    decodeWords [0x6A251335] = .error .truncated ∧
    decodeWords [0xEA251335, 0x00008000] = .error .pairBit31 ∧
    decodeWords [] = .error .truncated ∧
    decodeWords [0x00000001] = .error .fieldNotZero ∧
    decodeWords [0x00C00100] = .error .registerBase ∧
    decodeWords [0x00C00803] = .error .reservedValue ∧
    decodeWords [0x7688C460, 0x00080000] ≠ decodeWords [0x76881460, 0x00080000] := by
  decide

/-- The three words of the spec's chain: FMAC and LDG tied, then a branch (R34, R56). -/
theorem test_words_chain :
    decodeWords [0x8E610082] = .ok ⟨.fmac 4 1 2, true, 1⟩ ∧
    decodeWords [0xCE024A20] = .ok ⟨.ldg 0 9 20 .b4 .rlx false, true, 1⟩ ∧
    decodeWords [0x40E00000] = .ok ⟨.bra 0, false, 1⟩ := by
  decide

/-- Words that the spec writes beside an instruction's text (R29, R56, R88, R97, R99, R105, R109, R120,
R121, R122, R139). -/
theorem test_words_arithmetic : List.map one [
    0x00000000, 0x4E420A20, 0x0400C289, 0x2E1027FF, 0x1B614082, 0x3281C180, 0x3440C111, 0x38028082, 0x38C28082, 0x3A014200,
    0x3AC18200, 0x3A804200, 0x3E03050B, 0x3E23050B, 0x28140005] = [
    some .nop, some (.ldg 2 8 20 .b4 .rlx false), some (.addS 3 5 9), some (.saddi 4 4 0x7FF), some (.selS 3 5 1 2),
    some (.rcp 4 7 3), some (.cvtS32F32 2 3 2 .rtz), some (.dp4s8 10 1 2), some (.dp4e4 10 1 2), some (.t5pack 5 4),
    some (.tcnt 6 4), some (.t5chk 1 4), some (.rng 12 10 11), some (.rngf 12 10 11), some (.movi 5 5)] := by
  decide

/-- The same for control, cross-lane, memory and system words (R133, R137, R138, R141, R145, R146, R147,
R193, R255, R287, R290). -/
theorem test_words_control : List.map one [
    0x4C000000, 0x4C200000, 0x0100050C, 0x01200000, 0x1C404087, 0x1D050180, 0x3CE28180, 0x3D430205, 0x3D604380, 0x4A400202,
    0x4A600000, 0x61000A05, 0x00E04000] = [
    some (.exit 0), some (.exit 1), some (.icinv 10 12), some .isync, some (.pxor 1 1 7), some (.vbal 20 3),
    some (.redfadd 10 3), some (.cats 12 4 5), some (.elect 1 7), some (.xfence 4 .die), some .redflush,
    some (.redFadd .rlx 20 5), some .tlbinvAll] := by
  decide

/-- The same for the two-word instructions (R119, R176, R228, R241, R347, R361, R372, R429). -/
theorem test_words_pairs : List.map two [
    (0x360A2000, 0x10100000), (0x62188180, 0x20500000), (0x6C042000, 0x7F801800), (0x6E298000, 0x00800000),
    (0x76C01024, 0x00A00000), (0x76061050, 0x00000000), (0x76471854, 0x00000000), (0x76881460, 0x00080000)] = [
    some (.qscale 0 40 64 .e4m3), some (.tcopyWin 3 8 12 .none false 20), some (.trace 2 8 0xFF 0 3), some (.ltwalk 5 24 1),
    some (.launch 20 8 9), some (.sparge 6 8 20), some (.grist 7 12 21), some (.coll 8 10 24 .allred .fadd)] := by
  decide

/-- Words of MAJ 0x00 (R46, R34). -/
theorem test_decode_sys : List.map one [
    0x00000000, 0x00200055, 0x00400000, 0x00600800, 0x0082002A, 0x00A0082A, 0x00C00802, 0x00E0082A, 0x00E04000, 0x0100082A,
    0x01200000, 0x01400800, 0x01600000, 0x01820000, 0x01A0000A, 0x01C20000] = [
    some .nop, some (.trap 85), some .eret, some (.halt 16), some (.csrr 8 0x2A), some (.csrw 16 0x2A), some (.segld 16 2),
    some (.tlbinv 16 0x2A), some .tlbinvAll, some (.icinv 16 0x2A), some .isync, some (.sleep 16), some .yield,
    some (.flagrd 8), some (.flagclr 10), some (.clock 8)] := by
  rfl

/-- Words of MAJ 0x01 (R46, R34). -/
theorem test_decode_int : List.map one [
    0x02020818, 0x02220818, 0x02420818, 0x02620818, 0x02820818, 0x02A20818, 0x02C20818, 0x02E20818, 0x03020818, 0x03220818,
    0x03420818, 0x03620818, 0x03820818, 0x03A20818, 0x03C20818, 0x03E20818] = [
    some (.add 8 16 24), some (.sub 8 16 24), some (.mul 8 16 24), some (.mulhs 8 16 24), some (.mulhn 8 16 24),
    some (.mins 8 16 24), some (.maxs 8 16 24), some (.minn 8 16 24), some (.maxn 8 16 24), some (.and 8 16 24),
    some (.or 8 16 24), some (.xor 8 16 24), some (.andn 8 16 24), some (.shl 8 16 24), some (.shrn 8 16 24),
    some (.shrs 8 16 24)] := by
  rfl

/-- Words of MAJ 0x02 (R46, R34). -/
theorem test_decode_int_s : List.map one [
    0x04020818, 0x04220818, 0x04420818, 0x04620818, 0x04820818, 0x04A20818, 0x04C20818, 0x04E20818, 0x05020818, 0x05220818,
    0x05420818, 0x05620818, 0x05820818, 0x05A20818, 0x05C20818, 0x05E20818] = [
    some (.addS 8 16 24), some (.subS 8 16 24), some (.mulS 8 16 24), some (.mulhsS 8 16 24), some (.mulhnS 8 16 24),
    some (.minsS 8 16 24), some (.maxsS 8 16 24), some (.minnS 8 16 24), some (.maxnS 8 16 24), some (.andS 8 16 24),
    some (.orS 8 16 24), some (.xorS 8 16 24), some (.andnS 8 16 24), some (.shlS 8 16 24), some (.shrnS 8 16 24),
    some (.shrsS 8 16 24)] := by
  rfl

/-- Words of MAJ 0x03 (R46, R34). -/
theorem test_decode_int2 : List.map one [
    0x06020818, 0x06220818, 0x06420818, 0x06620818, 0x06820818, 0x06A20818, 0x06C20818, 0x06E20818, 0x07020800, 0x07220800,
    0x07420800, 0x07620818, 0x07820818, 0x07A20818, 0x07C20818, 0x07E20818] = [
    some (.rot 8 16 24), some (.absd 8 16 24), some (.mac 8 16 24), some (.add64 8 16 24), some (.sub64 8 16 24),
    some (.bfen 8 16 24), some (.bfes 8 16 24), some (.bfi 8 16 24), some (.popc 8 16), some (.clz 8 16), some (.brev 8 16),
    some (.bsel 8 16 24), some (.lea0 8 16 24), some (.lea1 8 16 24), some (.lea2 8 16 24), some (.lea3 8 16 24)] := by
  rfl

/-- Words of MAJ 0x04 (R46, R34). -/
theorem test_decode_int2_s : List.map one [
    0x08020818, 0x08220818, 0x08420818, 0x08620818, 0x08820818, 0x08A20818, 0x08C20818, 0x08E20818, 0x09020800, 0x09220800,
    0x09420800, 0x09620818, 0x09820818, 0x09A20818, 0x09C20818, 0x09E20818] = [
    some (.rotS 8 16 24), some (.absdS 8 16 24), some (.macS 8 16 24), some (.add64S 8 16 24), some (.sub64S 8 16 24),
    some (.bfenS 8 16 24), some (.bfesS 8 16 24), some (.bfiS 8 16 24), some (.popcS 8 16), some (.clzS 8 16),
    some (.brevS 8 16), some (.bselS 8 16 24), some (.lea0S 8 16 24), some (.lea1S 8 16 24), some (.lea2S 8 16 24),
    some (.lea3S 8 16 24)] := by
  rfl

/-- Words of MAJ 0x05 (R46, R34). -/
theorem test_decode_icmp : List.map one [
    0x0A00C818, 0x0A20C818, 0x0A40C818, 0x0A60C818, 0x0A80C818, 0x0AA0C818, 0x0AC0C818, 0x0AE0C818, 0x0B00C818, 0x0B20C818,
    0x0B40C818, 0x0B60C818] = [
    some (.icmpEq 3 16 24), some (.icmpNe 3 16 24), some (.icmpLts 3 16 24), some (.icmpLes 3 16 24), some (.icmpGts 3 16 24),
    some (.icmpGes 3 16 24), some (.icmpLtn 3 16 24), some (.icmpLen 3 16 24), some (.icmpGtn 3 16 24),
    some (.icmpGen 3 16 24), some (.icmpTst 3 16 24), some (.icmpNtst 3 16 24)] := by
  rfl

/-- Words of MAJ 0x06 (R46, R34). -/
theorem test_decode_icmp_s : List.map one [
    0x0C00C818, 0x0C20C818, 0x0C40C818, 0x0C60C818, 0x0C80C818, 0x0CA0C818, 0x0CC0C818, 0x0CE0C818, 0x0D00C818, 0x0D20C818,
    0x0D40C818, 0x0D60C818] = [
    some (.icmpEqS 3 16 24), some (.icmpNeS 3 16 24), some (.icmpLtsS 3 16 24), some (.icmpLesS 3 16 24),
    some (.icmpGtsS 3 16 24), some (.icmpGesS 3 16 24), some (.icmpLtnS 3 16 24), some (.icmpLenS 3 16 24),
    some (.icmpGtnS 3 16 24), some (.icmpGenS 3 16 24), some (.icmpTstS 3 16 24), some (.icmpNtstS 3 16 24)] := by
  rfl

/-- Words of MAJ 0x07 (R46, R34). -/
theorem test_decode_fop : List.map one [
    0x0E020818, 0x0E220818, 0x0E420818, 0x0E620818, 0x0E820818, 0x0EA20818, 0x0EC20818, 0x0EE20818, 0x0F020818, 0x0F220818,
    0x0F420818] = [
    some (.fadd 8 16 24), some (.fsub 8 16 24), some (.fmul 8 16 24), some (.fmac 8 16 24), some (.fmsc 8 16 24),
    some (.fmin 8 16 24), some (.fmax 8 16 24), some (.fminn 8 16 24), some (.fmaxn 8 16 24), some (.fcps 8 16 24),
    some (.fscl 8 16 24)] := by
  rfl

/-- Words of MAJ 0x08 (R46, R34). -/
theorem test_decode_fop_s : List.map one [
    0x10020818, 0x10220818, 0x10420818, 0x10620818, 0x10820818, 0x10A20818, 0x10C20818, 0x10E20818, 0x11020818, 0x11220818,
    0x11420818] = [
    some (.faddS 8 16 24), some (.fsubS 8 16 24), some (.fmulS 8 16 24), some (.fmacS 8 16 24), some (.fmscS 8 16 24),
    some (.fminS 8 16 24), some (.fmaxS 8 16 24), some (.fminnS 8 16 24), some (.fmaxnS 8 16 24), some (.fcpsS 8 16 24),
    some (.fsclS 8 16 24)] := by
  rfl

/-- Words of MAJ 0x09 (R46, R34). -/
theorem test_decode_fcmp : List.map one [
    0x1200C818, 0x1220C818, 0x1240C818, 0x1260C818, 0x1280C818, 0x12A0C818, 0x12C0C818, 0x12E0C818] = [
    some (.fcmpEq 3 16 24), some (.fcmpNe 3 16 24), some (.fcmpLt 3 16 24), some (.fcmpLe 3 16 24), some (.fcmpGt 3 16 24),
    some (.fcmpGe 3 16 24), some (.fcmpUn 3 16 24), some (.fcmpOr 3 16 24)] := by
  rfl

/-- Words of MAJ 0x0A (R46, R34). -/
theorem test_decode_fcmp_s : List.map one [
    0x1400C818, 0x1420C818, 0x1440C818, 0x1460C818, 0x1480C818, 0x14A0C818, 0x14C0C818, 0x14E0C818] = [
    some (.fcmpEqS 3 16 24), some (.fcmpNeS 3 16 24), some (.fcmpLtS 3 16 24), some (.fcmpLeS 3 16 24),
    some (.fcmpGtS 3 16 24), some (.fcmpGeS 3 16 24), some (.fcmpUnS 3 16 24), some (.fcmpOrS 3 16 24)] := by
  rfl

/-- Words of MAJ 0x0B (R46, R34). -/
theorem test_decode_hop : List.map one [
    0x16020818, 0x16220818, 0x16420818, 0x16620818, 0x16820818, 0x16A20818, 0x16C20818, 0x16E20818, 0x17020818, 0x17220818,
    0x17420818, 0x17620818] = [
    some (.hadd 8 16 24), some (.hsub 8 16 24), some (.hmul 8 16 24), some (.hmac 8 16 24), some (.hmin 8 16 24),
    some (.hmax 8 16 24), some (.badd 8 16 24), some (.bsub 8 16 24), some (.bmul 8 16 24), some (.bmac 8 16 24),
    some (.bmin 8 16 24), some (.bmax 8 16 24)] := by
  rfl

/-- Words of MAJ 0x0C (R46, R34). -/
theorem test_decode_hop_s : List.map one [
    0x18020818, 0x18220818, 0x18420818, 0x18620818, 0x18820818, 0x18A20818, 0x18C20818, 0x18E20818, 0x19020818, 0x19220818,
    0x19420818, 0x19620818] = [
    some (.haddS 8 16 24), some (.hsubS 8 16 24), some (.hmulS 8 16 24), some (.hmacS 8 16 24), some (.hminS 8 16 24),
    some (.hmaxS 8 16 24), some (.baddS 8 16 24), some (.bsubS 8 16 24), some (.bmulS 8 16 24), some (.bmacS 8 16 24),
    some (.bminS 8 16 24), some (.bmaxS 8 16 24)] := by
  rfl

/-- Words of MAJ 0x0D (R46, R34). -/
theorem test_decode_sel : List.map one [
    0x1A820818, 0x1B820818] = [
    some (.sel 4 8 16 24), some (.selS 4 8 16 24)] := by
  rfl

/-- Words of MAJ 0x0E (R46, R34). -/
theorem test_decode_plog : List.map one [
    0x1C00C105, 0x1C20C105, 0x1C40C105, 0x1C60C105, 0x1C820100, 0x1CA0C800, 0x1CC0C100, 0x1CE0C100, 0x1D020100, 0x1D220100] = [
    some (.pand 3 2 5), some (.por 3 2 5), some (.pxor 3 2 5), some (.pandn 3 2 5), some (.p2v 8 2), some (.v2p 3 16),
    some (.vany 3 2), some (.vall 3 2), some (.vbal 8 2), some (.vcnt 8 2)] := by
  rfl

/-- Words of MAJ 0x0F, 0x10, 0x11, 0x12 (R46, R34). -/
theorem test_decode_addi_xori : List.map one [
    0x1E2087FD, 0x202087FD, 0x222087FD, 0x242087FD] = [
    some (.addi 8 16 (-3)), some (.andi 8 16 (-3)), some (.ori 8 16 (-3)), some (.xori 8 16 (-3))] := by
  rfl

/-- Words of MAJ 0x13 (R46, R34). -/
theorem test_decode_shi : List.map one [
    0x26208009, 0x26208209, 0x26208409, 0x26208609] = [
    some (.shiShl 8 16 9), some (.shiShrn 8 16 9), some (.shiShrs 8 16 9), some (.shiRot 8 16 9)] := by
  rfl

/-- Words of MAJ 0x14 (R46, R34). -/
theorem test_decode_movi : List.map one [
    0x282007FD] = [
    some (.movi 8 (-3))] := by
  rfl

/-- Words of MAJ 0x16 (R46, R34). -/
theorem test_decode_sop : List.map one [
    0x2C020818, 0x2C220818, 0x2C420818, 0x2C620818, 0x2C820818, 0x2CA20818, 0x2CC20818, 0x2CE20818, 0x2D020818, 0x2D220818,
    0x2D420818, 0x2D620818, 0x2D820818, 0x2DA20818, 0x2DC20818, 0x2DE20818] = [
    some (.sadd 8 16 24), some (.ssub 8 16 24), some (.smul 8 16 24), some (.sand 8 16 24), some (.sor 8 16 24),
    some (.sxor 8 16 24), some (.sshl 8 16 24), some (.sshrn 8 16 24), some (.sshrs 8 16 24), some (.smins 8 16 24),
    some (.smaxs 8 16 24), some (.sadd64 8 16 24), some (.sseteq 8 16 24), some (.ssetne 8 16 24), some (.ssetlt 8 16 24),
    some (.ssetltn 8 16 24)] := by
  rfl

/-- Words of MAJ 0x17 (R46, R34). -/
theorem test_decode_saddi : List.map one [
    0x2E2087FD] = [
    some (.saddi 8 16 (-3))] := by
  rfl

/-- Words of MAJ 0x18 (R46, R34). -/
theorem test_decode_xmov : List.map one [
    0x30020018, 0x30220800, 0x30420818, 0x30620818, 0x30820800, 0x30A20000] = [
    some (.bcast 8 24), some (.rdfirst 8 16), some (.rdlane 8 16 24), some (.wrlane 8 16 24), some (.rdlpc 8 16),
    some (.laneid 8)] := by
  rfl

/-- Words of MAJ 0x19 (R46, R34). -/
theorem test_decode_sfu : List.map one [
    0x32A20800, 0x32A20808, 0x32A20810, 0x32A20818, 0x32A20820, 0x32A20828, 0x32A20830, 0x32A20838] = [
    some (.rcp 5 8 16), some (.rsq 5 8 16), some (.sqrt 5 8 16), some (.ex2 5 8 16), some (.lg2 5 8 16), some (.sinpi 5 8 16),
    some (.cospi 5 8 16), some (.tanh 5 8 16)] := by
  rfl

/-- Words of MAJ 0x1A (R46, R34). -/
theorem test_decode_cvt : List.map one [
    0x34A20802, 0x34A2080A, 0x34A20812, 0x34A2081A, 0x34A20822, 0x34A2082A, 0x34A20832, 0x34A2083A, 0x34A20842] = [
    some (.cvtF32S32 5 8 16 .rdn), some (.cvtF32N32 5 8 16 .rdn), some (.cvtS32F32 5 8 16 .rdn),
    some (.cvtN32F32 5 8 16 .rdn), some (.cvtF16F32 5 8 16 .rdn), some (.cvtBf16F32 5 8 16 .rdn),
    some (.cvtF32F16 5 8 16 .rdn), some (.cvtF32Bf16 5 8 16 .rdn), some (.frint 5 8 16 .rdn)] := by
  rfl

/-- Words of MAJ 0x1C (R46, R34). -/
theorem test_decode_dot : List.map one [
    0x38020818, 0x38220818, 0x38420818, 0x38620818, 0x38820818, 0x38A20818, 0x38C20818, 0x38E20818, 0x39020818] = [
    some (.dp4s8 8 16 24), some (.dp4n8 8 16 24), some (.dp4sn8 8 16 24), some (.dp8s4 8 16 24), some (.dp2bf 8 16 24),
    some (.dp2h 8 16 24), some (.dp4e4 8 16 24), some (.dp4e5 8 16 24), some (.dp4t5 8 16 24)] := by
  rfl

/-- Words of MAJ 0x1D (R46, R34). -/
theorem test_decode_trit : List.map one [
    0x3A020800, 0x3A220800, 0x3A420800, 0x3A620800, 0x3A80C800, 0x3AA20818, 0x3AC20800] = [
    some (.t5pack 8 16), some (.t5unpk 8 16), some (.t5enc 8 16), some (.t5dec 8 16), some (.t5chk 3 16),
    some (.tern 8 16 24), some (.tcnt 8 16)] := by
  rfl

/-- Words of MAJ 0x1E (R46, R34). -/
theorem test_decode_xlane : List.map one [
    0x3C020818, 0x3C220818, 0x3C420818, 0x3C620818, 0x3C820800, 0x3CA20800, 0x3CC20800, 0x3CE20800, 0x3D020800, 0x3D220800,
    0x3D420818, 0x3D60C100] = [
    some (.shfli 8 16 24), some (.shflu 8 16 24), some (.shfld 8 16 24), some (.shflx 8 16 24), some (.redadd 8 16),
    some (.redmin 8 16), some (.redmax 8 16), some (.redfadd 8 16), some (.scanadd 8 16), some (.scanfadd 8 16),
    some (.cats 8 16 24), some (.elect 3 2)] := by
  rfl

/-- Words of MAJ 0x1F (R46, R34). -/
theorem test_decode_rng : List.map one [
    0x3E020818, 0x3E220818] = [
    some (.rng 8 16 24), some (.rngf 8 16 24)] := by
  rfl

/-- Words of MAJ 0x20, 0x21, 0x22 (R46, R34). -/
theorem test_decode_bra_brx : List.map one [
    0x40FFFFFE, 0x439FFFFE, 0x459FFFFE] = [
    some (.bra (-2)), some (.bru true 4 (-2)), some (.brx true 4 (-2))] := by
  rfl

/-- Words of MAJ 0x23 (R46, R34). -/
theorem test_decode_jmp : List.map one [
    0x46000800, 0x46220800, 0x46400800] = [
    some (.jmpv 16), some (.callv 8 16), some (.ret 16)] := by
  rfl

/-- Words of MAJ 0x24 (R46, R34). -/
theorem test_decode_bar : List.map one [
    0x4800C819, 0x48220809, 0x4840C809, 0x4860C809] = [
    some (.bar 3 16 true 9), some (.arrive 8 16 9), some (.waitb 3 16 9), some (.gbar 3 16 9)] := by
  rfl

/-- Words of MAJ 0x25 (R46, R34). -/
theorem test_decode_fence : List.map one [
    0x4A00000B, 0x4A000013, 0x4A00001B, 0x4A200003, 0x4A400803, 0x4A600000] = [
    some (.fenceAcq .pkg), some (.fenceRel .pkg), some (.fenceAr .pkg), some (.phase .pkg), some (.xfence 16 .pkg),
    some .redflush] := by
  rfl

/-- Words of MAJ 0x26 (R46, R34). -/
theorem test_decode_exit : List.map one [
    0x4CC00000] = [
    some (.exit 6)] := by
  rfl

/-- Words of MAJ 0x27, 0x28, 0x29 (R46, R34). -/
theorem test_decode_ldg_stg : List.map one [
    0x4EA20827, 0x50A20821, 0x52020827] = [
    some (.ldg 5 8 16 .b4 .pkg true), some (.ldgi 5 8 16 .b4 true), some (.stg 8 16 .b4 .pkg true)] := by
  rfl

/-- Words of MAJ 0x2A (R46, R34). -/
theorem test_decode_lds : List.map one [
    0x54A20821, 0x54A20823, 0x54A20825, 0x54A20827] = [
    some (.lds 5 8 16 .b4 true), some (.ldsWfull 5 8 16 .b4 true), some (.ldsWfullEmpty 5 8 16 .b4 true),
    some (.ldsTag 5 8 16 true)] := by
  rfl

/-- Words of MAJ 0x2B (R46, R34). -/
theorem test_decode_sts : List.map one [
    0x56020821, 0x56020823, 0x56020825, 0x56000827] = [
    some (.sts 8 16 .b4 true), some (.stsWefull 8 16 .b4 true), some (.stsSfull 8 16 .b4 true), some (.stsSempty 16 .b4 true)] := by
  rfl

/-- Words of MAJ 0x2C, 0x2D, 0x2E (R46, R34). -/
theorem test_decode_ldp_ldk : List.map one [
    0x58A20821, 0x5A020821, 0x5CA20821] = [
    some (.ldp 5 8 16 .b4 true), some (.stp 8 16 .b4 true), some (.ldk 5 8 16 .b4 true)] := by
  rfl

/-- Words of MAJ 0x30 (R46, R34). -/
theorem test_decode_red : List.map one [
    0x600E0818, 0x602E0818, 0x604E0818, 0x606E0818, 0x608E0818, 0x60AE0818, 0x60CE0818, 0x60EE0818, 0x610C0818, 0x612C0818,
    0x614C0818] = [
    some (.redAdd .pkg true 16 24), some (.redAnd .pkg true 16 24), some (.redOr .pkg true 16 24),
    some (.redXor .pkg true 16 24), some (.redMins .pkg true 16 24), some (.redMaxs .pkg true 16 24),
    some (.redMinn .pkg true 16 24), some (.redMaxn .pkg true 16 24), some (.redFadd .pkg 16 24),
    some (.redBfadd2 .pkg 16 24), some (.redMaxa .pkg 16 24)] := by
  rfl

/-- Words of MAJ 0x32 (R46, R34). -/
theorem test_decode_tmap : List.map one [
    0x64004825, 0x64200025, 0x64420AA5] = [
    some (.tidset true 16 37), some (.tidinv 37), some (.tidq 8 21 37)] := by
  rfl

/-- Words of MAJ 0x33 (R46, R34). -/
theorem test_decode_qop : List.map one [
    0x6602C800, 0x66220584, 0x66420584, 0x66620580] = [
    some (.qpush 11 16), some (.qpop 8 11 4), some (.qtry 8 11 4), some (.qcnt 8 11)] := by
  rfl

/-- Words of MAJ 0x34 (R46, R34). -/
theorem test_decode_ares : List.map one [
    0x6800C000, 0x68200000] = [
    some (.ares 3), some .arel] := by
  rfl

/-- Words of MAJ 0x38 (R46, R34). -/
theorem test_decode_rsv : List.map one [
    0x70020818, 0x70220818, 0x70420018, 0x70620000] = [
    some (.rsvUpd 8 16 24), some (.rsvMrg 8 16 24), some (.rsvNrm 8 24), some (.rsvClr 8)] := by
  rfl

/-- Words of MAJ 0x39 (R46, R34). -/
theorem test_decode_rsvm : List.map one [
    0x72A20856, 0x72020857] = [
    some (.rsvLd 5 8 16 .pkg), some (.rsvSt 8 16 .pkg)] := by
  rfl

/-- Words of MAJ 0x3C (R46, R34). -/
theorem test_decode_ord : List.map one [
    0x78020000, 0x78200000] = [
    some (.ordenter 8), some .ordleave] := by
  rfl

/-- Pairs of words of LIT (R48). -/
theorem test_decode_lit : List.map two [
    (0x2A200001, 0x12345678), (0x2A200002, 0x00000005)] = [
    some (.lit false 8 0x92345678), some (.lit true 8 5)] := by
  rfl

/-- Pairs of words of QCVT (R49). -/
theorem test_decode_qcvt : List.map two [
    (0x36A21018, 0x04973400), (0x36A21018, 0x0A1A0000), (0x36A21000, 0x10200000)] = [
    some (.qcvt 5 8 32 24 .sr true .e4m3 3 77), some (.qwiden 5 8 32 24 .rdn false .e5m2 1), some (.qscale 5 8 32 .s8)] := by
  rfl

/-- Pairs of words of ATOM (R50). -/
theorem test_decode_atom : List.map two [
    (0x5EA20818, 0x030C0000), (0x5EA20818, 0x0B0C0000), (0x5EA20818, 0x130C0000), (0x5EA20818, 0x1B0C0000),
    (0x5EA20818, 0x230C0000), (0x5EA20818, 0x2B0C0000), (0x5EA20818, 0x330C0000), (0x5EA20818, 0x3B0C0000),
    (0x5EA20818, 0x430C0000), (0x5EA20818, 0x4B040000), (0x5EA20818, 0x53040000), (0x5EA20818, 0x5B040000),
    (0x5EA20818, 0x632D4000)] = [
    some (.atomAdd 5 8 16 24 .pkg true true), some (.atomAnd 5 8 16 24 .pkg true true),
    some (.atomOr 5 8 16 24 .pkg true true), some (.atomXor 5 8 16 24 .pkg true true),
    some (.atomMins 5 8 16 24 .pkg true true), some (.atomMaxs 5 8 16 24 .pkg true true),
    some (.atomMinn 5 8 16 24 .pkg true true), some (.atomMaxn 5 8 16 24 .pkg true true),
    some (.atomExch 5 8 16 24 .pkg true true), some (.atomFadd 5 8 16 24 .pkg true), some (.atomBfadd2 5 8 16 24 .pkg true),
    some (.atomMaxa 5 8 16 24 .pkg true), some (.atomCas 5 8 16 24 .pkg .team true true 40)] := by
  rfl

/-- Pairs of words of TCOPY (R51). -/
theorem test_decode_tcopy : List.map two [
    (0x63289160, 0x0B340000), (0x63289160, 0x19340000), (0x63289160, 0x21340000), (0x63289160, 0x31355000),
    (0x63289000, 0x41340000)] = [
    some (.tcopyTile 37 9 11 .x16 true 77), some (.tcopyStore 37 9 11 .x16 false 77), some (.tcopyWin 37 9 11 .none false 77),
    some (.tcopyGather 37 9 11 .none false 77 21), some (.tcopyPf 37 9 .none false 77)] := by
  rfl

/-- Pairs of words of TUN (R52). -/
theorem test_decode_tun : List.map two [
    (0x6A251335, 0x00008000), (0x6A651335, 0x07E4C000), (0x6AA51335, 0x07E45500), (0x6AE51334, 0x07E40054),
    (0x6B000134, 0x3F800000), (0x6B651334, 0x07E44000)] = [
    some (.tunLdw 37 9 77 true true), some (.tunMm 37 9 77 true 15 100 true true),
    some (.tunGmm 37 9 77 true 15 100 false true 21), some (.tunDrn 37 9 77 15 100 21), some (.tunZero 77 127 0),
    some (.tunBdiag 37 9 77 false 15 100 true)] := by
  rfl

/-- Pairs of words of TRACE (R53). -/
theorem test_decode_trace : List.map two [
    (0x6C4A4000, 0x529AD000), (0x6CCA4000, 0x529AD000), (0x6D4A4000, 0x529AD000)] = [
    some (.trace 37 16 0xA5 3 0x5A), some (.tracev 37 16 0xA5 3 0x5A), some (.tracerc 37 16 0xA5 3 0x5A)] := by
  rfl

/-- Pairs of words of LTWALK (R54). -/
theorem test_decode_ltwalk : List.map two [
    (0x6F290000, 0x52800000)] = [
    some (.ltwalk 37 16 0xA5)] := by
  rfl

/-- Pairs of words of SMP (R55). -/
theorem test_decode_smp : List.map two [
    (0x74A2084A, 0x38C00000)] = [
    some (.smp 5 8 16 37 .aniso .r16 true .mirror)] := by
  rfl

/-- Pairs of words of ENG (R56, R429). -/
theorem test_decode_eng : List.map two [
    (0x76251334, 0x00000000), (0x76651334, 0x00000000), (0x76A51334, 0x00000000), (0x76C01334, 0x55E00000)] = [
    some (.sparge 37 9 77), some (.grist 37 9 77), some (.coll 37 9 77 .allred .add), some (.launch 0xABC 9 77)] := by
  rfl

/-! ### States that meet the statements' hypotheses -/

/-- A group of width 8 with two lanes running and a full budget; its segments hold the first addresses. -/
def labGroup : Group :=
  { Group.blank with
    width := 8, lanes := [Lane.start, Lane.start] ++ List.replicate 6 Lane.blank, budget := 128
    seg := ⟨0, 2 ^ 32, 0, 2 ^ 32, 0, 0x1000, 0x10000, 0x1000, 0, 2 ^ 32⟩ }

/-- The group in the one team of an execution on core 0, at a unit of the lanes of `mask`; one leaf maps the address space. -/
def labOf (g : Group) (mask : Lanes) : State :=
  { State.reset with
    groups := [(0, g)], teams := [(0, { Team.blank with groups := 1, lanes := 2, width := 8 })], execs := [(0, Exec.blank)]
    mem := [(0x10000, 0x01), (0x10003, 0x12), (0x12000, 0xBF), (0x12001, 0x20)]
    dieC := { DieC.start with asroot := [(0, 0x10000001)] }
    unit := { UnitCtx.idle with pre := g, mask := mask, addr := 4, next := 5 } }

/-- Both lanes at the unit. -/
def lab : State := labOf labGroup 3

/-- Lane 0 alone at the unit, in user mode and in supervisor mode. -/
def lone : State := labOf labGroup 1
def loneSup : State := labOf { labGroup with csr := { Csrs.start with sup := true } } 1

/-- O8: a handled trap. -/
theorem witness_trap_entry :
    let s := labOf { labGroup with csr := { Csrs.start with tvec := 0x400 } } 3
    (s.grp 0).csr.tvec ≠ 0 ∧ (s.grp 0).csr.sup = false ∧ s.illegal.control = false := by
  decide

/-- O9: each reason that a trap is fatal. -/
theorem witness_fatal_trap :
    ((lab.grp 0).csr.tvec = 0 ∧ (loneSup.grp 0).csr.sup = true ∧ Cause.control ⟨0x0A, 0x300, 0, 0, 0, 0, true, true⟩ = true) ∧
    (lab.team (lab.grp 0).team).callable = false := by
  decide

/-- O10: user mode, and supervisor mode. -/
theorem witness_privileged : lone.pre.csr.sup = false ∧ loneSup.pre.csr.sup = true := by
  decide

/-- O11: a register at the budget, a pending token as a source and as a destination, and a poisoned source of each kind. -/
theorem witness_poison_budget_token :
    (let s := labOf { labGroup with budget := 127 } 3
     ∃ r ∈ (need3 false false 0 127 0).vs ++ (need3 false false 0 127 0).vd, s.pre.budget < r.1 + r.2) ∧
    (let n := need3 false true 0 0 126
     let s := labOf { labGroup with budget := 1, tok := [(126, true)] } 3
     (¬ ∃ r ∈ n.vs ++ n.vd, s.pre.budget < r.1 + r.2) ∧ expand n.ss = [] ++ 126 :: [] ∧ s.pre.pending 126 = true) ∧
    (let n : Need := ⟨[], [], [(4, 1)], [(5, 2)]⟩
     let s := labOf { labGroup with tok := [(6, true)] } 3
     (∀ r ∈ expand n.ss, s.pre.pending r = false) ∧ expand n.sd = [5] ++ 6 :: [] ∧ (∀ q ∈ [5], s.pre.pending q = false) ∧
       s.pre.pending 6 = true) ∧
    (let n := need3 false false 0 1 127
     let s := labOf { labGroup with vp := [(vkey 1 1, true), (vkey 1 127, true)] } 3
     expand n.vs = [1, 127] ∧ expand n.ss = [] ∧ expand n.sd = [] ∧ s.acts = [0] ++ 1 :: [] ∧ s.pre.vPoison 0 1 = false ∧
       s.pre.vPoison 0 127 = false ∧ s.pre.vPoison 1 1 = true) ∧
    (let n := need3 false true 0 9 9
     let s := labOf { labGroup with sp := [(9, true)] } 3
     expand n.vs = [9] ∧ expand n.ss = [9] ∧ s.acts = [] ++ 0 :: [1] ∧ s.pre.vPoison 0 9 = false ∧ s.pre.sPoison 9 = true) := by
  decide

/-- O12, O18, O21: three registers, the last one among them, vector and scalar. -/
theorem witness_three_registers :
    (∀ sc : Bool, lab.clear (need3 false sc 127 0 3) noCheck = true ∧ lab.clear (need3 true sc 127 127 126) noCheck = true) ∧
    lab.clear (need3 true false 127 0 3) (tritCheck 0 4) = true := by
  decide

/-- O13, O20, O31, O32: two registers, one alone, and a scalar. -/
theorem witness_two_registers :
    lab.clear (need2 127 0) noCheck = true ∧ lab.clear ⟨[], [(127, 1)], [], []⟩ noCheck = true ∧
    lab.clear ⟨[], [], [], [(127, 1)]⟩ noCheck = true ∧ lab.clear ⟨[], [(0, 1)], [(127, 1)], []⟩ noCheck = true ∧
    lab.clear (need3 false true 0 127 127) noCheck = true := by
  decide

/-- O14: pairs at the top of the registers. -/
theorem witness_pairs :
    ∀ sc wide : Bool, (126 : Nat) % 2 = 0 ∧ lab.clear (needPair sc wide 126 126 126) noCheck = true := by
  decide

/-- O15, O19, O33: the operands of a compare. -/
theorem witness_compares :
    (∀ sc : Bool, lab.clear (needCmp sc 127 0) noCheck = true) ∧
    lab.clear (needCmp false 127 0) noCheck = true := by
  decide

/-- O16: scalar operands, pairs among them. -/
theorem witness_scalars :
    lab.clear ⟨[], [], [(127, 1), (0, 1)], [(127, 1)]⟩ noCheck = true ∧
    lab.clear ⟨[], [], [(126, 2), (0, 2)], [(126, 2)]⟩ noCheck = true ∧
    lab.clear ⟨[], [], [(127, 1)], [(0, 1)]⟩ noCheck = true := by
  decide

/-- O17: the operands of predicates and votes. -/
theorem witness_votes :
    lab.clear ⟨[], [], [], []⟩ noCheck = true ∧ lab.clear ⟨[], [(127, 1)], [], []⟩ noCheck = true ∧
    lab.clear ⟨[(127, 1)], [], [], []⟩ noCheck = true ∧ lab.clear ⟨[], [], [], [(126, 2)]⟩ noCheck = true ∧
    lab.clear ⟨[], [], [], [(127, 1)]⟩ noCheck = true := by
  decide

/-- O21, O22: trits in range, a drawn rounding, a T5 byte in range, and the block of QSCALE. -/
theorem witness_narrow :
    lab.clear (need2 127 0) (tritCheck 0 3) = true ∧ lab.clear (need2 127 0) (tritCheck 0 4) = true ∧
    lab.clear ⟨[(127, 1)], [], [], []⟩ noCheck = true ∧
    lab.clear ⟨[(127, 1), (0, 1), (5, 1)], [], [(9, 1)], []⟩ noCheck = true ∧
    lab.clear ⟨[(127, 1), (0, 1)], [(5, 1)], [], []⟩ noCheck = true ∧ (∀ j ∈ lab.acts, byteOf (lab.rv j 127) 3 ≤ 242) ∧
    lab.clear ⟨[(96, 32)], [(5, 1)], [], []⟩ noCheck = true := by
  decide

/-- O23: the operands of shuffles and reductions, and of RDFIRST, RDLANE and WRLANE. -/
theorem witness_cross_lane :
    lab.clear ⟨[(3, 1)], [(127, 1), (5, 1)], [], []⟩ noCheck = true ∧ lab.clear (need2 127 0) noCheck = true ∧
    lab.clear (amongNeed 5 127 []) (fun s => s.poisonAmong 127) = true ∧
    lab.clear (amongNeed 5 127 [(3, 1)]) (fun s => s.poisonAmong 127) = true ∧
    (∀ j ∈ lab.acts, lab.pre.vPoison ((lab.rv j 3).toNat % lab.pre.width) 127 = false) ∧
    lab.clear ⟨[], [(127, 1)], [], [(5, 1)]⟩ noCheck = true ∧ lab.acts ≠ [] ∧ lab.pre.vPoison lab.lead 127 = false ∧
    lab.clear ⟨[], [(127, 1)], [(4, 1)], [(5, 1)]⟩ noCheck = true ∧
    lab.pre.vPoison ((lab.rs 4).toNat % lab.pre.width) 127 = false ∧
    lab.clear ⟨[], [(127, 1)], [(4, 1), (5, 1)], []⟩ noCheck = true := by
  decide

/-- O24: a target at packet 0, lanes that agree and lanes that differ, with and without the BRU trap, and a jump. -/
theorem witness_branches :
    let t := labOf { labGroup with p := [(8, true)] } 3
    let u := labOf { labGroup with p := [(8, true)], csr := { Csrs.start with trapctl := 0x10 } } 3
    0 ≤ lab.targetPkt (-1) ∧ lab.targetPkt (-1) = 0 ∧
    lab.acts.filter (fun j => (lab.rp j 0 != false) != (lab.rp lab.lead 0 != false)) = [] ∧
    t.acts.filter (fun j => (t.rp j 0 != false) != (t.rp t.lead 0 != false)) = [1] ∧ t.pre.csr.trapctl.getLsbD 4 = false ∧
    u.acts.filter (fun j => (u.rp j 0 != false) != (u.rp u.lead 0 != false)) = [1] ∧ u.pre.csr.trapctl.getLsbD 4 = true ∧
    lab.clear ⟨[(5, 1)], [], [], []⟩ (jumpCheck 5) = true ∧ lab.clear (need2 127 5) (jumpCheck 5) = true := by
  decide

/-- O25: a branch below packet 0, taken by the lowest lane. -/
theorem witness_branch_below :
    lab.targetPkt (-2) < 0 ∧ lab.acts = [0, 1] ∧ (lab.rp 0 0 != true) = true ∧ lab.lead = 0 := by
  decide

/-- O26 to O28: the scalars of the system functions. -/
theorem witness_system :
    let s := labOf { labGroup with s := [(5, 9)] } 3
    lab.clear (scalarNeed [(5, 1)] []) noCheck = true ∧ lab.rs 5 = 0 ∧
    s.clear (scalarNeed [(5, 1)] []) noCheck = true ∧ s.rs 5 ≠ 0 ∧
    lab.clear (scalarNeed [] [(127, 1)]) noCheck = true ∧ lab.clear (scalarNeed [] [(126, 2)]) noCheck = true ∧ lab.acts ≠ [] ∧
    lab.pre.csr.sup = false ∧ loneSup.pre.csr.sup = true ∧
    loneSup.clear (scalarNeed [] [(127, 1)]) noCheck = true ∧ loneSup.clear (scalarNeed [(5, 1)] []) noCheck = true ∧
    loneSup.acts ≠ [] ∧ csrExists 0x7F = false ∧ csrUser 0x7F = false ∧ csrSuper 0x7F = false ∧ csrSuper 0x06 = true := by
  decide

/-- O29: a return with a lane to resume, and a segment that its pair allows. -/
theorem witness_return_segments :
    let s := labOf { labGroup with csr := { Csrs.start with sup := true, hset := 1 }, ibuf := [(0, [0, 0, 0])] } 1
    let u := labOf { labGroup with csr := { Csrs.start with sup := true }, s := [(7, 0x01000000)] } 1
    s.pre.csr.sup = true ∧ s.clear (scalarNeed [] []) eretCheck = true ∧ s.clear (scalarNeed [(5, 1)] []) noCheck = true ∧
    u.pre.csr.sup = true ∧ u.clear (scalarNeed [(4, 4)] []) noCheck = true ∧ (u.rs2 4).toNat ≤ (u.rs2 6).toNat ∧
    (u.rs2 6).toNat ≤ 2 ^ 56 ∧
    s.clear (scalarNeed [(4, 4)] []) noCheck = true ∧ (s.rs2 6).toNat % 32 = 0 ∧ pairHi (s.rs2 6) = 0 := by
  decide

/-- O30: nothing outstanding, an empty range and one of a byte. -/
theorem witness_invalidations :
    let s := labOf { labGroup with csr := { Csrs.start with sup := true }, s := [(6, 1)] } 1
    s.me.hold = .none ∧ s.pre.hold = .none ∧ s.pre.unacked .pkg = false ∧ s.pre.csr.sup = true ∧
    s.clear (scalarNeed [(4, 2), (6, 1)] []) noCheck = true ∧ 0 < (s.rs 6).toNat ∧
    s.clear (scalarNeed [(4, 2), (7, 1)] []) noCheck = true ∧ (s.rs 7).toNat = 0 := by
  decide

/-- What an answer's next state satisfies. -/
def nextHas (a : Answer) (p : State → Bool) : Bool := match a with
  | .next t => p t
  | .fault _ => false
  | .refused _ => false

/-- O2, O3, O6: the state after reset is safe and has a step, and an instruction with a pipe class has an encoding. -/
theorem witness_safe_step : State.reset.Safe ∧ (∃ t, step State.reset = .next t) ∧
    Instr.WellFormed (.eret) ∧ encode .eret false = some [0x00400000] ∧ Instr.pipe .eret ≠ none := by
  refine ⟨rfl, ⟨_, rfl⟩, by decide, by decide, by decide⟩

/-- O4: a dispatcher's turn for a slot that no memory holds. -/
theorem witness_no_memory :
    let s := { State.reset with
      agenda := [.event (.reqseqNotify 0)], dieC := { DieC.start with dispctl := 0x11, bootstat := 6, slotbase := 0xFFFFFFFFFFF00000 } }
    step s = .fault (.noMemory (s.slotKey 0)) ∧ s.slotThere 0 = false := by
  exact ⟨rfl, by decide⟩

/-- A group whose packet 0 holds one word thrice, and whose turn it is. -/
def turnOf (g : Group) (w : Word) : State := { labOf { g with ibuf := [(0, [w, w, w])] } 3 with agenda := [.issue 0] }

/-- The unit of O5's hypotheses at `turnOf g w`. -/
def unitOf (g : Group) (w : Word) : State := ({ turnOf g w with agenda := [] } : State).issuedUnit 0 0 1 w

/-- O5: a NOP that completes, an ERET in user mode that traps, and a CSRW that waits for a token. -/
theorem witness_step_runs :
    (∀ w ∈ [0, 0x00400000, 0x00A00203], let s0 : State := { turnOf { labGroup with tok := [(4, true)] } w with agenda := [] }
      s0.ready 0 = true ∧ (s0.grp 0).issueAddr = some 0 ∧ s0.fetched 0 0 = some (s0, [w, w, w]) ∧ slotOf 0 = 0 ∧
      (unitOf { labGroup with tok := [(4, true)] } w).me.deferred = false ∧
      (unitOf { labGroup with tok := [(4, true)] } w).myTeam.callable = false) ∧
    decodeWords [0, 0, 0] = .ok ⟨.nop, false, 1⟩ ∧ decodeWords [0x00400000, 0, 0] = .ok ⟨.eret, false, 1⟩ ∧
    decodeWords [0x00A00203, 0, 0] = .ok ⟨.csrw 4 3, false, 1⟩ ∧
    nextHas (exec .nop (unitOf labGroup 0)) (fun t => !t.unit.trapped && !t.unit.blocked && t.unit.mask == 3) = true ∧
    nextHas (exec .eret (unitOf labGroup 0x00400000)) (fun t => t.unit.trapped && t.unit.late == 0) = true ∧
    nextHas (exec (.csrw 4 3) (unitOf { labGroup with tok := [(4, true)] } 0x00A00203)) (fun t => !t.unit.trapped && t.unit.blocked) = true := by
  refine ⟨?_, by decide, by decide, by decide, by decide, by decide, by decide⟩
  intro w hw
  simp only [List.mem_cons, List.mem_nil_iff, or_false] at hw
  rcases hw with rfl | rfl | rfl <;> exact ⟨by decide, by decide, rfl, by decide, by decide, by decide⟩

/-- O5: RCP of a poisoned register with LA = 1.  The choice of `graceOf` is free, so a witness can say only that it may be 1, and
what follows then. -/
theorem witness_step_grace :
    let u := unitOf { labGroup with vp := [(vkey 0 1, true)] } 0x32200080
    let c : Chain := ⟨[⟨.rcp 1 0 1, 0x32200080, lpcAt 0 0⟩], none, 1⟩
    decodeWords [0x32200080, 0x32200080, 0x32200080] = .ok ⟨.rcp 1 0 1, false, 1⟩ ∧
    nextHas (exec (.rcp 1 0 1) u) (fun t => t.unit.trapped && t.unit.late == 1) = true ∧
    (∀ t, t.unit.late = 1 → u.graceOf c [.next t] 0 t = 0 ∨ u.graceOf c [.next t] 0 t = 1) ∧
    nextHas (exec (.rcp 1 0 1) { u with unit := { u.unit with grace := 1 } })
      (fun t => !t.unit.trapped && !t.unit.blocked && t.me.looks.length == 1) = true := by
  refine ⟨by decide, by decide, fun t h => ?_, by decide⟩
  simp only [State.graceOf, h]
  split <;> simp
  omega

/-- O34: global, private and constant loads at lane addresses and at a scalar one; nothing makes them wait. -/
theorem witness_loads :
    let n := Size.bytes .b8
    (∀ sp ∈ [VSpace.global, .constant, .priv], ∀ x : Bool, ∀ b ∈ [Order.rlx, .team, .die, .pkg, .sys],
      lone.clear ⟨(addrNeed sp x 4).1, [(126, 2)], (addrNeed sp x 4).2, []⟩ (memCheck sp x 4 n .read) = true ∧
      lone.acts.any (fun j => lone.loadWaits .lane b (lone.phys .read (lone.vaOf sp x 4 j) n)) = false) := by
  decide

/-- O34, O35, O38, O39: the one access of lane 0, to memory that the leaf maps. -/
theorem witness_one_access :
    lone.acts = [0] ∧ lone.me.unread = [] ∧
    lone.phys .read (lone.vaOf .global false 4 0) 8 = [(⟨0x20BF, 0x12000, 0, 2 ^ 36⟩, 0, 8)] ∧ 0 % 8 + 8 ≤ 8 ∧
    lone.phys .write (lone.vaOf .global false 4 0) 8 = [(⟨0x20BF, 0x12000, 0, 2 ^ 36⟩, 0, 8)] ∧
    lone.atomPhys (lone.rv2 0 4).toNat = some (⟨0x20BF, 0x12000, 0, 2 ^ 36⟩, 0) ∧ isHost 0 = false := by
  decide

/-- Both lanes of the lab at a unit, lane 1 a page above lane 0 in the register of addresses. -/
def both_ : State := labOf { labGroup with v := [(vkey 1 4, 0x1000)] } 3

/-- O34, O35: several lanes, each with accesses of 16 and 32 bytes whose parts lie in one page each. -/
theorem witness_many_lanes :
    both_.acts = [0, 1] ∧
    (∀ n ∈ [1, 8, 16, 32], ∀ j ∈ both_.acts, ∀ q ∈ runsOf (both_.vaOf .global false 4 j) n, q.2 = min n 8 ∧
      both_.olds both_.space q.1 .read = []) ∧
    (∀ n ∈ [1, 8, 16, 32], ∀ j ∈ both_.acts, ∀ q ∈ runsOf (both_.vaOf .global false 4 j) n,
      (match both_.walk both_.space q.1 with | .leaf l => pteA l.entry | _ => false) = true) ∧
    (∀ j ∈ both_.acts, ∀ r ∈ both_.phys .read (both_.vaOf .global false 4 j) 32, uncached r.1 = false ∧
      (both_.part (r.2.1 / 8)).versions = []) ∧
    (∀ j ∈ both_.acts, ∀ w ∈ both_.phys .write (both_.vaOf .global false 4 j) 32, uncached w.1 = false) ∧
    both_.clear ⟨(addrNeed .global false 4).1, [(120, 8)], (addrNeed .global false 4).2, []⟩
      (memCheck .global false 4 32 .read) = true ∧
    both_.clear ⟨(120, 8) :: (addrNeed .global false 4).1, [], (addrNeed .global false 4).2, []⟩
      (memCheck .global false 4 32 .write) = true ∧
    both_.acts.any (fun j => both_.loadWaits .lane .rlx (both_.phys .read (both_.vaOf .global false 4 j) 32)) = false := by
  decide

/-- O35: stores, the widest among them. -/
theorem witness_stores :
    lone.clear ⟨(120, 8) :: (addrNeed .global false 4).1, [], (addrNeed .global false 4).2, []⟩
      (memCheck .global false 4 32 .write) = true ∧
    lone.clear ⟨(127, 1) :: (addrNeed .priv true 4).1, [], (addrNeed .priv true 4).2, []⟩
      (memCheck .priv true 4 4 .write) = true ∧ ¬(lone.detMode = 2) ∧
    (let s := { lone with execs := [(0, { Exec.blank with record := [0, 0, 0, 0, 0x20000] })] }
     s.detMode = 2 ∧ s.stageFull 1 = false ∧ s.myExec.discards = false ∧
       s.clear ⟨(127, 1) :: (addrNeed .global false 4).1, [], (addrNeed .global false 4).2, []⟩
         (memCheck .global false 4 4 .write) = true) := by
  decide

/-- O36, O37: scratch accesses at the first words, with tags empty and full, and lanes that wait. -/
theorem witness_scratch :
    let full := { lone with teams := [(0, { Team.blank with groups := 1, lanes := 2, width := 8, tags := [(0, true), (1, true)] })] }
    lone.clear (scratchNeed false 4 [] [(126, 2)]) (scratchCheck false 4 8) = true ∧
    lone.clear (scratchNeed false 4 [] [(127, 1)]) (scratchCheck false 4 4) = true ∧
    lone.clear (scratchNeed true 4 [(126, 2)] []) (scratchCheck true 4 8) = true ∧
    lone.clear (scratchNeed true 4 [] []) (scratchCheck true 4 32) = true ∧
    lone.myTeam.fogs.any (fun f => (lone.acts.flatMap (fun j => wordsAt (lone.scratchOff false 4 j) 8)).contains f.word) = false ∧
    lone.handsOff 0 = true ∧ full.handsOff 0 = true ∧
    (labOf { labGroup with stores := [⟨[(64, 1)], some .sys, [], 0, false, false, 0, false, 0, false, none, 0, []⟩] } 1).handsOff 0 = false ∧
    4 ≤ Size.bytes .b8 ∧ 126 + Size.regs .b8 ≤ 128 ∧ lone.acts = [0] ∧
    (∀ w ∈ wordsAt (lone.scratchOff false 4 0) 8, lone.myTeam.full w = false) ∧
    (∀ w ∈ wordsAt (full.scratchOff false 4 0) 8, full.myTeam.full w = true) ∧
    full.clear (scratchNeed false 4 [] [(126, 2)]) (scratchCheck false 4 8) = true ∧
    full.clear (scratchNeed false 4 [(126, 2)] []) (scratchCheck false 4 8) = true := by
  decide

/-- O38: an atomic of each size, a floating one and a comparison; and a comparison that fails. -/
theorem witness_atomics :
    lone.me.hold = .none ∧ lone.atomWaits .rlx [(⟨0x20BF, 0x12000, 0, 2 ^ 36⟩, 0)] = false ∧ lone.marked 0 = false ∧ lone.dieC.stopped = false ∧
    pteW 0x20BF = true ∧ pteA 0x20BF = true ∧ pteD 0x20BF = true ∧
    lone.detMode = 0 ∧
    lone.clear (AtomOp.need ⟨.add, 8, 124, 4, 126, 0, .rlx, .rlx, true⟩) (atomCheck .add true 4 8) = true ∧
    lone.clear (AtomOp.need ⟨.fadd, 4, 126, 4, 127, 0, .rlx, .rlx, true⟩) (atomCheck .fadd true 4 4) = true ∧
    lone.clear (AtomOp.need ⟨.cas, 4, 127, 4, 126, 125, .rlx, .rlx, false⟩) (atomCheck .cas false 4 4) = true ∧
    lone.natAt 0 4 = lone.atomOperand 0 125 4 ∧
    (let s := labOf { labGroup with v := [(vkey 0 125, 1)] } 1
     s.natAt 0 4 ≠ s.atomOperand 0 125 4 ∧
       s.clear (AtomOp.need ⟨.cas, 4, 127, 4, 126, 125, .rlx, .rlx, false⟩) (atomCheck .cas false 4 4) = true) := by
  decide

/-- O39: a reduction in each mode, and REDFLUSH in each. -/
theorem witness_reductions :
    let s := { lone with execs := [(0, { Exec.blank with record := [0, 0, 0, 0, 0x10000] })] }
    lone.clear ⟨[(4, 2), (126, 2)], [], [], []⟩ (atomCheck .add true 4 8) = true ∧ lone.detMode = 0 ∧ lone.redFree ≠ 0 ∧
    lone.pre.redsOut = 0 ∧ lone.me.hold = .none ∧ lone.pre.hold = .none ∧
    s.clear ⟨[(4, 2), (126, 2)], [], [], []⟩ (atomCheck .add true 4 8) = true ∧ s.detMode ≠ 0 ∧
    s.myExec.discards = false ∧ s.redFree ≠ 0 := by
  decide

/-- O40: no write outstanding; XFENCE with a path missing on one side, and with both. -/
theorem witness_fences :
    let s := labOf { labGroup with s := [(5, 0x00010001)] } 1
    lone.me.hold = .none ∧ lone.pre.hold = .none ∧ lone.pre.unacked .pkg = false ∧ lone.pre.returned = true ∧ lone.unit.blocked = false ∧
    lone.clear ⟨[], [], [(5, 1)], []⟩ noCheck = true ∧ bits (lone.rs 5).toNat 0 11 = 0 ∧
    s.me.hold = .none ∧ s.pre.hold = .none ∧ s.clear ⟨[], [], [(5, 1)], []⟩ noCheck = true ∧ bits (s.rs 5).toNat 0 11 ≠ 0 ∧
    bits (s.rs 5).toNat 16 11 ≠ 0 ∧ s.pre.fenceWaits (bits (s.rs 5).toNat 0 11) (bits (s.rs 5).toNat 16 11) .sys = false := by
  decide

/-- O41: a lane that waits while another of its group runs, at BAR, GBAR, WAITB and EXIT. -/
theorem witness_barrier_waits :
    lone.pre.csr.sup = false ∧ lone.clear (barNeed 5 []) noCheck = true ∧ lone.handsOff 0 = true ∧
    (∃ i ∈ lone.me.live, lone.unit.mask.getLsbD i = false ∧ (lone.me.lane i).st ≠ .barred) ∧
    (∀ i ∈ lone.me.live, (lone.me.lane i).bar.pkg = false) ∧ lone.unit.g ∈ lone.unretired lone.me.team ∧
    (lone.myTeam.bar 15).phase = lone.rs 5 ∧ lone.myTeam.tmoff = none ∧
    (let s := labOf { labGroup with s := [(5, 1)] } 1
     (s.myTeam.bar 15).phase ≠ s.rs 5) := by
  decide

/-- Lane 0 alone in its group, which alone remains of its team; the count in s5 is 1. -/
def lastLane (g : Group) : State := labOf { g with lanes := [Lane.start] ++ List.replicate 7 Lane.blank, s := [(5, 1)] } 1

/-- O42: the last lane of the last group arrives. -/
theorem witness_barrier_completes :
    let s := lastLane labGroup
    s.handsOff 0 = true ∧ s.pre.csr.sup = false ∧ s.clear (barNeed 5 []) noCheck = true ∧
    s.unit.g ∈ s.unretired s.me.team ∧ (s.rs 5).toNat ≤ 32 ∧ (s.myTeam.bar 0).expect = none ∧ s.detTeam s.me.team = false ∧
    0 < s.me.width ∧ s.unit.mask.getLsbD 0 = true ∧
    (∀ i, i < s.me.width → if s.unit.mask.getLsbD i then (s.me.lane i).st = .run
      else (s.me.lane i).st = .exited ∨ (s.me.lane i).st = .absent) ∧
    s.needAt s.me.team (s.rs 5) ≤ (s.myTeam.bar 0).count + 1 ∧
    s.clear (barNeed 5 [(6, 1)]) noCheck = true ∧ (∃ i ∈ s.me.live, (s.me.lane i).st ≠ .barred) := by
  decide

/-- O42: a release of an earlier tick that has not been applied holds BAR and ARRIVE up. -/
theorem witness_barrier_held :
    let s := lastLane { labGroup with stores := [⟨[(64, 1)], some .sys, [], 0, false, false, 0, false, 0, false, none, 0, []⟩] }
    let t := { s with tick := 1 }
    t.handsOff t.unit.g = false ∧ (∀ q ∈ t.me.stores, q.time ≠ t.tick) ∧ (t.coreOf t.unit.g).reds = [] ∧
    t.clear (barNeed 5 [(6, 1)]) noCheck = true := by
  decide

/-- A descriptor of some words, the others 0. -/
def descWith (l : List (Nat × Word)) : List Word := (List.range 32).map (fun j => (ffind l j).getD 0)

/-- Words 12 to 19 of a descriptor: dims and boxes of 1 but dim 0 and box 0. -/
def dimWords (n : Nat) : List (Nat × Word) :=
  [(12, BitVec.ofNat 32 n), (13, 1), (14, 1), (15, 1), (16, 1), (17, BitVec.ofNat 32 (0x10000 + n)), (18, 0x00010001), (19, 1)]

/-- Slots by format and rank: 0 N32 of rank 3, 1 an index list, 2 TRITV, 3 S8, 4 a texture, 5 a structure, 6 a light tree, 7 Sparge,
8 GRIST, 9 FP32 of rank 1. -/
def slots : FMap TensorSlot :=
  [(0, some (descWith ((0, 0x3B0) :: dimWords 4))), (1, some (descWith ((0, 0x1B1) :: dimWords 4))),
   (2, some (descWith ((0, 0x290) :: dimWords 10))), (3, some (descWith ((0, 0x110) :: dimWords 4))),
   (4, some (descWith [(0, 2), (4, 1), (5, 1), (6, 1)])), (5, some (descWith [(0, 3)])), (6, some (descWith [(0, 4), (4, 1)])),
   (7, some (descWith [(0, 5), (1, 0x01000001), (8, 0x3F800000), (12, 8), (13, 0x3C000000)])),
   (8, some (descWith [(0, 5), (1, 2)])), (9, some (descWith ((0, 0x150) :: dimWords 4)))]

/-- A group of role 1 with room in its scratchpad; its lane 0 alone, with all slots valid, owning the array; the reservoir store serves. -/
def busyGroup : Group := { labGroup with csr := { Csrs.start with role := 1 }, seg := { labGroup.seg with sl := 0x10000 } }
def busyOf (g : Group) : State :=
  let s := labOf g 1
  { s with
    teams := [(0, { Team.blank with groups := 1, lanes := 2, width := 8, tensors := slots })]
    cores := [(0, { Core.start with tun := { Tun.clear with owner := some 0 } })]
    dieC := { s.dieC with rsctl := 0x01010001, rsOn := 0x01010001, rsdim := 0x00100010, rsDimOn := 0x00100010, rsPhase := 2,
                          comms := [(0, { Comm.blank with reg := 0x80000000 })] } }
def busy : State := busyOf busyGroup

/-- O43: a valid descriptor in the scratchpad, and a scalar for TIDQ. -/
theorem witness_tensor_table :
    let s := { busy with teams := [(0, { Team.blank with
      groups := 1, lanes := 2, width := 8, scratch := (0, 0x150) :: dimWords 4 })] }
    s.clear (scalarNeed [(4, 1)] []) (tidCheck true 4) = true ∧ s.me.hold = .none ∧ s.pre.hold = .none ∧ s.me.unread = [] ∧
    descFault 0 (s.effect.tidRead true 0).2 = none ∧ s.myTeam.fogs = [] ∧
    busy.clear (scalarNeed [] [(127, 1)]) noCheck = true := by
  decide +kernel

/-- O43: a valid descriptor in memory. -/
theorem witness_tensor_memory :
    let g := { busyGroup with s := [(4, 0x1000)] }
    let s := { labOf g 1 with mem := [(0x1000, 0x50), (0x1001, 1), (0x1030, 4), (0x1034, 1), (0x1038, 1), (0x103C, 1), (0x1040, 1),
      (0x1044, 4), (0x1046, 1), (0x1048, 1), (0x104A, 1), (0x104C, 1)] ++ lab.mem }
    s.clear (scalarNeed [(4, 2)] []) (tidCheck false 4) = true ∧ (s.rs2 4).toNat = 0x1000 ∧ s.me.hold = .none ∧ s.pre.hold = .none ∧
    s.me.unread = [] ∧ (s.onMe (fun g => { g with stores := s.pre.stores })).loadWaits .lane .rlx (s.descRuns 0x1000) = false ∧ descFault 0 (s.effect.tidRead false 0x1000).2 = none := by
  decide +kernel

/-- O44: a push to q7 of a system group that has popped, a pop of a result queue with an entry, and counts. -/
theorem witness_queues :
    let s := busyOf { busyGroup with csr := { Csrs.start with role := 2 }, asked := [0], queues := [(1, [⟨1, [], []⟩])] }
    s.clear ⟨[(120, 8)], [], [], []⟩ (queueCheck pushOk true 7) = true ∧ (s.me.queue 7).length < 4 ∧
    s.clear (popNeed 120) (queueCheck popOk false 1) = true ∧ 120 + 8 ≤ 128 ∧ s.me.queue 1 = [⟨1, [], []⟩] ∧
    s.clear (popNeed 120) (queueCheck popOk false 3) = true ∧ s.me.queue 3 = [] ∧
    s.clear (scalarNeed [] [(127, 1)]) (queueCheck countOk false 7) = true ∧
    busy.clear (scalarNeed [] [(127, 1)]) (queueCheck countOk false 0) = true := by
  decide +kernel

/-- O45: a request of each kind. -/
theorem witness_requests :
    (∀ p ∈ [(5, 3, 0), (5, 3, 2), (6, 4, 4)],
      busy.clear ⟨[(120, 8)], [], [], []⟩
        (fun s j => if j = s.lead then s.slotCause [⟨p.1, true, false, [p.2.1], fun _ => true, fun _ => 0⟩] else none) = true ∧
      fget 0 busy.me.owed p.2.2 < 4) := by
  decide +kernel

/-- O46: a copy of each mode. -/
theorem witness_copies :
    (∀ p ∈ [(modeTile, 0), (modeStore, 0), (modeWin, 0), (modePf, 0)],
      busy.bulkClear (busy.coordRun 0 8 ++ if p.1 = modePf then [] else [(12, 1)])
        (copyCheck p.1 0 false 0 8 (if p.1 = modePf then 127 else 12) p.2 busy) 10 = true) ∧
    busy.bulkClear (busy.coordRun 3 8 ++ [(12, 1)]) (copyCheck modeTile 1 false 3 8 12 0 busy) 10 = true ∧
    busy.bulkClear (busy.coordRun 2 8 ++ [(12, 1)]) (copyCheck modeGather 0 false 2 8 12 1 busy) 10 = true ∧
    (busy.core busy.myTeam.core).copies.length < 32 := by
  decide +kernel

/-- O46: a command of each operation of the array, BDIAG in supervisor mode. -/
theorem witness_array_commands :
    let sup := busyOf { busyGroup with csr := { Csrs.start with role := 1, sup := true } }
    (∀ o ∈ ([⟨0, 2, 8, 10, 1, 0, 0, false, false, 0⟩, ⟨1, 3, 8, 10, 0, 1, 127, false, true, 0⟩, ⟨2, 3, 8, 10, 0, 1, 0, false, false, 1⟩,
        ⟨3, 3, 8, 10, 0, 1, 0, false, false, 1⟩, ⟨4, 0, 0, 10, 0, 128, 0, false, false, 0⟩] : List TunOp),
      busy.bulkClear o.scalars (o.check busy) o.tok = true) ∧ (busy.core busy.myTeam.core).tun.queue.length < 16 ∧
    sup.pre.csr.sup = true ∧
    (let o : TunOp := ⟨5, 3, 8, 10, 0, 1, 0, false, false, 0⟩
     sup.bulkClear o.scalars (o.check sup) o.tok = true) := by
  decide +kernel

/-- O47: SPARGE, GRIST, LAUNCH, COLL, and the array owned, free, and held by another. -/
theorem witness_other_commands :
    let s := busyOf { busyGroup with s := [(9, 0x00010001), (11, 4)] }
    let t := { s with unit := { s.unit with pre := { busyGroup with s := [(9, 0x00010001), (11, 4)] } } }
    t.bulkClear (argRun 8 3) (firstSome [t.recordCause 7 1 spargeFields (t.spargeForm 8) 11, t.aslotCause (t.descOf 7)]) 20 = true ∧
    (t.sparge (clusterOf t.myTeam.core)).queue.length < 16 ∧ t.dieC.rsPhase ≠ 4 ∧
    t.bulkClear (argRun 8 (t.gristArgs 8)) (t.recordCause 8 2 gristFields (gristForm (t.rs 8).toNat (t.gristSegs 8)) (8 + t.gristArgs 8)) 20
      = true ∧ (t.die (t.dieOf t.unit.g)).grist.length < 64 ∧
    t.bulkClear [(127, 1)] none 20 = true ∧
    t.bulkClear (argRun 10 (collArgs .allred)) ((t.collReason 9 10 .allred .fadd).map (t.tensorId 9)) 20 = true ∧
    t.dieC.usable (t.comm 0).reg = true ∧ (t.comm 0).missed = [] ∧
    busy.myTun.owner = some busy.me.team ∧
    lab.myTun.owner = none ∧ lab.myTun.leaving = none ∧ lab.myTun.heldFrom lab.me.team = false := by
  decide +kernel

/-- O48: the operands of the record operations, a record that the store holds, and a texture. -/
theorem witness_reservoirs :
    busy.clear ⟨[(120, 8), (112, 8), (5, 1)], [(120, 8)], [], []⟩ noCheck = true ∧
    busy.clear ⟨[(120, 8), (5, 1)], [(120, 8)], [], []⟩ noCheck = true ∧ busy.clear ⟨[], [(120, 8)], [], []⟩ noCheck = true ∧
    busy.acts = [0] ∧ busy.recordOf 0 4 = some 0 ∧ busy.dieC.rsWaits = false ∧
    busy.clear ⟨[(4, 2)], [(120, 8)], [], []⟩ (rsvCheck 4 .read) = true ∧
    busy.loadWaits .rsvs .rlx (busy.phys .read 0 32) = false ∧ busy.loadWaits .rsvs .sys (busy.phys .read 0 32) = false ∧
    (∃ l, busy.access busy.space 0 .read 0 = .ok l) ∧
    busy.clear ⟨[(120, 8), (4, 2)], [], [], []⟩ (rsvCheck 4 .write) = true ∧
    (let cs := busy.storeCells (fun l => uncached l == false) 0 32 (busy.storeData 0 120 8)
     cs ≠ [] ∧ busy.storeCells (fun l => uncached l != false) 0 32 (busy.storeData 0 120 8) = [] ∧
       ∀ c ∈ cs, c.1 / 128 = windowKey 0 0 0 / 128) := by
  refine ⟨?_, ?_, ?_, ?_, ?_, ?_, ?_, ?_, ?_, ⟨_, rfl⟩, ?_, ?_, ?_, ?_⟩ <;> decide +kernel

/-- O49: a lane of a fragment execution whose turn it is, one whose turn it is not, one released. -/
theorem witness_ordered :
    let s := fun (rel ord : Nat) =>
      let g := { labGroup with lanes := { Lane.start with pixel := 33, ord := ord } :: List.replicate 7 Lane.blank }
      { labOf g 1 with teams := [(0, { Team.blank with groups := 1, lanes := 1, width := 8, tmoff := some 0, rel := [(33, rel)] })] }
    (∀ p ∈ [(0, 0), (5, 1), (5, 0)], (s p.1 p.2).acts = [0] ∧ 0 < (s p.1 p.2).me.lanes.length ∧
      (s p.1 p.2).clear ⟨[], [(127, 1)], [], []⟩ (ordCheck true) = true ∧ (s p.1 p.2).clear ⟨[], [], [], []⟩ (ordCheck false) = true) ∧
    ((s 0 0).me.lane 0).ord = 0 ∧ fget 0 (s 0 0).myTeam.rel 33 = ((s 0 0).me.lane 0).rank ∧ ((s 5 1).me.lane 0).ord = 1 ∧
    ((s 5 0).me.lane 0).ord ≠ 1 ∧ fget 0 (s 5 0).myTeam.rel 33 ≠ ((s 5 0).me.lane 0).rank ∧
    (s 0 2).clear ⟨[], [], [], []⟩ (ordCheck false) = true ∧ ((s 0 2).me.lane 0).ord = 2 := by
  decide +kernel

/-- The lab at a cycle of die A. -/
def atCycle (s : State) (n : Nat) : State := { s with dieA := { s.dieA with cycle := n } }

/-- Lane 0 parked since cycle 0 beside lane 1 that runs. -/
def parkGroup : Group := { labGroup with lanes := [{ Lane.start with st := .parked }, Lane.start] ++ List.replicate 6 Lane.blank }

/-- O50: a group that is there to run, at each of the events. -/
theorem witness_scheduling :
    lab.groupRuns 0 = true ∧ (lab.grp 0).issueAddr = some 0 ∧ lab.ready 0 = true ∧
    (lab.grp 0).ibuf.any (fun e => e.1 == 0) = false ∧ lab.packetOpen 0 0 = true ∧
    (match lab.fetch 0 0 with | .words _ => true | .fails _ _ _ => false) = true ∧
    (let b : Blocked := ⟨0, 1, 0, [(0, .token 5)]⟩
     let s := atCycle (labOf { labGroup with blocked := some b } 3) 64
     s.groupRuns 0 = true ∧ (s.grp 0).blocked = some b ∧ b.since + 64 ≤ s.clockOf 0 ∧ b.waits ≠ [] ∧
       ((s.grp 0).lane 0).st = .run ∧ ((s.grp 0).lane 0).lpc = b.addr ∧ ((s.grp 0).lane 1).st = .run) ∧
    (let s := labOf { labGroup with spin := { Spin.blank with lanes := 1, count := 4 } } 3
     s.groupRuns 0 = true ∧ 4 ≤ (s.grp 0).spin.count ∧ ((s.grp 0).lane 1).st = .run ∧ (s.grp 0).spin.lanes.getLsbD 1 = false) ∧
    (let s := atCycle (labOf parkGroup 2) (2 ^ 30)
     s.groupRuns 0 = true ∧ ((s.grp 0).lane 0).st = .parked ∧ ((s.grp 0).lane 0).parkedAt + 4096 ≤ s.clockOf 0 ∧
       2 ^ 30 ≤ ((s.grp 0).lane 0).parkSum + (s.clockOf 0 - ((s.grp 0).lane 0).parkedAt)) ∧
    (let l : Look := ⟨[⟨vkey 0 5, 1, false⟩], [(0, 3)], 0, none⟩
     let s := atCycle (labOf { labGroup with looks := [l], sleepTo := 9 } 3) 9
     s.groupRuns 0 = true ∧ ((s.grp 0).looks.drop 0).head? = some l ∧ l.fault = none ∧ (s.grp 0).sleepTo ≠ 0 ∧
       (s.grp 0).sleepTo ≤ s.clockOf 0) ∧
    (let l : Look := ⟨[], [(0, 3)], 0, some ⟨4, 0, 0, 0, 0, 0, false, false⟩⟩
     let s := labOf { labGroup with looks := [l] } 3
     ((s.grp 0).looks.drop 0).head? = some l ∧ l.fault.isSome = true) ∧
    (let s := labOf { labGroup with pend := [(⟨0x11, 0, 0, 0, 0, 0, false, false⟩, 1)] } 3
     s.groupRuns 0 = true ∧ (s.grp 0).mayEnter = true ∧ (s.team (s.grp 0).team).halted = false) := by
  decide +kernel

/-- O51: a group held by each instruction that holds, nothing outstanding. -/
theorem witness_holds :
    let s := fun h => labOf { labGroup with hold := h, blocked := some ⟨0, 3, 0, []⟩ } 3
    (∀ h ∈ [Hold.icinv 0 128, .tlbinv none, .xfence 1 1 .sys, .phase .sys, .fenceAcq .sys, .redflush],
      (s h).groupRuns 0 = true ∧ ((s h).grp 0).hold = h ∧ ((s h).grp 0).unacked .sys = false ∧ ((s h).grp 0).unacked .pkg = false ∧
      ((s h).grp 0).fenceWaits 1 1 .sys = false ∧ ((s h).grp 0).allBarred = false ∧ ((s h).grp 0).hostOps = [] ∧
      ((s h).grp 0).redsOut = 0) ∧
    ((s (.tidset 0 true 0)).tidArrive 0 0 true 0).isSome = true ∧
    (let g := { labGroup with hold := .phase .pkg, lanes := { Lane.start with st := .barred } :: List.replicate 7 Lane.blank }
     ((labOf g 1).grp 0).allBarred = true ∧ (labOf g 1).gbarWaits 0 = false ∧ ((labOf g 1).grp 0).hold = .phase .pkg ∧ ((labOf g 1).grp 0).unacked .pkg = false) := by
  decide +kernel

/-- A store of one byte that has not been sent, and a release beside it. -/
def req (c : Host.Cell) : Request := ⟨[c], none, [], 0, false, false, 0, false, 0, false, none, 0, []⟩

/-- O52: requests at each of their steps, in a lab where every way is open. -/
theorem witness_requests_go :
    let s := fun (l : List Request) => labOf { labGroup with stores := l } 3
    (∀ a ∈ [s [req (64, 1)]], (ffind a.groups 0).isSome = true ∧ a.maySend 0 0 = true ∧ a.wayTo 0 64 0 = true ∧ a.wayBack 0 64 0 = true ∧ a.readPlane 0 64 = 0) ∧
    ((s [req (64, 1)]).grp 0).joiner 0 = none ∧ ((s [req (64, 1), req (65, 2)]).grp 0).joiner 0 = some 1 ∧
    (s [{ req (64, 1) with sent := true }]).mayApply 0 0 = true ∧
    (let r := { req (64, 1) with sent := true, applied := some 7 }
     ((s [r]).grp 0).stores = [r] ∧ r.acked = false ∧ (s [r]).ackOvertakes 0 r = false) ∧
    0 ≤ (lab.part 8).count := by
  decide +kernel

/-- A contribution to the word at 64. -/
def entry_ : RedEntry := ⟨0, .add, 64, 4, 5, false, 0, 0, 0, false, none, 0, 0, 0, none⟩

/-- O52: a buffered reduction. -/
theorem witness_reductions_go :
    let s := { lab with cores := [(0, { Core.start with reds := [entry_] })] }
    ((s.core 0).reds.drop 0).head? = some entry_ ∧ s.redReady 0 0 = true ∧ s.lost 64 = false ∧ s.marked 64 = false := by
  decide +kernel

/-- A team that must spill its staged entry, with an area of so many pages of 64 KiB. -/
def spilling (n : Word) : State :=
  { lab with
    teams := [(0, { Team.blank with groups := 1, lanes := 2, width := 8, halted := true })]
    execs := [(0, { Exec.blank with staged := [(0, entry_)], record := List.replicate 24 0 ++ [n] })] }

/-- O52: an area that is full, and one with room. -/
theorem witness_spills :
    (spilling 1).mustSpill 0 = true ∧ (spilling 1).toSpill 0 = true ∧ (spilling 1).detRoot ((spilling 1).team 0).exec = 0 ∧
    ((spilling 1).exec 0).spilled = 0 ∧ ((spilling 0).exec 0).field 0x60 4 = 0 ∧ ((spilling 1).exec 0).field 0x60 4 = 1 := by
  refine ⟨?_, ?_, ?_, rfl, ?_, ?_⟩ <;> decide +kernel

/-- O52: an area on a page that is there, and on one that is not. -/
theorem witness_spill_pages :
    (match (spilling 1).access ((spilling 1).exec 0).as (((spilling 1).exec 0).field 0x58 8) .write 0 with
      | .ok _ => true | .error _ => false) = true ∧
    (match ({ spilling 1 with dieC := { lab.dieC with asroot := [] } } : State).access 0 0 .write 0 with
      | .ok _ => false | .error _ => true) = true := by
  decide +kernel

/-- O52: a ticket with a batch, of a launch that goes on and of one that failed, with the way open and not; one with none; and an
AtomicOp at its host. -/
theorem witness_tickets_go :
    let u := fun (f : Bool) => { lab with execs := [(0, { Exec.blank with batches := [(0, 0, entry_)], failed := f })] }
    let shut := { u false with links := [(linkNum 0 3 .s 0, ⟨16, true⟩), (linkNum 0 0 .l 0, ⟨16, true⟩)] }
    let h : HostOp := ⟨0, .add, portKey 0 64, 4, 5, 0, 0, none, 0, .rlx, .rlx, [], none⟩
    let v := { labOf { labGroup with hostOps := [h], hold := .hostAtomic } 3 with
      dieC := { lab.dieC with port0 := { Port.start with up := true } } }
    (∀ f : Bool, (ffind (u f).execs 0).isSome = true ∧ ((u f).exec entry_.exec).discards = f ∧
      ((u f).exec 0).batches.find? (fun q => q.1 == ((u f).exec 0).ticket) = some (0, 0, entry_)) ∧
    (u false).waysOpen .dieC (homeEnd 64) 0 = true ∧ (u false).spillBad entry_ = false ∧ (u false).lost 64 = false ∧
    (u false).marked 64 = false ∧ shut.waysOpen .dieC (homeEnd 64) 0 = false ∧ (shut.exec 0).discards = false ∧
    (let e := { Exec.blank with ticket := 5 }
     let w := { lab with execs := [(0, e)] }
     e.batches = [] ∧ e.staged = [] ∧ w.teamOpen 0 5 = false) ∧
    (v.grp 0).hostOps = [h] ∧ (ffind v.groups 0).isSome = true ∧ v.lost h.addr = false ∧
    v.wayBack 0 h.addr (entryPlane 0 h.addr) = true ∧ (v.grp 0).hold = .hostAtomic := by
  decide +kernel

/-- A command of team 0 and group 0. -/
def someCmd : Cmd := { Cmd.blank with id := 1, op := 1, m := 1, args := [0], desc := (slots.head?.bind (fun e => e.2)).getD [] }

/-- O53: copies, array commands, requests, sorts and SPARGE commands at each of their steps. -/
theorem witness_engines :
    let s := { busy with
      cores := [(0, { Core.start with
        copies := [someCmd, { someCmd with id := 2, started := true }, { someCmd with id := 3, team := 9, started := true }]
        tun := { Tun.clear with owner := some 0, queue := [someCmd] } })] }
    let q := (s.core 0).tun
    (s.core 0).copies.find? (fun c => !c.started) = some someCmd ∧ s.alive 0 = true ∧ s.alive 9 = false ∧
    q.queue[0]? = some someCmd ∧ q.mayStart 0 = true ∧ s.runs 0 = true ∧ someCmd.op ≠ opDrn ∧ q.refuses someCmd = none ∧
    (let c := { someCmd with started := true, since := 1 }
     let u := atCycle { s with cores := [(0, { Core.start with tun := { q with queue := [c], order := [3] } })] } (2 ^ 30)
     u.tunGoesOn c = true ∧ c.done < c.tunRows ∧ u.rowTurn 0 c 0 = true ∧ c.listed = false ∧ c.overWait (u.cycle 0) = true) ∧
    (let c := { someCmd with started := true, desc := descWith [(0, 0x20110)] }
     let u := { s with cores := [(0, { Core.start with tun := { q with queue := [c] } })] }
     u.rowTurn 0 c 0 = true ∧ u.tunReady c 0 = false) ∧
    (let c := { someCmd with op := opMm, started := true }
     let d := { someCmd with id := 2, op := opDrn, started := true, args := [0, 0, 0x4000] }
     let u := { s with cores := [(0, { Core.start with tun := { q with queue := [d, c] } })] }
     c.done < c.tunRows ∧ u.rowTurn 0 c 0 = false) ∧
    (let T := { Tun.clear with leaving := some 0, clearTo := some 0, heldTo := some 0 }
     T.leaving.isSome = true ∧ T.queue = [] ∧ T.clearTo = some 0 ∧ T.heldTo = some 0) := by
  decide +kernel

/-- Where no link trains, every way is open. -/
theorem way_open_without_links (s : State) (h : s.links = []) (a b : End) (p : Nat) : s.wayOpen a b p = true := by
  simp [State.wayOpen, State.linkAt, h, fget, Link.idle]

/-- Where no request waits, none is overtaken. -/
theorem nothing_behind (s : State) (h : s.groups.all (fun e => e.2.stores.isEmpty) = true) (k : Nat) (t : Traffic) (key p : Nat) :
    s.behind k t key p = false := by
  simp only [List.all_eq_true, List.isEmpty_iff] at h
  simp only [State.behind, State.anyRequest, List.any_eq_false]
  intro e he
  simp [h e he]

/-- O53: the ray unit's packets go everywhere. -/
theorem witness_ray_ways : ∀ k va, busy.fetchOpen k .ray (busy.spaceOf k) va = true := by
  intro k va
  unfold State.fetchOpen
  split
  · rfl
  · simp only [State.mayGo, State.wayTo, State.wayBack]
    rw [way_open_without_links _ rfl, way_open_without_links _ rfl, nothing_behind _ rfl]
    rfl

/-- A copy of four bytes between address 0 and scratchpad word 0. -/
def byteCopy (mode : Nat) : Cmd :=
  { someCmd with op := mode, m := 0, desc := descWith ((0, 0x110) :: dimWords 4), args := [], seg := labGroup.seg, started := true }

/-- O53: the last byte of the first part of a tile copy that the tensor holds, one past the tensor, and a store's piece. -/
theorem witness_copies_move :
    let c := byteCopy modeTile
    let far := { c with args := [1] }
    let d := byteCopy modeStore
    let s0 := busy.landWords c.group 1 false [(c.off + 8 * 0) / 4, (c.off + 8 * 0) / 4 + 1]
    c.op = modeTile ∧ c.bank = 0 ∧ c.t5 = false ∧ Desc.fmt c.desc ≠ fmtS4 ∧ Desc.fmt c.desc ≠ fmtTrit ∧ Desc.skew c.desc = 0 ∧
    c.rowBytes ≤ c.pitch ∧ c.off % 8 = 0 ∧ 3 / c.pitch < c.rows ∧ 3 % c.pitch < c.rowBytes ∧
    (Desc.inDim c.desc 0 (c.coord 0 + (3 / c.size : Nat)) && Desc.rowIn c.desc (c.upper 0)) = true ∧
    (Desc.inDim far.desc 0 (far.coord 0 + (3 / far.size : Nat)) && Desc.rowIn far.desc (far.upper 0)) = false ∧
    (match s0.engineAt c.space (Segs.covers c.seg (Desc.space c.desc) 3 c.size) 3 .read with
      | .ok e => decide (e.2 % 8 + c.size ≤ 8 ∧ ffind busy.parts (e.2 / 8) = none) | .error _ => false) = true ∧
    d.op = modeStore ∧ d.bank = 0 ∧ d.per = 1 ∧ Desc.skew d.desc = 0 ∧ 0 < d.size ∧
    Desc.inDim d.desc 0 (d.coord 0 + (3 % d.pieces : Nat)) = true ∧ Desc.rowIn d.desc (d.upper (3 / d.pieces)) = true ∧
    (match busy.engineAt d.space (Segs.covers d.seg (Desc.space d.desc) 3 d.size) 3 .write with | .ok _ => true | .error _ => false)
      = true := by
  decide +kernel

/-- O53: a row of a product whose vector lies in the scratchpad, and dies where an accumulator's error is reported. -/
theorem witness_product_rows :
    (let c := { someCmd with op := opMm, desc := descWith [(0, 0x110)], seg := busyGroup.seg }
     c.op = opMm ∧ busy.tunPlace c 0 = .ok (some 0) ∧ fwf 0 ((busy.core 0).tun.bankOf c.bank).cells = true) ∧
    busy.dieFence 0 ≠ 2 := by
  refine ⟨⟨rfl, by rfl, by rfl⟩, by decide +kernel⟩

/-- O53: a request of each queue, a sort, and a SPARGE command. -/
theorem witness_engines_of_dies :
    let r : RayReq := ⟨0, false, [], 0, 0, 0, ⟨1, [], []⟩, Segs.blank, false, []⟩
    let s := { busyOf { busyGroup with rays := [r, { r with queue := 2 }, { r with queue := 4 }] } with
      teams := [(0, { Team.blank with groups := 1, lanes := 2, width := 8 }), (5, { Team.blank with callable := true, core := noCore })]
      dieA := { Die.start with grist := [someCmd] }
      sparges := [(0, { Sparge.idle with queue := [{ someCmd with m := 5, desc := descWith [(12, 8)] }] })] }
    (∀ q ∈ [0, 2, 4], (takeRequest q (s.grp 0).rays).isSome = true) ∧ (s.die 0).grist = [someCmd] ∧ s.lives 0 = true ∧ s.lives 9 = false ∧
    (let c := { someCmd with m := 5, desc := descWith [(12, 8)] }
     (s.sparge 0).queue = [c] ∧ c.started = false ∧ s.dieC.rsPhase ≠ 1 ∧ s.spargeSees c = true ∧ s.dieDown 0 = false ∧
       (s.borderVas 0 c).all (s.wayAt (spargeEnd 0) c.space) = true ∧ s.tellOpen (spargeEnd 0) c = true ∧
       s.callableRooms 0 (s.exec (s.team c.m).exec).pool (pBudget c.desc) ≠ [] ∧ (s.sparge 0).fault = none) ∧
    (∀ p ∈ [0, 3], ({ s.dieC with bootstat := 6, rsPhase := p } : DieC).open_ = true ∧ ({ s.dieC with rsPhase := p } : DieC).rsCheck = true) ∧
    ({ s.dieC with rsdim := 0 } : DieC).rsCheck = false ∧ s.dieC.rsEnabled = true ∧ lab.rsBusy = false := by
  decide +kernel

/-- The words of a slot record: SHAPE 8 in class 1, 8 registers, 512 KiB of scratchpad, one context block, and a priority. -/
def recordOf (prio : Word) : List Word :=
  (List.range 64).map (fun j => (ffind [(4, prio * 256), (5, 0x00010008), (6, 0x00080000), (7, 1), (8, 0x80000), (25, 1)] j).getD 0)

/-- Core 0 alone of its die, whose one team has all its scratchpad; a launch of a priority has a team pending there. -/
def packed (prio : Word) (t : Team) : State :=
  { labOf { labGroup with budget := 8 } 1 with
    teams := [(0, t)]
    execs := [(0, { Exec.blank with record := recordOf 0 }), (1, { Exec.blank with record := recordOf prio, pendA := [0] })]
    cores := [(0, { Core.start with split := some 1 })]
    dieA := { Die.start with corestat := (List.range 95).map (fun i => (i + 1, true)) }
    dieC := { lab.dieC with bootstat := 6, dispctl := 0x00000011 } }
def packedTeam : Team := { Team.blank with groups := 1, lanes := 8, width := 8 }

/-- O54: a group that may retire, a team that is dead, and one that may be saved. -/
theorem witness_teams_end :
    (labOf { labGroup with lanes := List.replicate 8 Lane.blank } 3).mayRetire 0 = true ∧
    (let s := { lab with teams := [(0, { packedTeam with dead := true })] }
     (ffind s.teams 0).isSome = true ∧ (s.team 0).callable = false ∧ (s.team 0).dead = true) ∧
    ({ lab with teams := [(0, { packedTeam with halted := true })] } : State).maySave 0 = true := by
  decide +kernel

/-- O54: a victim and its block, and a new team that waits and does not fit. -/
theorem witness_preemption :
    let s := packed 1 packedTeam
    (ffind s.teams 0).isSome = true ∧ s.victim (coreDie (s.team 0).core) = some 0 ∧ (s.exec (s.team 0).exec).freeBlock = some 0 ∧
    s.controlOpen 0 = true ∧ s.dieDown 0 = false ∧ s.dieC.stopped = false ∧ (s.drains 0).firstFit 0 = none := by
  decide +kernel

/-- O54: a saved team whose turn it is on its core, with a block that reads and one that does not, and a new team for which there is
room. -/
theorem witness_placement :
    let s := packed 0 { packedTeam with saved := true, halted := true, block := some 0 }
    let d := s.drains (coreDie 0)
    let gone := { s with teams := [] }
    let g := gone.drains 0
    (∃ w, d.firstFit (coreDie 0) = some (w, 0) ∧ w.saved = some 0 ∧ (d.fitGone 0 w []).isSome = true) ∧ d.controlOpen 0 = true ∧
    d.contextFault (d.exec (d.team 0).exec) .read ((d.exec (d.team 0).exec).context + blockBytes * (d.team 0).block.getD 0) blockBytes = none ∧
    (let e := { s with dieC := { s.dieC with asroot := [] } }
     (e.drains 0).contextFault (e.exec 0) .read (e.exec 0).context blockBytes = some (6, 0)) ∧
    gone.dieDown 0 = false ∧ gone.dieC.stopped = false ∧
    (∃ w, g.firstFit 0 = some (w, 0) ∧ w.saved = none ∧ g.controlOpen 0 = true) ∧
    (∃ w, d.firstFit 0 = some (w, 0) ∧ w.saved ≠ none) := by
  refine ⟨⟨⟨0, 0, 0, 0, some 0⟩, ?_⟩, ?_, ?_, ?_, ?_, ?_, ⟨⟨0, 0, 0, 1, none⟩, ?_⟩, ⟨⟨0, 0, 0, 0, some 0⟩, ?_⟩⟩ <;> decide +kernel

/-- O54: a slot that is watched, an execution that may start, a slot of no memory, and LAUNCH to a slot, past the table, and of a team
that is gone. -/
theorem witness_dispatch :
    let c : DieC := { lab.dieC with bootstat := 6, dispctl := 0x11 }
    let s := { lab with dieC := c, mem := [(0x17, 0x05), (0xD4, 1)] ++ lab.mem }
    let cmd : Cmd := { Cmd.blank with id := 7, args := [1] }
    let l := fun (x : Cmd) => ({ s with dieC := { c with launches := [x] } } : State)
    s.watches 0 = true ∧ s.slotThere 0 = true ∧ s.mayStart 0 = true ∧
    (let z := { s with dieC := { c with slotbase := 0xFFFFFFFFFFF00000 } }
     z.watches 0 = true ∧ z.slotThere 0 = false) ∧
    (∀ x ∈ [cmd, { cmd with op := 9 }],
      (l x).dieC.launches.find? (fun c => c.id == 7) = some x ∧ (l x).lives x.team = true ∧ (l x).launchOpen x = true ∧ x.started = false ∧ (l x).launchReady x = true) ∧
    ({ l cmd with links := [(linkNum 0 3 .s 0, ⟨16, true⟩)] } : State).launchOpen cmd = false ∧
    c.slotCount ≤ 9 ∧ cmd.op < c.slotCount ∧ s.slotValid cmd.op = true ∧ s.slotDevl cmd.op = true ∧ nth 0 cmd.args 0 ≠ 0 ∧
    (l { cmd with team := 9 }).lives 9 = false := by
  decide +kernel

/-- O54: an empty core that drains, a fragment team with a batch left, a raster execution, a package barrier that is overdue, a section
that is overdue, and a leaf. -/
theorem witness_team_events :
    ({ lab with cores := [(1, { Core.start with drain := some 2 })] } : State).resident 1 = [] ∧
    ({ lab with cores := [(1, { Core.start with drain := some 2 })] } : State).keepsContext 1 = false ∧
    (let s := { labOf { labGroup with retired := true } 3 with
       teams := [(0, { packedTeam with tmoff := some 0, frags := List.replicate 9 ⟨0, 0, 0, 0, 0, 0⟩, batch := 1 })] }
     s.runs 0 = true ∧ (s.team 0).tmoff.isSome = true ∧ (s.team 0).batch < (s.team 0).batches ∧ s.retiredPlace 0 = some 0) ∧
    (let s := { lab with execs := [(0, { Exec.blank with raster := some [] })] }
     (s.exec 0).raster = some [] ∧ s.dieDown (s.upDie (s.exec 0).home) = false) ∧
    (let s := atCycle { lab with execs := [(0, { Exec.blank with gbars := [(3, { GBar.start with since := some 0 })] })] } (2 ^ 30)
     (ffind s.execs 0).isSome = true ∧ ((s.exec 0).gbar 3).overdue s.dieA.cycle = true) ∧
    (let s := atCycle (labOf { labGroup with lanes := { Lane.start with ord := 1 } :: List.replicate 7 Lane.blank } 1) (2 ^ 20)
     s.groupRuns 0 = true ∧ s.overdue 0 ≠ []) ∧
    (∃ l, lab.walk 0 0x1000 = .leaf l) := by
  refine ⟨?_, ?_, ?_, ?_, ?_, ?_, ⟨_, rfl⟩⟩ <;> decide +kernel

/-- O55: errors of a register, and of other state; fences that have something to do and that have none; resets under way. -/
theorem witness_resets :
    lab.groupRuns 0 = true ∧ 0 < (lab.grp 0).width ∧
    (∀ d ∈ [0, 1], lab.fences d 1 = true ∧ lab.fences d 2 = true) ∧
    (let s := { lab with dieA := { Die.start with state := 2 } }
     s.fences 0 1 = false ∧ s.fences 0 2 = false) ∧
    (let s := fun n => ({ lab with dieA := { Die.start with state := 3, domain := n } } : State)
     ((s 1).die 0).state = 3 ∧ ((s 1).die 0).domain ≠ 2 ∧ ((s 2).die 0).state = 3 ∧ ((s 2).die 0).domain = 2) ∧
    (let s := { lab with dieA := { Die.start with testing := true }, teams := [] }
     (s.die 0).testing = true ∧ (s.die 0).state = 0 ∧ s.testTeams 0 = [] ∧ (∃ j, j < 96 ∧ (2 ^ 95 : Nat).testBit j = false ∧
       fget false (s.die 0).corestat j = false)) ∧
    (∀ n ∈ [0, 1, 2, 3, 5], ({ lab.dieC with bootstat := n } : DieC).booting = true) ∧ ({ lab.dieC with bootstat := 6 } : DieC).booting = false ∧
    (∀ d ∈ [0, 1], lab.dieFence d ≠ 2) ∧
    (let s := { lab with dieC := { lab.dieC with bootstat := 6 } }
     s.dieC.open_ = true ∧ (s.die (ctlDie 1)).state ≠ 3 ∧ ctlCmd 1 = 1 ∧ ctlCmd 2 = 2 ∧ ctlCmd 3 = 3 ∧ ctlDie 2 = 0 ∧ ctlDie 3 = 0) := by
  decide +kernel

/-- O56: links at each of their steps, and a lane that is the lowest of its link. -/
theorem witness_links :
    let s := fun (x : Link) => ({ lab with links := [(linkNum 0 0 .e 0, x)] } : State)
    let k := linkNum 0 0 .e 0
    arbiterThere 0 = false ∧ arbiterThere (2 * k) = true ∧ arbiterThere (4 * 735 + 3) = true ∧ arbiterThere (4 * 736 + 1) = false ∧
    linkThere k = true ∧ ((s ⟨15, false⟩).linkAt k) = ⟨15, false⟩ ∧ ((s ⟨16, false⟩).linkAt k) = ⟨16, false⟩ ∧
    ((s ⟨16, true⟩).linkAt k).training = true ∧
    (let c : DieC := { lab.dieC with bootstat := 6, linkctl := [(0, 1)] }
     c.lowestLane 2 = true ∧ c.open_ = true ∧ c.bond 0 ≠ bits (2 : Word).toNat 0 2) := by
  decide +kernel

/-- O56: a communicator of two ranks with a command of this module, the other rank's part there or missing, refused and lost. -/
theorem witness_collectives :
    let cmd : Cmd := { Cmd.blank with op := 32, args := [0, 0, 0] }
    let part : Nat → Nat → Contribution := fun r k => ⟨r, k, 0, 11, 0, 0, []⟩
    let c : DieC := { lab.dieC with bootstat := 6, linkctl := [(0, 0)], trained := [(0, true)], routes := [(1, 0)] }
    let at_ := fun (x : Comm) => ({ lab with dieC := { c with comms := [(0, x)] } } : State)
    let x : Comm := ⟨0x80000400, none, [cmd], [], []⟩
    let full : Comm := { x with parts := [part 0 2, part 1 2] }
    c.usable x.reg = true ∧ 1 < commRanks x.reg ∧ 1 ≠ c.ownRank x.reg ∧ x.part 1 = none ∧
    0 = c.ownRank x.reg ∧ x.joined 0 = false ∧ (at_ x).collLives cmd = true ∧ (at_ x).tellOpen .dieC cmd = true ∧ ((at_ x).comm 0).cmds = [cmd] ∧
    ({ at_ x with links := [(linkNum 0 3 .s 0, ⟨16, true⟩)] } : State).tellOpen .dieC cmd = false ∧
    (∀ r ∈ [0, 1], full.joined r = true) ∧ commRanks full.reg = 2 ∧ full.refused cmd = none ∧
    (({ x with parts := [part 0 0, part 1 2] } : Comm).refused cmd).isSome = true ∧
    (at_ x).collLives { cmd with team := 9 } = false ∧ (at_ x).missing x = some 0 ∧
    (at_ { x with cmds := [], parts := [part 1 2] }).missing { x with cmds := [], parts := [part 1 2] } = some 0 := by
  decide +kernel

/-- A head of 16 columns of 32 and 16 lines of 40 at 25 MHz, and a display engine whose Kiln is bound to head 0. -/
def someHead : Head := { Head.off with hctl := 1, htim0 := 0x00200010, htim1 := 0x00280010, hclk := 25000 }
def someDisp (h : Head) (k : Word) : Display := { Display.off with head0 := h, kctl := k, kcur := k }
def showing (d : Display) : State := { lab with dieA := { Die.start with display := d }, dieC := { lab.dieC with bootstat := 6 } }

/-- O57: a head whose checks pass and one whose checks fail, a link in training and one that is up, lines, and a frame of head 2 that has
ended. -/
theorem witness_heads :
    (let s := showing (someDisp { someHead with hctl := 0 } 0)
     s.displays 0 = true ∧ s.dieC.open_ = true ∧ hEn ((s.disp 0).head 0).hctl = false ∧ hEn 1 = true ∧
       ((s.disp 0).setHead 0 { ((s.disp 0).head 0) with hctl := 1 &&& hctlMask }).headOk 0 = true ∧
       ((s.disp 0).setHead 0 { ((s.disp 0).head 0) with hctl := 0x701 &&& hctlMask }).headOk 0 = false) ∧
    (let h := { someHead.latch with running := true, training := true }
     let X := someDisp h 0
     hEn h.hctl = true ∧ hEn 0 = false ∧ h.running = true ∧ h.up = false ∧ ({ h with clk := 0 } : Head).fits = true ∧
       X.lineWaits 0 = false ∧ h.line = 0 ∧ X.headOk 0 = true ∧ (someDisp { h with htim0 := 0 } 0).headOk 0 = false ∧
       (someDisp { h with line := 39 } 0).lineWaits 0 = false ∧ h.vtot = 40) ∧
    ({ someDisp someHead 0 with owed := some (1, 0) } : Display).owed = some (1, 0) := by
  refine ⟨?_, ?_, ?_⟩ <;> decide

/-- A running Kiln whose bound head stands at a line, and a frame with a program and a source. -/
def someFrame : KFrame := ⟨0, 0x311, some 1, 0, false, 0, 0, some [], false, 0, false, [], 0, 0, 0, []⟩
def someSource : Source := ⟨[0, 0, 0x00080008], none, [], 0⟩
def kilnAt (line : Nat) (fs : List KFrame) : Display :=
  { someDisp { someHead.latch with running := true, line := line } 0x311 with
    run := true, reading := some 0, sources := [(1, someSource)], cur := some 1, frames := fs }

/-- O58: Kiln at each of its steps. -/
theorem witness_kiln :
    (someDisp someHead 0x311).kilnFits = true ∧ (someDisp someHead 1).kilnFits = false ∧ kEn 0x311 = true ∧ kEn 0 = false ∧
    (showing (kilnAt 0 [])).displays 0 = true ∧ (showing (kilnAt 0 [])).dieC.open_ = true ∧
    (kilnAt 37 []).latchDue = true ∧ (kilnAt 0 []).reading = some 0 ∧
    (kilnAt 0 [someFrame]).nextNet = some someFrame ∧
    (let f := { someFrame with working := true }
     (kilnAt 0 [f]).frames.find? KFrame.working = some f ∧ f.prog = some [] ∧ (kilnAt 0 [f]).sourceOf f = some someSource) ∧
    (kilnAt 0 [someFrame]).deadlineAt = some someFrame ∧ someFrame.done.contains someFrame.due = false ∧
    (let f := { someFrame with done := [0] }
     (kilnAt 0 [f]).deadlineAt = some f ∧ f.done.contains f.due = true ∧ f.fall = 0) ∧
    (∀ n ∈ [1, 2], let f := { someFrame with fall := n }
     (kilnAt 0 [f]).frames.find? (fun f => f.fall == n) = some f ∧ (kilnAt 0 [f]).sourceOf f = some someSource ∧
       (kilnAt 0 [f]).underAt = some f) ∧
    (let X := kilnAt 0 []
     X.source = some someSource ∧ X.estimates someSource = true ∧ someSource.blocks < blocksIn someSource.entry) := by
  decide +kernel

/-- A port whose window maps an address space that has a leaf, for a range that the host may ask for. -/
def hosted (x : Port) : State := { lab with dieC := { lab.dieC with bootstat := 6, port0 := x } }
def somePort : Port := { Port.start with up := true, hwctl := 0x80000000 }

/-- O59: a window that maps, on a page with SYSATOM and on one without, and a window that does not. -/
theorem witness_hosts :
    (∀ acc ∈ [Access.read, .write, .both], (hosted somePort).mayAsk 0 64 8 acc = true) ∧ (hosted somePort).tainted 64 = false ∧ ((hosted somePort).window 0 64 .read).isSome = true ∧
    ((hosted somePort).window 0 64 .write).isSome = true ∧ ((hosted somePort).window 0 64 .both).isSome = true ∧
    (hosted somePort).marked 64 = false ∧
    ((hosted somePort).window 0 64 .both).any (fun x => pteSys x.1.entry) = true ∧
    (({ hosted somePort with mem := [(0x10000, 0x01), (0x10003, 0x12), (0x12000, 0xBF)] } : State).window 0 64 .both).any
      (fun x => !pteSys x.1.entry) = true ∧
    ({ lab.dieC with extending := [1, 0] } : DieC).extending.head? = some 1 ∧
    (hosted { somePort with hwctl := 0 }).mayAsk 0 64 8 .both = true ∧ (hosted { somePort with hwctl := 0 }).window 0 64 .both = none ∧
    (hosted somePort).reaches 0 = true ∧ somePort.evEn = false ∧ somePort.busy = false ∧ flashFits (0, 65536) = true ∧
    flashFits (1, 65536) = false := by
  decide +kernel

/-- O60: registers that act and that do not, and a full fence that has something to do. -/
theorem witness_registers :
    (hosted somePort).dieC.open_ = true ∧ lab.dieC.open_ = false ∧ lab.fences 0 2 = true ∧ (0 : Dword).setWidth 32 = (0 : Word) := by
  decide

/-- The spec's worked example (R324): the copy's responses at planes 0 to 7 of VC 5 and the chase's at plane 3 of VC 7, from cycle 1000 on
with no promotion, and in cycle 1016 with the chase promoted. -/
theorem test_arbiter_example :
    let heads := [5, 13, 21, 29, 31, 37, 45, 53, 61].map (fun r => (r, 1))
    let turn := fun (x : Arbiter) => x.turn 64 63 (netWeight 0x0C40037F) heads
    let after := fun n => (List.range n).foldl (fun x _ => (turn x).2) ⟨37, 1, 1000, 0, []⟩
    (turn (after 2)).1 = some 37 ∧
    ([3, 7, 11, 15, 16].map (fun n => ((after n).ptr, (after n).burst))) = [(37, 4), (45, 4), (53, 4), (61, 4), (5, 1)] ∧
    (turn (after 31)).1 = some 31 ∧ ageLimit 0x0C40037F 1 = 16 ∧
    (let r := turn ⟨5, 1, 1016, 0, [⟨31, 16, some 1015⟩]⟩
     r.1 = some 31 ∧ (r.2.ptr, r.2.burst) = (5, 1)) := by
  decide

/-- SHA-256 of the three letters abc, as FIPS 180-4, which the spec names, publishes it (R444). -/
theorem test_sha256 : beNat (sha256 [0x61, 0x62, 0x63]) = 0xBA7816BF8F01CFEA414140DE5DAE2223B00361A396177A9CB410FF61F20015AD := by
  decide +kernel

/-- A block of one colour gives that colour; a block of HDR gives the error colour (R244). -/
theorem test_astc_constant :
    astcTexel 4 false 0x80004000FFFF0000FFFFFFFFFFFFFDFC 0 0 = [0, 65535, 16384, 32768] ∧
    astcTexel 4 false 0x80004000FFFF0000FFFFFFFFFFFFFFFC 0 0 = [65535, 0, 65535, 65535] := by
  decide

end

end Sys2Proof.Tests
end

section
/-!
What the group's operations leave alone: parking, waking, publishing and translating change how a group waits and what it knows, and
no register, queue, control register or instruction buffer of any group.
-/

namespace Sys2Proof.Machine

/-! ### Groups that differ in their waits alone -/

/-- `h` is `g` but for its lanes, what they wait for, its spin detector, its store requests and what it knows of completed commands. -/
structure Group.Alike (g h : Group) : Prop where
  eq : h = { g with
    lanes := h.lanes, blocked := h.blocked, spin := h.spin, stores := h.stores, unread := h.unread, learnt := h.learnt
    toldRsvs := h.toldRsvs }

theorem Group.Alike.refl (g : Group) : g.Alike g := ⟨rfl⟩

theorem Group.Alike.trans {f g h : Group} (hfg : f.Alike g) (hgh : g.Alike h) : f.Alike h :=
  ⟨hgh.eq.trans (congrArg (fun x : Group => { x with
    lanes := h.lanes, blocked := h.blocked, spin := h.spin, stores := h.stores, unread := h.unread, learnt := h.learnt
    toldRsvs := h.toldRsvs }) hfg.eq)⟩

theorem Group.Alike.v {g h : Group} (e : g.Alike h) : h.v = g.v := by rw [e.eq]
theorem Group.Alike.s {g h : Group} (e : g.Alike h) : h.s = g.s := by rw [e.eq]
theorem Group.Alike.csr {g h : Group} (e : g.Alike h) : h.csr = g.csr := by rw [e.eq]
theorem Group.Alike.ibuf {g h : Group} (e : g.Alike h) : h.ibuf = g.ibuf := by rw [e.eq]
theorem Group.Alike.team {g h : Group} (e : g.Alike h) : h.team = g.team := by rw [e.eq]

theorem Group.wake_alike (now : Nat) (p : WaitOn → Bool) (g : Group) : g.Alike (g.wake now p) := ⟨rfl⟩

/-! ### States all of whose groups are alike -/

/-- No group has changed but in its waits. -/
def State.GroupsAlike (s t : State) : Prop := ∀ j, (s.grp j).Alike (t.grp j)

theorem State.GroupsAlike.trans {s t u : State} (hst : s.GroupsAlike t) (htu : t.GroupsAlike u) : s.GroupsAlike u :=
  fun j => (hst j).trans (htu j)

theorem State.groupsAlike_of_eq {s t : State} (h : t.groups = s.groups) : s.GroupsAlike t := fun j => by
  rw [show t.grp j = s.grp j by simp only [State.grp, h]]; exact .refl _

/-- A chain of changes, each of which leaves the groups alike. -/
theorem State.groupsAlike_foldl {α : Type} (f : State → α → State) (hf : ∀ (t : State) e, t.GroupsAlike (f t e)) (l : List α) (s : State) :
    s.GroupsAlike (l.foldl f s) := by
  induction l generalizing s with
  | nil => exact groupsAlike_of_eq rfl
  | cons e l ih => exact (hf s e).trans (ih (f s e))

theorem ffind_fmapVals {α β : Type} (f : Nat → α → β) (m : FMap α) (j : Nat) : ffind (fmapVals f m) j = (ffind m j).map (f j) := by
  induction m with
  | nil => rfl
  | cons e m ih =>
    obtain ⟨k, v⟩ := e
    simp only [fmapVals, List.map_cons, ffind] at ih ⊢
    split
    · subst_vars; rfl
    · exact ih

theorem State.mapGroups_alike (s : State) (f : Nat → Group → Group) (hf : ∀ j (g : Group), g.Alike (f j g)) : s.GroupsAlike (s.mapGroups f) := by
  intro j
  simp only [State.grp, State.mapGroups_groups, ffind_fmapVals]
  cases ffind s.groups j with
  | none => exact .refl _
  | some g => exact hf j g

theorem State.setGrp_alike (s : State) (k : Nat) (g : Group) (h : (s.grp k).Alike g) : s.GroupsAlike (s.setGrp k g) := by
  intro j
  by_cases hj : j = k
  · subst hj; simpa using h
  · rw [State.grp_setGrp_other s hj]; exact .refl _

theorem State.onMe_alike (s : State) (f : Group → Group) (h : s.me.Alike (f s.me)) : s.GroupsAlike (s.onMe f) :=
  s.setGrp_alike s.unit.g _ h

theorem State.onGrp_of_some {s : State} {k : Nat} {g : Group} (h : ffind s.groups k = some g) (f : Group → Group) :
    s.onGrp k f = s.setGrp k (f (s.grp k)) := by
  simp only [State.onGrp, State.grp, h, Option.getD_some]

theorem State.onGrp_alike (s : State) (k : Nat) (f : Group → Group) (h : (s.grp k).Alike (f (s.grp k))) :
    s.GroupsAlike (s.onGrp k f) := by
  cases hk : ffind s.groups k with
  | none => simp only [State.onGrp, hk]; exact groupsAlike_of_eq rfl
  | some g => rw [State.onGrp_of_some hk]; exact s.setGrp_alike k _ h

/-- The registers of the unit's group are kept. -/
theorem State.GroupsAlike.regsKept {s t : State} (h : s.GroupsAlike t) (hg : t.unit.g = s.unit.g) : RegsKept s t := by
  have e : s.me.Alike t.me := by simpa only [State.me, hg] using h s.unit.g
  constructor <;> rw [e.eq]

/-! ### Waking -/

theorem State.wakeLines_alike (s : State) (ls : List Nat) : s.GroupsAlike (s.wakeLines ls) := s.mapGroups_alike _ fun _ _ => ⟨rfl⟩

theorem State.wakeTags_alike (s : State) (team : Nat) (ws : List Nat) : s.GroupsAlike (s.wakeTags team ws) :=
  s.mapGroups_alike _ fun _ g => by
    split
    · exact g.wake_alike _ _
    · exact .refl g

end Sys2Proof.Machine
end

section
/-!
Translating and fetching: the walker's writes wake lanes and change nothing else of a group, and a refill leaves the buffer with the
packet and some that follow it (R136, R354).
-/

namespace Sys2Proof.Machine

/-! ### A write at its home -/

@[simp] theorem State.logRas_groups (s : State) (d kind : Nat) (latent : Bool) (place addr : Nat) :
    (s.logRas d kind latent place addr).groups = s.groups := by
  unfold State.logRas State.reports
  split
  · rfl
  · exact State.setDie_groups s d _

@[simp] theorem State.logRefused_groups (s : State) (cs : List Host.Cell) : (s.logRefused cs).groups = s.groups := by
  unfold State.logRefused
  generalize s.refusedSectors cs = ks
  induction ks generalizing s with
  | nil => rfl
  | cons k ks ih => rw [List.foldl_cons, ih, State.logRas_groups]

@[simp] theorem State.takeNumber_groups (s : State) (key : Nat) : (s.takeNumber key).1.groups = s.groups := by
  unfold State.takeNumber
  split
  · unfold State.countDrop; split <;> simp
  · unfold State.number; split <;> rfl

theorem State.takeNumbers_groups (key : Nat → Nat) (ls : List Nat) (r : State × Word) :
    (ls.foldl (fun r l => r.1.takeNumber (key l)) r).1.groups = r.1.groups := by
  induction ls generalizing r with
  | nil => rfl
  | cons l ls ih => rw [List.foldl_cons, ih, State.takeNumber_groups]

theorem State.versions_groups (whole : Bool) (a : Agent) (olds : List (Nat × Part)) (s : State) :
    (olds.foldl (fun t e => t.version a whole e.2 e.1) s).groups = s.groups := by
  induction olds generalizing s with
  | nil => rfl
  | cons e olds ih => rw [List.foldl_cons, ih]; rfl

/-- A write at its home wakes the spins that read its lines (R19), and changes nothing else of a group. -/
theorem State.applyAs_alike (s : State) (whole : Bool) (a : Agent) (cs : List Host.Cell) : s.GroupsAlike (s.applyAs whole a cs).1 := by
  unfold State.applyAs
  extract_lets eff olds s1 s2 s3 s4
  have hwritten : s3.groups = s.groups := (State.versions_groups whole a olds s1).trans (State.logRefused_groups s cs)
  exact ((State.groupsAlike_of_eq hwritten).trans (s3.wakeLines_alike _)).trans
    (State.groupsAlike_of_eq (State.takeNumbers_groups _ _ (s4, 0)))

/-! ### Translating -/

theorem State.walkerSets_alike (s : State) (l : Leaf) (m : Byte) : s.GroupsAlike (s.walkerSets l m) := s.applyAs_alike false _ _

theorem State.touch_alike (s : State) (space : Nat) (l : Leaf) (writes : Bool) : s.GroupsAlike (s.touch space l writes) := by
  unfold State.touch
  extract_lets s1 s2
  have hA : s.GroupsAlike s1 := by
    unfold s1; split
    · exact State.groupsAlike_of_eq rfl
    · exact s.walkerSets_alike l _
  have hD : s1.GroupsAlike s2 := by
    unfold s2; split
    · exact s1.walkerSets_alike l _
    · exact State.groupsAlike_of_eq rfl
  exact (hA.trans hD).trans (State.groupsAlike_of_eq rfl)

/-! ### The instruction buffer -/

/-- `g` with another instruction buffer has, but for its waits, become `h`. -/
def Group.Refilled (g h : Group) : Prop := Group.Alike { g with ibuf := h.ibuf } h

theorem Group.Alike.refilled {g h : Group} (e : g.Alike h) : g.Refilled h := by
  unfold Group.Refilled; rw [e.ibuf]; exact e

theorem Group.Refilled.v {g h : Group} (e : g.Refilled h) : h.v = g.v := (show Group.Alike _ h from e).v
theorem Group.Refilled.s {g h : Group} (e : g.Refilled h) : h.s = g.s := (show Group.Alike _ h from e).s
theorem Group.Refilled.csr {g h : Group} (e : g.Refilled h) : h.csr = g.csr := (show Group.Alike _ h from e).csr

theorem Group.Refilled.trans {f g h : Group} (hfg : f.Refilled g) (hgh : g.Refilled h) : f.Refilled h := by
  unfold Group.Refilled at *
  have : Group.Alike { f with ibuf := h.ibuf } { g with ibuf := h.ibuf } :=
    ⟨congrArg (fun x : Group => { x with ibuf := h.ibuf }) hfg.eq⟩
  exact this.trans hgh

/-- A packet enters a group's buffer at its end. -/
theorem State.takePacket_ibuf (s : State) (k pkt : Nat) (ws : List (Word × Leaf × Nat)) :
    ((s.takePacket k pkt ws).grp k).ibuf = (s.grp k).ibuf ++ [(pkt, ws.map Prod.fst)] := by
  have htouch := State.groupsAlike_foldl (fun t (e : Word × Leaf × Nat) => t.touch (t.spaceOf k) e.2.1 false)
    (fun t e => t.touch_alike _ _ _) ws s k
  rw [← htouch.ibuf]
  exact congrArg Group.ibuf (State.grp_setGrp_same _ k _)

theorem State.takePacket_refilled (s : State) (k pkt : Nat) (ws : List (Word × Leaf × Nat)) (j : Nat) :
    (s.grp j).Refilled ((s.takePacket k pkt ws).grp j) := by
  have htouch := State.groupsAlike_foldl (fun t (e : Word × Leaf × Nat) => t.touch (t.spaceOf k) e.2.1 false)
    (fun t e => t.touch_alike _ _ _) ws s j
  refine htouch.refilled.trans ?_
  unfold State.takePacket
  extract_lets s1 c core s2 g
  show (s2.grp j).Refilled ((s2.setGrp k { g with ibuf := g.ibuf ++ [(pkt, ws.map Prod.fst)] }).grp j)
  by_cases hj : j = k
  · subst hj; rw [State.grp_setGrp_same]; exact ⟨rfl⟩
  · rw [State.grp_setGrp_other _ hj]; exact (Group.Alike.refl _).refilled

theorem State.fetchOn_refilled (s : State) (k pkt n j : Nat) : (s.grp j).Refilled ((s.fetchOn k pkt n).grp j) := by
  induction n generalizing s pkt with
  | zero => exact (Group.Alike.refl _).refilled
  | succ n ih =>
    simp only [State.fetchOn]
    split
    · exact (s.takePacket_refilled k _ _ j).trans (ih _ _)
    · exact (Group.Alike.refl _).refilled

/-- The packets that follow one enter the buffer in order, without a gap. -/
theorem State.fetchOn_ibuf (s : State) (k pkt n : Nat) :
    ∃ l, ((s.fetchOn k pkt n).grp k).ibuf = (s.grp k).ibuf ++ l ∧ l.length ≤ n ∧
      l.map Prod.fst = (List.range l.length).map (fun m => pkt + 1 + m) := by
  induction n generalizing s pkt with
  | zero => exact ⟨[], by simp [State.fetchOn]⟩
  | succ n ih =>
    simp only [State.fetchOn]
    split
    case h_1 ws _ =>
      obtain ⟨l, hl, hlen, hnum⟩ := ih (s.takePacket k (pkt + 1) ws) (pkt + 1)
      refine ⟨(pkt + 1, ws.map Prod.fst) :: l, ?_, by simpa using hlen, ?_⟩
      · rw [hl, State.takePacket_ibuf, List.append_assoc, List.singleton_append]
      · rw [List.map_cons, hnum, List.length_cons, List.range_succ_eq_map, List.map_cons, List.map_map]
        congr 1
        exact List.map_congr_left fun m _ => by simp only [Function.comp]; omega
    · exact ⟨[], by simp⟩

/-- A refill leaves the buffer with the packet and at most seven that follow it (R136). -/
theorem State.refill_ibuf {s : State} {k : Nat} (hk : (ffind s.groups k).isSome = true) (pkt : Nat) (ws : List (Word × Leaf × Nat)) :
    ∃ l, ((s.refill k pkt ws).grp k).ibuf = (pkt, ws.map Prod.fst) :: l ∧ l.length ≤ 7 ∧
      l.map Prod.fst = (List.range l.length).map (fun m => pkt + 1 + m) := by
  obtain ⟨g, hg⟩ := Option.isSome_iff_exists.1 hk
  obtain ⟨l, hl, hlen, hnum⟩ := ((s.onGrp k (fun g => { g with ibuf := [] })).takePacket k pkt ws).fetchOn_ibuf k pkt (ibufSize - 1)
  refine ⟨l, ?_, hlen, hnum⟩
  rw [State.refill, hl, State.takePacket_ibuf, State.onGrp_of_some hg, State.grp_setGrp_same]
  rfl

/-- A refill changes no group but in its instruction buffer and its waits. -/
theorem State.refill_refilled (s : State) (k pkt : Nat) (ws : List (Word × Leaf × Nat)) (j : Nat) :
    (s.grp j).Refilled ((s.refill k pkt ws).grp j) := by
  have hempty : (s.grp j).Refilled ((s.onGrp k (fun g => { g with ibuf := [] })).grp j) := by
    cases hk : ffind s.groups k with
    | none => simp only [State.onGrp, hk]; exact (Group.Alike.refl _).refilled
    | some g =>
      rw [State.onGrp_of_some hk]
      by_cases hj : j = k
      · subst hj; rw [State.grp_setGrp_same]; exact ⟨rfl⟩
      · rw [State.grp_setGrp_other _ hj]; exact (Group.Alike.refl _).refilled
  exact (hempty.trans (State.takePacket_refilled _ k pkt ws j)).trans (State.fetchOn_refilled _ k pkt _ j)

end Sys2Proof.Machine
end

section
/-!
Parking, waking and the limits of waiting (R17 to R20): what each does to the lanes of a group.
-/

namespace Sys2Proof.Machine

/-! ### Lanes by index -/

@[simp] theorem length_modNth {α : Type} (f : α → α) (l : List α) (i : Nat) : (modNth l i f).length = l.length := by
  induction l generalizing i with
  | nil => cases i <;> rfl
  | cons x l ih => cases i <;> simp [modNth, ih]

theorem nth_eq_getElem {α : Type} (d : α) {l : List α} {i : Nat} (h : i < l.length) : nth d l i = l[i] := by
  induction l generalizing i with
  | nil => simp at h
  | cons x l ih =>
    cases i with
    | zero => rfl
    | succ i => exact ih (by simpa using h)

theorem Group.lane_onLane (g : Group) (i j : Nat) (f : Lane → Lane) :
    (g.onLane i f).lane j = if j = i ∧ i < g.lanes.length then f (g.lane i) else g.lane j :=
  nth_modNth _ _ _ _ _

theorem Group.lane_onLanes (g : Group) (m : Lanes) (f : Nat → Lane → Lane) {j : Nat} (hj : j < g.lanes.length) :
    (g.onLanes m f).lane j = if m.getLsbD j = true then f j (g.lane j) else g.lane j := by
  simp only [Group.lane, Group.onLanes, nth_mapFrom _ Lane.blank, hj, if_true, Nat.zero_add]

theorem getLsbD_maskOf (f : Nat → Bool) (n : Nat) {j : Nat} (hj : j < 64) : (maskOf f n).getLsbD j = (decide (j < n) && f j) := by
  induction n with
  | zero => simp [maskOf]
  | succ n ih =>
    have hbit : ((1 <<< n : Nat) : Lanes).getLsbD j = decide (j = n) := by
      rw [BitVec.natCast_eq_ofNat, BitVec.getLsbD_ofNat, Nat.one_shiftLeft, Nat.testBit_two_pow]
      simp [hj, eq_comm]
    have hsucc : decide (j < n + 1) = (decide (j < n) || decide (j = n)) := by
      rw [← Bool.decide_or]; exact decide_eq_decide.2 (by omega)
    simp only [maskOf]
    split
    case isTrue hf =>
      rw [BitVec.getLsbD_or, ih, hbit, hsucc]
      by_cases h : j = n
      · subst h; simp [hf]
      · simp [h]
    case isFalse hf =>
      rw [ih, hsucc]
      by_cases h : j = n
      · subst h; simp [hf]
      · simp [h]

/-! ### The wake of a group with no RUN lane (R19) -/

/-- A lane of the group runs. -/
def Group.HasRun (g : Group) : Prop := ∃ i, i < g.lanes.length ∧ (g.lane i).st = .run

theorem Group.hasRun_iff {g : Group} : g.HasRun ↔ g.lanes.any (fun l => l.st == .run) = true := by
  simp only [List.any_eq_true, beq_iff_eq]
  constructor
  · rintro ⟨i, hi, h⟩
    exact ⟨_, List.getElem_mem hi, by rwa [Group.lane, nth_eq_getElem _ hi] at h⟩
  · rintro ⟨l, hl, h⟩
    obtain ⟨i, hi, rfl⟩ := List.mem_iff_getElem.1 hl
    exact ⟨i, hi, by rwa [Group.lane, nth_eq_getElem _ hi]⟩

theorem Group.settle_of_hasRun {g : Group} (h : g.HasRun) (now : Nat) : g.settle now = g := by
  rw [Group.settle, if_pos (Group.hasRun_iff.1 h)]

theorem Group.settle_alike (g : Group) (now : Nat) : g.Alike (g.settle now) := by
  unfold Group.settle; split
  · exact .refl g
  · exact g.wake_alike _ _

theorem Group.settle_spin (g : Group) (now : Nat) : (g.settle now).spin = g.spin := by
  unfold Group.settle; split <;> rfl

theorem Group.settle_blocked {g : Group} (h : g.blocked = none) (now : Nat) : (g.settle now).blocked = none := by
  unfold Group.settle; split
  · exact h
  · simp only [Group.wake, h, Option.map_none]

@[simp] theorem Group.length_settle (g : Group) (now : Nat) : (g.settle now).lanes.length = g.lanes.length := by
  unfold Group.settle; split
  · rfl
  · exact List.length_map _

/-- No lane stays parked where none runs (R19). -/
theorem Group.settle_hasRun_of_parked {g : Group} {now i : Nat} (hi : i < g.lanes.length) (h : ((g.settle now).lane i).st = .parked) :
    (g.settle now).HasRun := by
  by_cases hrun : g.HasRun
  · rwa [Group.settle_of_hasRun hrun]
  · rw [Group.settle, if_neg (mt Group.hasRun_iff.2 hrun)] at h
    simp only [Group.lane, Group.wake] at h
    rw [nth_eq_getElem _ (by simpa using hi), List.getElem_map] at h
    simp only [Bool.and_true, decide_eq_true_eq] at h
    split at h
    · cases h
    · contradiction

/-! ### The lanes of a unit that waits park (R17) -/

/-- The waiting lanes that stand at an address park, each for what it waits for. -/
def Group.parkWaits (now : Nat) (addr : Word) (ws : List (Nat × WaitOn)) (g : Group) : Group :=
  ws.foldl (fun y e => y.onLane e.1 (fun l => if l.st = .run && l.lpc = addr then l.park now e.2 else l)) g

@[simp] theorem Group.length_parkWaits (now : Nat) (addr : Word) (ws : List (Nat × WaitOn)) (g : Group) :
    (g.parkWaits now addr ws).lanes.length = g.lanes.length := by
  induction ws generalizing g with
  | nil => rfl
  | cons e ws ih => exact (ih _).trans (length_modNth _ _ _)

theorem Group.parkWaits_eq (now : Nat) (addr : Word) (ws : List (Nat × WaitOn)) (g : Group) :
    g.parkWaits now addr ws = { g with lanes := (g.parkWaits now addr ws).lanes } := by
  induction ws generalizing g with
  | nil => rfl
  | cons e ws ih => exact ih _

theorem Group.parkWaits_blocked (now : Nat) (addr : Word) (ws : List (Nat × WaitOn)) (g : Group) :
    (g.parkWaits now addr ws).blocked = g.blocked := by rw [Group.parkWaits_eq]
theorem Group.parkWaits_v (now : Nat) (addr : Word) (ws : List (Nat × WaitOn)) (g : Group) :
    (g.parkWaits now addr ws).v = g.v := by rw [Group.parkWaits_eq]
theorem Group.parkWaits_csr (now : Nat) (addr : Word) (ws : List (Nat × WaitOn)) (g : Group) :
    (g.parkWaits now addr ws).csr = g.csr := by rw [Group.parkWaits_eq]

/-- A lane that does not run, or that is none of them, stays. -/
theorem Group.parkWaits_lane_kept (now : Nat) (addr : Word) {i : Nat} (ws : List (Nat × WaitOn)) (g : Group)
    (h : (g.lane i).st ≠ .run ∨ ∀ e ∈ ws, e.1 ≠ i) : (g.parkWaits now addr ws).lane i = g.lane i := by
  induction ws generalizing g with
  | nil => rfl
  | cons e ws ih =>
    have hstep : (g.onLane e.1 (fun l => if l.st = .run && l.lpc = addr then l.park now e.2 else l)).lane i = g.lane i := by
      rw [Group.lane_onLane]
      split
      case isTrue he =>
        obtain ⟨rfl, -⟩ := he
        have hst : (g.lane e.1).st ≠ .run := h.resolve_right fun hw => hw e List.mem_cons_self rfl
        simp [hst]
      · rfl
    refine (ih _ ?_).trans hstep
    rw [hstep]
    exact h.imp_right fun hw x hx => hw x (List.mem_cons_of_mem _ hx)

/-- A lane of them that runs at the address parks. -/
theorem Group.parkWaits_lane_parks (now : Nat) (addr : Word) {i : Nat} {w : WaitOn} (ws : List (Nat × WaitOn)) (g : Group)
    (hw : (i, w) ∈ ws) (hi : i < g.lanes.length) (hst : (g.lane i).st = .run) (hpc : (g.lane i).lpc = addr) :
    ((g.parkWaits now addr ws).lane i).st = .parked ∧ ((g.parkWaits now addr ws).lane i).parkedAt = now := by
  induction ws generalizing g with
  | nil => cases hw
  | cons e ws ih =>
    have hlane := Group.lane_onLane g e.1 i (fun l => if l.st = .run && l.lpc = addr then l.park now e.2 else l)
    by_cases he : i = e.1
    · subst he
      simp only [hi, and_self, if_true, hst, hpc, decide_true, Bool.and_self] at hlane
      have hkept := Group.parkWaits_lane_kept now addr (i := e.1) ws _ (Or.inl (by rw [hlane]; simp [Lane.park]))
      show ((Group.parkWaits now addr ws _).lane e.1).st = _ ∧ ((Group.parkWaits now addr ws _).lane e.1).parkedAt = _
      rw [hkept, hlane]
      exact ⟨rfl, rfl⟩
    · simp only [he, false_and, if_false] at hlane
      have hmem : (i, w) ∈ ws := (List.mem_cons.1 hw).resolve_left fun h => he (congrArg Prod.fst h)
      exact ih _ hmem (by simpa [Group.onLane] using hi) (by rw [hlane]; exact hst) (by rw [hlane]; exact hpc)

/-! ### The spinning lanes park (R18) -/

/-- The spinning lanes of a group park at the target of their branch, unless a wake event has come (R19). -/
def Group.parkSpin (now : Nat) (g : Group) : Group :=
  if g.spin.woken then g
  else g.onLanes g.spin.lanes (fun _ l =>
    if l.st = .run && l.lpc = g.spin.target then l.park now (.spin (if g.spin.lines.length ≤ 8 then g.spin.lines else [])) else l)

/-- The spin detector starts anew, and SPINP is set. -/
def Group.endSpin (g : Group) : Group := { g with spin := Spin.blank, csr := { g.csr with spinp := true } }

theorem Group.parkSpin_v (now : Nat) (g : Group) : (g.parkSpin now).v = g.v := by
  unfold Group.parkSpin; split <;> rfl

theorem Group.parkSpin_csr (now : Nat) (g : Group) : (g.parkSpin now).csr = g.csr := by
  unfold Group.parkSpin; split <;> rfl

@[simp] theorem Group.length_parkSpin (now : Nat) (g : Group) : (g.parkSpin now).lanes.length = g.lanes.length := by
  unfold Group.parkSpin; split
  · rfl
  · exact length_mapFrom _ _ _

theorem Group.parkSpin_lane (now : Nat) (g : Group) {i : Nat} (hi : i < g.lanes.length) :
    (g.parkSpin now).lane i =
      if g.spin.woken = false ∧ g.spin.lanes.getLsbD i = true ∧ (g.lane i).st = .run ∧ (g.lane i).lpc = g.spin.target then
        (g.lane i).park now (.spin (if g.spin.lines.length ≤ 8 then g.spin.lines else []))
      else g.lane i := by
  unfold Group.parkSpin
  cases hw : g.spin.woken with
  | true => simp
  | false =>
    simp only [Bool.false_eq_true, if_false, Group.lane_onLanes _ _ _ hi, true_and]
    by_cases hb : g.spin.lanes.getLsbD i = true
    · simp [hb]
    · simp [hb]

end Sys2Proof.Machine
end

section
/-!
The events of a group that is there to run (R17 to R20, R43, R44, R140, R261).
-/

namespace Sys2Proof.Machine

/-! ### What each event does to its group -/

theorem State.groupRuns_find {s : State} {k : Nat} (h : s.groupRuns k = true) : ∃ g, ffind s.groups k = some g := by
  simp only [State.groupRuns, Bool.and_eq_true] at h
  exact Option.isSome_iff_exists.1 h.1.1.1

theorem State.onGrp_of_runs {s : State} {k : Nat} (h : s.groupRuns k = true) (f : Group → Group) :
    s.onGrp k f = s.setGrp k (f (s.grp k)) :=
  have ⟨_, hg⟩ := State.groupRuns_find h
  State.onGrp_of_some hg f

/-- An event that turns one group into `g` and does nothing else. -/
theorem turnsGroup_of_setGrp {i : Instr} {s : State} {k : Nat} {g : Group} (h : exec i s = .next (s.setGrp k g)) :
    TurnsGroup i s k g :=
  ⟨_, h, State.grp_setGrp_same s k g, fun _ hj => State.grp_setGrp_other s hj g, rfl⟩

/-- INSTRUCTION_FETCH (R136). -/
theorem exec_instructionFetch {s : State} {k : Nat} {a : Word} {ws : List (Word × Leaf × Nat)}
    (ha : (s.grp k).issueAddr = some a) (hready : s.ready k = true) (hbuf : (s.grp k).ibuf.any (fun e => e.1 == pktOf a) = false)
    (hopen : s.packetOpen k (pktOf a) = true) (hfetch : s.fetch k (pktOf a) = .words ws) :
    exec (.instructionFetch k (pktOf a)) s = .next (s.refill k (pktOf a) ws) := by
  show execInstructionFetch k (pktOf a) s = _
  simp [execInstructionFetch, ha, hready, hbuf, hopen, hfetch]

/-- BLOCK_PARK (R17). -/
theorem exec_blockPark {s : State} {k : Nat} {b : Blocked} (hrun : s.groupRuns k = true) (hb : (s.grp k).blocked = some b)
    (hdue : b.since + 64 ≤ s.clockOf k) (hw : b.waits ≠ []) :
    exec (.blockPark k) s = .next (s.setGrp k
      ((Group.parkWaits (s.clockOf k) b.addr b.waits { s.grp k with blocked := none }).settle (s.clockOf k))) := by
  show execBlockPark k s = _
  simp only [execBlockPark, hb, State.parkDue, hdue, hrun, List.isEmpty_eq_false_iff.2 hw, State.onGrp_of_runs hrun]
  rfl

/-- SPIN_PARK (R18). -/
theorem exec_spinPark {s : State} {k : Nat} (hrun : s.groupRuns k = true) (hn : 4 ≤ (s.grp k).spin.count) :
    exec (.spinPark k) s = .next (s.setGrp k (((s.grp k).parkSpin (s.clockOf k)).endSpin.settle (s.clockOf k))) := by
  show execSpinPark k s = _
  simp only [execSpinPark, hrun, Nat.not_lt.2 hn]
  rfl

/-- PARK_TIMEOUT_WAKE (R19). -/
theorem exec_parkTimeoutWake {s : State} {k i : Nat} (hrun : s.groupRuns k = true) (hst : ((s.grp k).lane i).st = .parked)
    (hdue : ((s.grp k).lane i).parkedAt + 4096 ≤ s.clockOf k) :
    exec (.parkTimeoutWake k i) s = .next (s.setGrp k ((s.grp k).onLane i (fun l => l.wake (s.clockOf k)))) := by
  show execParkTimeoutWake k i s = _
  simp [execParkTimeoutWake, hst, hdue, hrun, State.onGrp_of_runs hrun]

/-- The cause of PARK_LIMIT for the lanes that have reached the limit (R20). -/
def State.parkLimitCause (s : State) (k i : Nat) : Cause :=
  let j := minOf i (s.parkedOut k)
  let a := ((s.grp k).lane j).lpc
  ⟨0x11, 0, 0, (s.grp k).logical j, a, slotOf a, false, false⟩

/-- The same lanes as a mask. -/
def State.parkLimitMask (s : State) (k : Nat) : Lanes := maskOf (s.parkedOut k).contains (s.grp k).width

/-- PARK_LIMIT (R20). -/
theorem exec_parkLimit {s : State} {k i : Nat} (hrun : s.groupRuns k = true) (hi : (s.parkedOut k).contains i = true) :
    exec (.parkLimit k i) s = .next (s.setGrp k
      { (s.grp k).onLanes (s.parkLimitMask k) (fun _ l => { l with parkSum := 0, parkedAt := s.clockOf k }) with
        pend := (s.grp k).pend ++ [(s.parkLimitCause k i, s.parkLimitMask k)] }) := by
  show execParkLimit k i s = _
  simp only [execParkLimit, hi, hrun]
  rfl

/-- LOOKAHEAD_RESULT of a fault (R44). -/
theorem exec_lookaheadResult_fault {s : State} {k n : Nat} {l : Look} (hrun : s.groupRuns k = true)
    (hl : ((s.grp k).looks.drop n).head? = some l) (hf : l.fault.isSome = true) :
    exec (.lookaheadResult k n) s = .next (s.setGrp k (s.grp k).report) := by
  show execLookaheadResult k n s = _
  simp [execLookaheadResult, hl, hrun, hf, State.onGrp_of_runs hrun]

/-- LOOKAHEAD_RESULT of words (R43, R79). -/
theorem exec_lookaheadResult_words {s : State} {k n : Nat} {l : Look} (hrun : s.groupRuns k = true)
    (hl : ((s.grp k).looks.drop n).head? = some l) (hf : l.fault = none) :
    exec (.lookaheadResult k n) s = .next (s.setGrp k
      ((({ s.grp k with looks := (s.grp k).looks.take n ++ (s.grp k).looks.drop (n + 1) } : Group).write l.dests).addFlags l.flags)) := by
  show execLookaheadResult k n s = _
  simp [execLookaheadResult, hl, hrun, hf, State.onGrp_of_runs hrun]

/-- SLEEP_END (R140). -/
theorem exec_sleepEnd {s : State} {k : Nat} (hrun : s.groupRuns k = true) (hs : (s.grp k).sleepTo ≠ 0)
    (hdue : (s.grp k).sleepTo ≤ s.clockOf k) : exec (.sleepEnd k) s = .next (s.setGrp k { s.grp k with sleepTo := 0 }) := by
  show execSleepEnd k s = _
  simp [execSleepEnd, hrun, hs, hdue]

/-- TRAP_ENTRY (R261, R263). -/
theorem exec_trapEntry {s : State} {k : Nat} (hrun : s.groupRuns k = true) (hmay : (s.grp k).mayEnter = true)
    (hhalt : (s.team (s.grp k).team).halted = false) :
    exec (.trapEntry k) s
      = .next ((s.onGrp k (fun x => { x.report with hold := if x.allBarred then x.hold else .none })).enterPend k) := by
  show execTrapEntry k s = _
  simp [execTrapEntry, hrun, hmay, hhalt]

/-- Entering a trap changes no byte of memory. -/
theorem State.enterTrap_mem (s : State) (k : Nat) (hs : Lanes) (c : Cause) (multi : Bool) : (s.enterTrap k hs c multi).mem = s.mem := by
  unfold State.enterTrap
  extract_lets g
  split
  · rfl
  · unfold State.fatal
    extract_lets g' t s1
    split <;> rfl

theorem State.enterPend_mem (s : State) (k : Nat) : (s.enterPend k).mem = s.mem := by
  unfold State.enterPend
  extract_lets g
  split
  · rfl
  · exact s.enterTrap_mem k _ _ _

theorem State.onGrp_mem (s : State) (k : Nat) (f : Group → Group) : (s.onGrp k f).mem = s.mem := by
  unfold State.onGrp; split <;> rfl

/-! ### The words of a result that is written -/

theorem Group.write_dest (g : Group) {ds : List Dest} {d : Dest} (hd : d ∈ ds) (huniq : ∀ e ∈ ds, e.key = d.key → e = d) :
    fget 0 (g.write ds).v d.key = d.val ∧ fget false (g.write ds).vp d.key = d.poison := by
  simp only [Group.write, fget_foldl_dest, lastDest_eq_some hd huniq, and_self]

theorem Group.write_other (g : Group) {ds : List Dest} {r : Nat} (hr : ∀ d ∈ ds, d.key ≠ r) :
    fget 0 (g.write ds).v r = fget 0 g.v r ∧ fget false (g.write ds).vp r = fget false g.vp r := by
  simp only [Group.write, fget_foldl_dest, lastDest_eq_none hr, and_self]

theorem length_take_drop {α : Type} {l : List α} {n : Nat} {x : α} (h : (l.drop n).head? = some x) :
    (l.take n ++ l.drop (n + 1)).length + 1 = l.length := by
  rw [List.head?_drop] at h
  obtain ⟨hn, -⟩ := List.getElem?_eq_some_iff.1 h
  simp only [List.length_append, List.length_take, List.length_drop]
  omega

theorem State.mem_parkedOut {s : State} {k i : Nat} : i ∈ s.parkedOut k ↔
    i < (s.grp k).width ∧ ((s.grp k).lane i).st = .parked ∧ 2 ^ 30 ≤ ((s.grp k).lane i).parkedFor (s.clockOf k) := by
  simp [State.parkedOut]

theorem State.getLsbD_parkLimitMask (s : State) (k : Nat) {j : Nat} (hj : j < 64) :
    (s.parkLimitMask k).getLsbD j = (s.parkedOut k).contains j := by
  rw [State.parkLimitMask, getLsbD_maskOf _ _ hj, Bool.and_eq_right_iff_imp, List.contains_iff_mem]
  exact fun h => decide_eq_true (State.mem_parkedOut.1 h).1

/-- Settles O50, event by event. -/
theorem groupScheduling : Obligations.GroupScheduling := by
  unfold Obligations.GroupScheduling
  intro s k hrun g now
  refine ⟨?fetch, ?block, ?spin, ?wake, ?limit, ?look, ?sleep, ?trap⟩
  case fetch =>
    intro a ws ha hready hbuf hopen hfetch
    obtain ⟨g', hg⟩ := State.groupRuns_find hrun
    refine ⟨_, exec_instructionFetch ha hready hbuf hopen hfetch, State.refill_ibuf (by rw [hg]; rfl) _ ws, fun j => ?_⟩
    have halike := s.refill_refilled k (pktOf a) ws j
    exact ⟨halike.v, halike.s, halike.csr⟩
  case block =>
    intro b hb hdue hw
    let h : Group := { g with blocked := none }
    have halike := (h.parkWaits now b.addr b.waits).settle_alike now
    refine ⟨_, exec_blockPark hrun hb hdue hw, ?_, rfl, ?_, ?_, fun j hj => State.grp_setGrp_other s hj _, ?_, ?_⟩
    · rw [State.grp_setGrp_same]
      exact Group.settle_blocked (h.parkWaits_blocked now b.addr b.waits) now
    · rw [State.grp_setGrp_same]
      exact halike.v.trans (h.parkWaits_v now b.addr b.waits)
    · rw [State.grp_setGrp_same]
      exact halike.csr.trans (h.parkWaits_csr now b.addr b.waits)
    · rintro i w hiw hi hst hpc ⟨j, hj, hjrun, hjw⟩
      have hparks := h.parkWaits_lane_parks now b.addr b.waits hiw hi hst hpc
      have hkept := h.parkWaits_lane_kept now b.addr (i := j) b.waits (Or.inr hjw)
      rw [State.grp_setGrp_same, Group.settle_of_hasRun ⟨j, by simpa using hj, by rw [hkept]; exact hjrun⟩]
      exact hparks
    · intro i hi hst
      rw [State.grp_setGrp_same] at hst ⊢
      obtain ⟨j, hj, hjrun⟩ := Group.settle_hasRun_of_parked (by simpa using hi) hst
      exact ⟨j, by simpa using hj, hjrun⟩
  case spin =>
    intro hn
    have halike := (g.parkSpin now).endSpin.settle_alike now
    refine ⟨_, exec_spinPark hrun hn, ?_, ?_, rfl, ?_, fun j hj => State.grp_setGrp_other s hj _, ?_⟩
    · rw [State.grp_setGrp_same, Group.settle_spin]; rfl
    · rw [State.grp_setGrp_same]
      exact halike.csr.trans (congrArg (fun c : Csrs => { c with spinp := true }) (g.parkSpin_csr now))
    · rw [State.grp_setGrp_same]
      exact halike.v.trans (g.parkSpin_v now)
    · rintro ⟨j, hj, hjrun, hjbit⟩ i hi
      have hjkept : ((g.parkSpin now).lane j).st = .run := by
        rw [g.parkSpin_lane now hj, if_neg (by simp [hjbit])]; exact hjrun
      rw [State.grp_setGrp_same, Group.settle_of_hasRun (g := (g.parkSpin now).endSpin) ⟨j, by simpa [Group.endSpin] using hj, hjkept⟩]
      exact g.parkSpin_lane now hi
  case wake =>
    intro i hi hst hdue
    refine ⟨_, exec_parkTimeoutWake hrun hst hdue, rfl, fun j hj => State.grp_setGrp_other s hj _, ?_, ?_, fun j hj => ?_⟩
    · rw [State.grp_setGrp_same]; rfl
    · rw [State.grp_setGrp_same]; rfl
    · rw [State.grp_setGrp_same, Group.lane_onLane]
      simp only [show i < (s.grp k).lanes.length from hi, and_true]
      rfl
  case limit =>
    intro i hi hst hlim
    have hmem : (s.parkedOut k).contains i = true := List.contains_iff_mem.2 (State.mem_parkedOut.2 ⟨hi, hst, hlim⟩)
    refine ⟨_, exec_parkLimit hrun hmem, rfl, fun j hj => State.grp_setGrp_other s hj _, ?_, ?_, s.parkLimitCause k i, s.parkLimitMask k,
      ?_, rfl, rfl, fun j hj => s.getLsbD_parkLimitMask k hj⟩ <;>
    rw [State.grp_setGrp_same] <;> rfl
  case look =>
    intro n l hl
    refine ⟨fun hf => turnsGroup_of_setGrp (exec_lookaheadResult_fault hrun hl hf), fun hf => ?_⟩
    refine ⟨_, exec_lookaheadResult_words hrun hl hf, rfl, fun j hj => State.grp_setGrp_other s hj _, ?_, ?_, ?_, ?_⟩
    · rw [State.grp_setGrp_same]; rfl
    · rw [State.grp_setGrp_same]
      exact (congrArg (· + 1) (List.length_map _)).trans (length_take_drop hl)
    · intro d hd huniq
      rw [State.grp_setGrp_same]
      exact Group.write_dest _ hd huniq
    · intro r hr
      rw [State.grp_setGrp_same]
      exact Group.write_other _ hr
  case sleep => exact fun hs hdue => turnsGroup_of_setGrp (exec_sleepEnd hrun hs hdue)
  case trap =>
    intro hmay hhalt
    refine ⟨_, exec_trapEntry hrun hmay hhalt, rfl, fun a => ?_⟩
    simp only [State.byteAt, State.enterPend_mem, State.onGrp_mem]

end Sys2Proof.Machine
end

section
/-!
Waiting accesses to the scratchpad (R162, R163): the steps of their lanes, what they leave alone, and what they write.
-/

namespace Sys2Proof.Machine

/-! ### Steps that leave registers, teams and memory alone -/

/-- No register, team or byte of memory has changed, and the unit is as it was. -/
structure State.Calm (s t : State) : Prop where
  alike : s.GroupsAlike t
  teams : t.teams = s.teams
  mem : t.mem = s.mem
  unit : t.unit = s.unit

namespace State.Calm

theorem refl (s : State) : s.Calm s := ⟨State.groupsAlike_of_eq rfl, rfl, rfl, rfl⟩

theorem trans {s t u : State} (hst : s.Calm t) (htu : t.Calm u) : s.Calm u :=
  ⟨hst.alike.trans htu.alike, htu.teams.trans hst.teams, htu.mem.trans hst.mem, htu.unit.trans hst.unit⟩

theorem pre {s t : State} (h : s.Calm t) : t.pre = s.pre := by simp only [State.pre, h.unit]
theorem acts {s t : State} (h : s.Calm t) : t.acts = s.acts := by simp only [State.acts, h.pre, h.unit]
theorem scratchOff {s t : State} (h : s.Calm t) (x : Bool) (a i : Nat) : t.scratchOff x a i = s.scratchOff x a i := by
  simp only [State.scratchOff, State.rs, State.rv, h.pre]
theorem dataWords {s t : State} (h : s.Calm t) (i d n : Nat) : t.dataWords i d n = s.dataWords i d n := by
  simp only [State.dataWords, State.rv, h.pre]
theorem byteAt {s t : State} (h : s.Calm t) (b : Nat) : t.byteAt b = s.byteAt b := by simp only [State.byteAt, h.mem]
theorem regsKept {s t : State} (h : s.Calm t) : RegsKept s t := h.alike.regsKept (by rw [h.unit])
theorem me_team {s t : State} (h : s.Calm t) : t.me.team = s.me.team := by
  simp only [State.me, h.unit]; exact (h.alike s.unit.g).team
theorem myTeam {s t : State} (h : s.Calm t) : t.myTeam = s.myTeam := by
  simp only [State.myTeam, State.team, h.me_team, h.teams]

end State.Calm

theorem State.onMe_calm (s : State) (f : Group → Group) (h : s.me.Alike (f s.me)) : s.Calm (s.onMe f) :=
  ⟨s.onMe_alike f h, rfl, rfl, rfl⟩

/-- Reading tokens changes what the group knows, and nothing else. -/
theorem State.learn_calm (s : State) (rs : List Nat) : s.Calm (s.learn rs) := by
  unfold State.learn; split
  · exact s.onMe_calm _ ⟨rfl⟩
  · exact .refl s

theorem State.noteReads_calm (s : State) (ls : Nat → List Nat) : s.Calm (s.noteReads ls) := s.onMe_calm _ ⟨rfl⟩

theorem State.narrow_nil_calm (s : State) (done : List Nat) : s.Calm (s.narrow done []) :=
  s.onMe_calm (fun g => { g with blocked := none }) ⟨rfl⟩

theorem State.publish_calm (s : State) (a : Agent) (r : Reach) (f : Floors) : s.Calm (s.publish a r f) := by
  unfold State.publish
  generalize f.foldl _ _ = ps
  induction ps generalizing s with
  | nil => exact .refl s
  | cons p ps ih =>
    rw [List.foldl_cons]
    refine State.Calm.trans ?_ (ih _)
    exact ⟨State.groupsAlike_of_eq rfl, rfl, rfl, rfl⟩

theorem State.publishAll_calm (s : State) (k : Nat) (e : FenceSet) : s.Calm (s.publishAll k e) := by
  refine (s.publish_calm _ _ _).trans ⟨State.onGrp_alike _ k _ ⟨rfl⟩, ?_, ?_, ?_⟩ <;>
  · unfold State.publishAll State.onGrp; split <;> rfl

/-- A handoff publishes what the group's fences cover, and changes nothing else (R314). -/
theorem State.handOver_calm (s : State) (k : Nat) : s.Calm (s.handOver k) := by
  unfold State.handOver
  generalize (s.grp k).fences = es
  induction es generalizing s with
  | nil => exact .refl s
  | cons e es ih => exact (s.publishAll_calm k _).trans (ih _)

/-- What a handoff waits for depends on the group's requests, its fences and the reductions of its core. -/
theorem State.handsOff_onMe (s : State) (f : Group → Group) (hstores : (f s.me).stores = s.me.stores)
    (hfences : (f s.me).fences = s.me.fences) (hteam : (f s.me).team = s.me.team) :
    (s.onMe f).handsOff s.unit.g = s.handsOff s.unit.g := by
  have hgrp : (s.onMe f).grp s.unit.g = f s.me := s.me_onMe f
  have hcore : (s.onMe f).coreOf s.unit.g = s.coreOf s.unit.g := by
    simp only [State.coreOf, hgrp, hteam, State.core_onMe, State.team_onMe]; rfl
  have hopen : (s.onMe f).fenceOpen s.unit.g = s.fenceOpen s.unit.g := funext fun e => by
    simp only [State.fenceOpen, State.doneBefore, State.redsBefore, hgrp, hcore, hstores]; rfl
  simp only [State.handsOff, hgrp, hcore, hopen, hstores, hfences]
  rfl

theorem State.learn_handsOff (s : State) (rs : List Nat) : (s.learn rs).handsOff s.unit.g = s.handsOff s.unit.g := by
  unfold State.learn; split
  · exact s.handsOff_onMe _ rfl rfl rfl
  · rfl

/-! ### Units that wait -/

theorem State.block_alike (s : State) (ws : List (Nat × WaitOn)) : s.GroupsAlike (s.block ws) := by
  unfold State.block
  extract_lets m since t
  have hblocked := s.onMe_alike (fun g => { g with blocked := some ⟨s.unit.first, m, since, ws⟩ }) ⟨rfl⟩
  exact hblocked.trans (State.groupsAlike_of_eq rfl)

/-- A unit that waits has changed no register, team or byte of memory. -/
theorem waits_of_block {i : Instr} {s u : State} {ws : List (Nat × WaitOn)} (hc : s.Calm u) (h : exec i s = .next (u.block ws)) :
    Keeps i s (fun t => t.teams = s.teams ∧ t.unit.blocked = true ∧ ∀ b, t.byteAt b = s.byteAt b) := by
  refine ⟨_, h, State.GroupsAlike.regsKept (hc.alike.trans (u.block_alike ws)) ?_, hc.teams, rfl, hc.byteAt⟩
  show u.unit.g = s.unit.g
  rw [hc.unit]

/-- So has one no lane of which completes. -/
theorem waits_of_narrow {i : Instr} {s u : State} {ws : List (Nat × WaitOn)} (hc : s.Calm u) (hw : ws ≠ [])
    (h : exec i s = .next (u.narrow [] ws)) :
    Keeps i s (fun t => t.teams = s.teams ∧ t.unit.blocked = true ∧ ∀ b, t.byteAt b = s.byteAt b) := by
  rw [State.narrow, if_neg (by simpa using hw)] at h
  refine ⟨_, h, State.GroupsAlike.regsKept (hc.alike.trans (u.block_alike ws)) ?_, hc.teams, rfl, hc.byteAt⟩
  show u.unit.g = s.unit.g
  rw [hc.unit]

theorem handing_held {s : State} (h : s.handsOff s.unit.g = false) (eff : State → State) : handing eff s = s.stall := by
  simp [handing, h]

theorem handing_free {s : State} (h : s.handsOff s.unit.g = true) (eff : State → State) :
    handing eff s = eff (s.handOver s.unit.g) := by
  simp [handing, h]

/-- Where no engine's word waits for a word accessed, the access meets none (R183). -/
theorem onScratch_clear {s u : State} (hc : s.Calm u) {waits x : Bool} {a : Reg} {n : Nat}
    (hfog : s.myTeam.fogs.any (fun f => (s.acts.flatMap (fun j => wordsAt (s.scratchOff x a.toNat j) n)).contains f.word) = false)
    (eff : State → State) : onScratch waits x a n eff u = eff u := by
  have hteam : u.team (u.grp u.unit.g).team = s.myTeam := hc.myTeam
  simp only [onScratch, hc.acts, hc.scratchOff, State.landWords, hteam, hfog, Bool.false_eq_true, if_false]

/-! ### The steps of the lanes (R163) -/

/-- Every lane finds its words with the tag it waits for, and changes nothing. -/
theorem tagSteps_all {want : Bool} {ws : Nat → List Nat} {ls : List Nat} {t : Team}
    (h : ∀ i ∈ ls, ∀ w ∈ ws i, t.full w = want) :
    tagSteps want ws (fun t _ => t) ls t = (t, ls.map (fun i => (i, t)), []) := by
  induction ls with
  | nil => rfl
  | cons i ls ih =>
    have hi : (ws i).all (fun w => t.full w == want) = true :=
      List.all_eq_true.2 fun w hw => beq_iff_eq.2 (h i List.mem_cons_self w hw)
    simp only [tagSteps, hi, if_true, ih fun j hj => h j (List.mem_cons_of_mem _ hj), List.map_cons]

/-- One lane finds its words with that tag. -/
theorem tagSteps_one {want : Bool} {ws : Nat → List Nat} {upd : Team → Nat → Team} {j : Nat} {t : Team}
    (h : ∀ w ∈ ws j, t.full w = want) : tagSteps want ws upd [j] t = (upd t j, [(j, t)], []) := by
  have hj : (ws j).all (fun w => t.full w == want) = true := List.all_eq_true.2 fun w hw => beq_iff_eq.2 (h w hw)
  simp only [tagSteps, hj, if_true]

/-- No lane does. -/
theorem tagSteps_none {want : Bool} {ws : Nat → List Nat} {upd : Team → Nat → Team} {ls : List Nat} {t : Team}
    (h : ∀ i ∈ ls, ∃ w ∈ ws i, t.full w = !want) :
    tagSteps want ws upd ls t = (t, [], ls.map (fun i => (i, .tags (ws i)))) := by
  induction ls with
  | nil => rfl
  | cons i ls ih =>
    have hi : (ws i).all (fun w => t.full w == want) = false := by
      obtain ⟨w, hw, hfull⟩ := h i List.mem_cons_self
      exact List.all_eq_false.2 ⟨w, hw, by simp [hfull]⟩
    simp only [tagSteps, hi, Bool.false_eq_true, if_false, ih fun j hj => h j (List.mem_cons_of_mem _ hj), List.map_cons]

/-! ### Words, marks and tags after a write -/

theorem fget_foldl_fset_const {α : Type} [DecidableEq α] (d x : α) (ws : List Nat) (m : FMap α) (j : Nat) :
    fget d (ws.foldl (fun m w => fset d m w x) m) j = if j ∈ ws then x else fget d m j := by
  induction ws generalizing m with
  | nil => simp
  | cons w ws ih =>
    rw [List.foldl_cons, ih, fget_fset]
    by_cases hj : j = w <;> simp [hj]

theorem fget_foldl_fset_run {α : Type} [DecidableEq α] (d : α) (b : Nat) (xs : List α) (i : Nat) (m : FMap α) (j : Nat) :
    fget d ((mapFrom (fun k w => (b + k, w)) i xs).foldl (fun m e => fset d m e.1 e.2) m) j
      = if b + i ≤ j ∧ j < b + i + xs.length then nth d xs (j - (b + i)) else fget d m j := by
  induction xs generalizing i m with
  | nil => simp [mapFrom]
  | cons x xs ih =>
    rw [mapFrom, List.foldl_cons, ih, fget_fset, List.length_cons]
    rcases Nat.lt_trichotomy j (b + i) with hj | hj | hj
    · rw [if_neg (by omega), if_neg (by omega), if_neg (by omega)]
    · subst hj; simp
    · by_cases hlt : j < b + i + (xs.length + 1)
      · rw [if_pos (by omega), if_pos (by omega), show j - (b + i) = j - (b + (i + 1)) + 1 by omega, nth_succ]
      · rw [if_neg (by omega), if_neg (by omega), if_neg (by omega)]

theorem Team.full_setTags (t : Team) (ws : List Nat) (b : Bool) (w : Nat) :
    (t.setTags ws b).full w = if w ∈ ws then b else t.full w := fget_foldl_fset_const _ _ _ _ _

theorem Team.full_emptied (t : Team) (ws : List Nat) (w : Nat) : (t.setTags ws false).full w = (t.full w && !ws.contains w) := by
  rw [Team.full_setTags]; by_cases hw : w ∈ ws <;> simp [hw]

theorem Team.full_filled (t : Team) (ws : List Nat) (w : Nat) : (t.setTags ws true).full w = (t.full w || ws.contains w) := by
  rw [Team.full_setTags]; by_cases hw : w ∈ ws <;> simp [hw]

theorem mem_wordsAt {o n w : Nat} : w ∈ wordsAt o n ↔ o / 4 ≤ w ∧ w < o / 4 + max 1 (n / 4) := by
  simp only [wordsAt, List.mem_map, List.mem_range]
  constructor
  · rintro ⟨k, hk, rfl⟩; omega
  · exact fun h => ⟨w - o / 4, by omega, by omega⟩

theorem size_regs (sz : Size) : max 1 (sz.bytes / 4) = sz.regs := by cases sz <;> rfl

theorem Team.read_length (t : Team) (o : Nat) {sz : Size} (h : 4 ≤ sz.bytes) : (t.read o sz.bytes).length = sz.regs := by
  rw [Team.read, if_neg (by omega), List.length_map, wordsAt, List.length_map, List.length_range, size_regs]

@[simp] theorem Team.full_store (t : Team) (o n : Nat) (data : List Word) (w : Nat) : (t.store o n data).full w = t.full w := by
  unfold Team.store; split <;> rfl

theorem Team.word_store (t : Team) (o : Nat) {n : Nat} (hn : 4 ≤ n) (data : List Word) (w : Nat) :
    (t.store o n data).word w = if o / 4 ≤ w ∧ w < o / 4 + data.length then nth 0 data (w - o / 4) else t.word w := by
  rw [Team.store, if_neg (by omega)]
  exact fget_foldl_fset_run _ _ _ 0 _ _

theorem Team.bad_store (t : Team) (o : Nat) {n : Nat} (hn : 4 ≤ n) (data : List Word) (w : Nat) :
    (t.store o n data).bad w = if w ∈ wordsAt o n then false else t.bad w := by
  rw [Team.store, if_neg (by omega)]
  exact fget_foldl_fset_const _ _ _ _ _

/-! ### A write of the scratchpad (R19) -/

theorem State.scratchWrite_alike (s : State) (ws : List Nat) (b : Bool) (t : Team) : s.GroupsAlike (s.scratchWrite ws b t) := by
  have hlines : s.GroupsAlike ((s.setTeam s.me.team t).effect.wakeLines (s.scratchLines ws)) :=
    (State.groupsAlike_of_eq (t := (s.setTeam s.me.team t).effect) rfl).trans (State.wakeLines_alike _ _)
  unfold State.scratchWrite; split
  · exact hlines.trans (State.wakeTags_alike _ _ _)
  · exact hlines

@[simp] theorem State.scratchWrite_unit (s : State) (ws : List Nat) (b : Bool) (t : Team) :
    (s.scratchWrite ws b t).unit = { s.unit with effect := true } := by
  unfold State.scratchWrite; split <;> rfl

@[simp] theorem State.scratchWrite_mem (s : State) (ws : List Nat) (b : Bool) (t : Team) : (s.scratchWrite ws b t).mem = s.mem := by
  unfold State.scratchWrite; split <;> rfl

theorem State.scratchWrite_teams (s : State) (ws : List Nat) (b : Bool) (t : Team) :
    (s.scratchWrite ws b t).teams = fins s.teams s.me.team t := by
  unfold State.scratchWrite; split <;> rfl

/-- The team of the unit has become what was written. -/
theorem State.scratchWrite_myTeam (s : State) (ws : List Nat) (b : Bool) (t : Team) : (s.scratchWrite ws b t).myTeam = t := by
  have hteam : (s.scratchWrite ws b t).me.team = s.me.team := by
    simp only [State.me, State.scratchWrite_unit]; exact (s.scratchWrite_alike ws b t s.unit.g).team
  simp [State.myTeam, State.team, hteam, State.scratchWrite_teams]

/-- A write of the scratchpad after calm steps: no register or byte of memory has changed, and the team is what was written. -/
theorem State.Calm.scratchWrite {s v : State} (h : s.Calm v) (ws : List Nat) (b : Bool) (t : Team) :
    RegsKept s (v.scratchWrite ws b t) ∧ (v.scratchWrite ws b t).unit = { s.unit with effect := true } ∧
      (v.scratchWrite ws b t).mem = s.mem ∧ (v.scratchWrite ws b t).myTeam = t := by
  have hunit : (v.scratchWrite ws b t).unit = { s.unit with effect := true } := by rw [State.scratchWrite_unit, h.unit]
  exact ⟨(h.alike.trans (v.scratchWrite_alike ws b t)).regsKept (by rw [hunit]), hunit, (v.scratchWrite_mem ws b t).trans h.mem,
    v.scratchWrite_myTeam ws b t⟩

/-! ### Words with marks bound for registers -/

theorem mem_markedDests {key : Nat} {ws : List (Word × Bool)} {d : Dest} :
    d ∈ markedDests key ws ↔ ∃ k, k < ws.length ∧ d = ⟨key + k, (nth (0, false) ws k).1, (nth (0, false) ws k).2⟩ := by
  induction ws generalizing key with
  | nil => simp [markedDests]
  | cons e ws ih =>
    obtain ⟨w, b⟩ := e
    simp only [markedDests, List.mem_cons, ih, List.length_cons]
    constructor
    · rintro (rfl | ⟨k, hk, rfl⟩)
      · exact ⟨0, by simp, rfl⟩
      · exact ⟨k + 1, by omega, by rw [nth_succ]; congr 1; omega⟩
    · rintro ⟨_ | k, hk, rfl⟩
      · exact .inl rfl
      · exact .inr ⟨k, by omega, by rw [nth_succ]; congr 1; omega⟩

section
variable {ls : List Nat} {d n : Nat} {ws : Nat → List (Word × Bool)}

/-- The destinations of the words that a load gives some lanes, from register `d` on. -/
theorem mem_loadDests (hn : ∀ i ∈ ls, (ws i).length = n) {e : Dest} : e ∈ ls.flatMap (fun i => markedDests (vkey i d) (ws i)) ↔
    ∃ i ∈ ls, ∃ k, k < n ∧ e = ⟨vkey i (d + k), (nth (0, false) (ws i) k).1, (nth (0, false) (ws i) k).2⟩ := by
  simp only [List.mem_flatMap, mem_markedDests]
  refine exists_congr fun i => and_congr_right fun hi => exists_congr fun k => ?_
  rw [hn i hi, show vkey i d + k = vkey i (d + k) by unfold vkey; omega]

theorem loadDests_some (hn : ∀ i ∈ ls, (ws i).length = n) (hd : d + n ≤ 128) {i k : Nat} (hi : i ∈ ls) (hk : k < n) :
    lastDest (ls.flatMap (fun i => markedDests (vkey i d) (ws i))) (vkey i (d + k))
      = some ⟨vkey i (d + k), (nth (0, false) (ws i) k).1, (nth (0, false) (ws i) k).2⟩ := by
  refine lastDest_eq_some (d := ⟨vkey i (d + k), _, _⟩) ((mem_loadDests hn).2 ⟨i, hi, k, hk, rfl⟩) fun e he hkey => ?_
  obtain ⟨j, -, q, hq, rfl⟩ := (mem_loadDests hn).1 he
  obtain ⟨rfl, hqk⟩ := vkey_inj (by omega) (by omega) hkey
  obtain rfl : q = k := by omega
  rfl

theorem loadDests_none (hn : ∀ i ∈ ls, (ws i).length = n) (hd : d + n ≤ 128) {i r : Nat} (hr : r < 128)
    (h : ¬(i ∈ ls ∧ d ≤ r ∧ r < d + n)) : lastDest (ls.flatMap (fun i => markedDests (vkey i d) (ws i))) (vkey i r) = none := by
  refine lastDest_eq_none fun e he hkey => ?_
  obtain ⟨j, hj, q, hq, rfl⟩ := (mem_loadDests hn).1 he
  obtain ⟨rfl, rfl⟩ := vkey_inj (by omega) hr hkey
  exact h ⟨hj, by omega, by omega⟩

end

theorem deliver_zero_csr (s : State) (la : Nat) (ds : List Dest) : (s.deliver la ds 0).me.csr = s.me.csr := by
  simp only [State.deliver, State.me_onMe]
  split
  · simp [Group.addFlags, Group.write]
  · rfl

theorem RegsKept.getV {s t : State} (h : RegsKept s t) (i r : Nat) : t.me.getV i r = s.me.getV i r := by
  simp only [Group.getV, h.vectors]
theorem RegsKept.vPoison {s t : State} (h : RegsKept s t) (i r : Nat) : t.me.vPoison i r = s.me.vPoison i r := by
  simp only [Group.vPoison, h.marks]
theorem RegsKept.flush_getV {s t : State} (h : RegsKept s t) (i r : Nat) :
    t.me.flushLooks.getV i r = s.me.flushLooks.getV i r := by rw [Group.flush_getV, Group.flush_getV, h.looks, h.getV]
theorem RegsKept.flush_vPoison {s t : State} (h : RegsKept s t) (i r : Nat) :
    t.me.flushLooks.vPoison i r = s.me.flushLooks.vPoison i r := by rw [Group.flush_vPoison, Group.flush_vPoison, h.looks, h.vPoison]

/-- A load of no lane gives nothing. -/
theorem RegsKept.loadResult_nil {s t : State} (h : RegsKept s t) (hacts : s.acts = []) (la d n : Nat) (f : Nat → Nat → Word × Bool) :
    LoadResult s t la d n f where
  written i hi := by rw [hacts] at hi; cases hi
  kept i r _ _ := ⟨h.flush_getV i r, h.flush_vPoison i r⟩
  now _ i r _ := ⟨fun _ => ⟨h.getV i r, h.vPoison i r⟩,
    fun k hi => by rw [hacts] at hi; cases hi⟩
  later _ := ⟨h.vectors, h.marks⟩
  preds := h.preds
  scalars := h.scalars
  smarks := h.smarks
  seg := h.seg
  queues := h.queues

/-- The words that a load delivers, where the registers are as before it (R43). -/
theorem RegsKept.loadResult {s t : State} (h : RegsKept s t) {la d n : Nat} {ws : Nat → List (Word × Bool)}
    (hn : ∀ i ∈ s.acts, (ws i).length = n) (hd : d + n ≤ 128) :
    LoadResult s (t.deliver la (s.acts.flatMap (fun i => markedDests (vkey i d) (ws i))) 0) la d n
      (fun i k => nth (0, false) (ws i) k) where
  written i hi k hk := by simp only [deliver_getV, deliver_vPoison, loadDests_some hn hd hi hk, and_self]
  kept i r hr hno := by
    simp only [deliver_getV, deliver_vPoison, loadDests_none hn hd hr hno]
    exact ⟨h.flush_getV i r, h.flush_vPoison i r⟩
  now hla i r hr := by
    have hme : (t.deliver la (s.acts.flatMap (fun i => markedDests (vkey i d) (ws i))) 0).me
        = (t.me.write (s.acts.flatMap (fun i => markedDests (vkey i d) (ws i)))).addFlags 0 := by
      simp only [State.deliver, State.me_onMe, hla, if_true]
    refine ⟨fun hno => ?_, ?_⟩
    · rw [hme]
      show Group.getV (Group.write _ _) i r = _ ∧ Group.vPoison (Group.write _ _) i r = _
      rw [Group.write_getV, Group.write_vPoison, loadDests_none hn hd hr hno]
      exact ⟨h.getV i r, h.vPoison i r⟩
    · rintro k hi hk rfl
      rw [hme]
      show Group.getV (Group.write _ _) i (d + k) = _ ∧ Group.vPoison (Group.write _ _) i (d + k) = _
      rw [Group.write_getV, Group.write_vPoison, loadDests_some hn hd hi hk]
      exact ⟨rfl, rfl⟩
  later hla := by
    simp only [State.deliver, State.me_onMe, if_neg hla]
    exact ⟨h.vectors, h.marks⟩
  preds := by simp only [State.deliver, State.me_onMe]; split <;> exact h.preds
  scalars := by simp only [State.deliver, State.me_onMe]; split <;> exact h.scalars
  smarks := by simp only [State.deliver, State.me_onMe]; split <;> exact h.smarks
  seg := by simp only [State.deliver, State.me_onMe]; split <;> exact h.seg
  queues := by simp only [State.deliver, State.me_onMe]; split <;> exact h.queues

end Sys2Proof.Machine
end

section
/-!
LDS.wfull, LDS.wfull_empty and STS.wefull (R162, R163, R314).
-/

namespace Sys2Proof.Machine

/-! ### The effect of a waiting form, once the engines' words it meets are settled -/

/-- The effect of LDS.wfull, and of LDS.wfull_empty where `emptyAfter` holds. -/
def State.loadWhereFull (emptyAfter : Bool) (la : La) (d a : Reg) (sz : Size) (x : Bool) (s : State) : State :=
  let ws := fun i => wordsAt (s.scratchOff x a.toNat i) sz.bytes
  let steps := tagSteps true ws (fun t i => if emptyAfter then t.setTags (ws i) false else t) s.acts s.myTeam
  let s1 := (s.noteReads (fun i => s.scratchLines (ws i))).narrow (steps.2.1.map Prod.fst) steps.2.2
  if steps.2.1.isEmpty then s1
  else (if emptyAfter then s1.scratchWrite (distinct (steps.2.1.flatMap (fun e => ws e.1))) true steps.1 else s1).deliver la.toNat
    (steps.2.1.flatMap (fun e => markedDests (vkey e.1 d.toNat) (e.2.read (s.scratchOff x a.toNat e.1) sz.bytes))) 0

/-- The effect of STS.wefull. -/
def State.storeWhereEmpty (d a : Reg) (sz : Size) (x : Bool) (s : State) : State :=
  let ws := fun i => wordsAt (s.scratchOff x a.toNat i) sz.bytes
  let steps := tagSteps false ws (fun t i =>
    (t.store (s.scratchOff x a.toNat i) sz.bytes (s.dataWords i d.toNat sz.regs)).setTags (ws i) true) s.acts s.myTeam
  let s1 := s.narrow (steps.2.1.map Prod.fst) steps.2.2
  if steps.2.1.isEmpty then s1 else s1.scratchWrite (distinct (steps.2.1.flatMap (fun e => ws e.1))) true steps.1

section
variable {s u : State} {la : La} {d a : Reg} {sz : Size} {x : Bool}

theorem exec_ldsWfull : exec (.ldsWfull la d a sz x) s
    = issue (scratchNeed x a.toNat [] [(d.toNat, sz.regs)]) (scratchCheck x a sz.bytes) la.toNat
        (onScratch true x a sz.bytes (State.loadWhereFull false la d a sz x)) s := rfl

theorem exec_ldsWfullEmpty : exec (.ldsWfullEmpty la d a sz x) s
    = issue (scratchNeed x a.toNat [] [(d.toNat, sz.regs)]) (scratchCheck x a sz.bytes) la.toNat
        (handing (onScratch true x a sz.bytes (State.loadWhereFull true la d a sz x))) s := rfl

theorem exec_stsWefull : exec (.stsWefull d a sz x) s
    = issue (scratchNeed x a.toNat [(d.toNat, sz.regs)] []) (scratchCheck x a sz.bytes) 0
        (handing (onScratch false x a sz.bytes (State.storeWhereEmpty d a sz x))) s := rfl

section
variable {i : Instr} {n : Need} {chk : State → Nat → Option Cause} {l m : Nat} {waits : Bool} {eff : State → State}

/-- A form that writes tags waits where a release or a fence of its group is not done (R314). -/
theorem waits_of_held (hi : exec i s = issue n chk l (handing eff) s) (hclear : s.clear n chk = true)
    (hheld : s.handsOff s.unit.g = false) :
    Keeps i s (fun t => t.teams = s.teams ∧ t.unit.blocked = true ∧ ∀ b, t.byteAt b = s.byteAt b) := by
  rw [issue_clear hclear, handing_held (by rw [learn_unit, s.learn_handsOff]; exact hheld)] at hi
  exact waits_of_block (s.learn_calm _) hi

/-- It goes on where they are done and it meets no engine's word. -/
theorem exec_of_handing (hi : exec i s = issue n chk l (handing (onScratch waits x a m eff)) s) (hclear : s.clear n chk = true)
    (hfree : s.handsOff s.unit.g = true)
    (hfog : s.myTeam.fogs.any (fun f => (s.acts.flatMap (fun j => wordsAt (s.scratchOff x a.toNat j) m)).contains f.word) = false) :
    ∃ u, s.Calm u ∧ exec i s = .next (eff u) := by
  rw [issue_clear hclear, handing_free (by rw [learn_unit, s.learn_handsOff]; exact hfree)] at hi
  have hcalm := (s.learn_calm (expand n.ss)).trans (State.handOver_calm _ (s.learn (expand n.ss)).unit.g)
  exact ⟨_, hcalm, hi.trans (congrArg Host.Outcome.next (onScratch_clear hcalm hfog eff))⟩

/-- A form that writes no tag waits for no release. -/
theorem exec_of_onScratch (hi : exec i s = issue n chk l (onScratch waits x a m eff) s) (hclear : s.clear n chk = true)
    (hfog : s.myTeam.fogs.any (fun f => (s.acts.flatMap (fun j => wordsAt (s.scratchOff x a.toNat j) m)).contains f.word) = false) :
    ∃ u, s.Calm u ∧ OnlyGroup s u ∧ exec i s = .next (eff u) := by
  have hcalm := s.learn_calm (expand n.ss)
  exact ⟨_, hcalm, learn_only s _, (hi.trans (issue_clear hclear)).trans (congrArg Host.Outcome.next (onScratch_clear hcalm hfog eff))⟩

end

/-! ### No lane completes -/

theorem waits_of_load {i : Instr} {e : Bool} (hc : s.Calm u) (hi : exec i s = .next (u.loadWhereFull e la d a sz x))
    (hacts : s.acts ≠ [])
    (hempty : ∀ j ∈ s.acts, ∃ w ∈ wordsAt (s.scratchOff x a.toNat j) sz.bytes, s.myTeam.full w = false) :
    Keeps i s (fun t => t.teams = s.teams ∧ t.unit.blocked = true ∧ ∀ b, t.byteAt b = s.byteAt b) := by
  simp only [State.loadWhereFull, hc.acts, hc.scratchOff, hc.myTeam] at hi
  rw [tagSteps_none hempty] at hi
  exact waits_of_narrow (hc.trans (u.noteReads_calm _)) (mt List.map_eq_nil_iff.1 hacts) hi

theorem waits_of_store {i : Instr} (hc : s.Calm u) (hi : exec i s = .next (u.storeWhereEmpty d a sz x)) (hacts : s.acts ≠ [])
    (hfull : ∀ j ∈ s.acts, ∃ w ∈ wordsAt (s.scratchOff x a.toNat j) sz.bytes, s.myTeam.full w = true) :
    Keeps i s (fun t => t.teams = s.teams ∧ t.unit.blocked = true ∧ ∀ b, t.byteAt b = s.byteAt b) := by
  simp only [State.storeWhereEmpty, hc.acts, hc.scratchOff, hc.myTeam] at hi
  rw [tagSteps_none hfull] at hi
  exact waits_of_narrow hc (mt List.map_eq_nil_iff.1 hacts) hi

/-! ### The lanes complete -/

/-- Every lane's words are full: LDS.wfull reads them. -/
theorem loadWhereFull_all (hc : s.Calm u) (hone : OnlyGroup s u) (h4 : 4 ≤ sz.bytes) (hd : d.toNat + sz.regs ≤ 128)
    (hfull : ∀ j ∈ s.acts, ∀ w ∈ wordsAt (s.scratchOff x a.toNat j) sz.bytes, s.myTeam.full w = true) :
    let t := u.loadWhereFull false la d a sz x
    OnlyGroup s t ∧ t.unit = s.unit ∧ t.me.csr = s.me.csr ∧
      LoadResult s t la.toNat d.toNat sz.regs (fun j k => nth (0, false) (s.myTeam.read (s.scratchOff x a.toNat j) sz.bytes) k) := by
  have hseen : ∀ ls done, s.Calm ((u.noteReads ls).narrow done []) ∧ OnlyGroup s ((u.noteReads ls).narrow done []) := fun ls done =>
    ⟨hc.trans ((u.noteReads_calm ls).trans (State.narrow_nil_calm _ done)), (hone.onMe _).onMe (fun g => { g with blocked := none })⟩
  simp only [State.loadWhereFull, hc.acts, hc.scratchOff, hc.myTeam, Bool.false_eq_true, if_false]
  rw [tagSteps_all hfull]
  obtain ⟨hv, hvone⟩ := hseen (fun i => u.scratchLines (wordsAt (s.scratchOff x a.toNat i) sz.bytes))
    ((s.acts.map (fun i => (i, s.myTeam))).map Prod.fst)
  simp only [List.isEmpty_map, List.flatMap_map]
  by_cases hacts : s.acts = []
  · rw [if_pos (List.isEmpty_iff.2 hacts)]
    exact ⟨hvone, hv.unit, hv.regsKept.csr, hv.regsKept.loadResult_nil hacts _ _ _ _⟩
  · rw [if_neg (mt List.isEmpty_iff.1 hacts)]
    exact ⟨hvone.onMe _, hv.unit, (deliver_zero_csr _ _ _).trans hv.regsKept.csr,
      hv.regsKept.loadResult (fun j _ => s.myTeam.read_length _ h4) hd⟩

theorem deliver_myTeam (s : State) (la : Nat) (ds : List Dest) (fl : Flags) : (s.deliver la ds fl).myTeam = s.myTeam := by
  simp only [State.deliver, State.myTeam, State.me_onMe, State.team_onMe]
  split <;> rfl

/-- The words of the one lane are full: LDS.wfull_empty reads them and leaves them empty. -/
theorem loadWhereFull_one (hc : s.Calm u) (h4 : 4 ≤ sz.bytes) (hd : d.toNat + sz.regs ≤ 128) {j : Nat} (hj : s.acts = [j])
    (hfull : ∀ w ∈ wordsAt (s.scratchOff x a.toNat j) sz.bytes, s.myTeam.full w = true) :
    let t := u.loadWhereFull true la d a sz x
    t.unit = { s.unit with effect := true } ∧ t.mem = s.mem ∧ t.me.csr = s.me.csr ∧
      LoadResult s t la.toNat d.toNat sz.regs (fun j k => nth (0, false) (s.myTeam.read (s.scratchOff x a.toNat j) sz.bytes) k) ∧
      t.myTeam = s.myTeam.setTags (wordsAt (s.scratchOff x a.toNat j) sz.bytes) false := by
  let W := fun i => wordsAt (s.scratchOff x a.toNat i) sz.bytes
  let v := (u.noteReads (fun i => u.scratchLines (W i))).narrow [j] []
  have hv : s.Calm v := hc.trans ((u.noteReads_calm _).trans (State.narrow_nil_calm _ [j]))
  have heq : u.loadWhereFull true la d a sz x = (v.scratchWrite (distinct (W j ++ [])) true (s.myTeam.setTags (W j) false)).deliver
      la.toNat ([j].flatMap (fun i => markedDests (vkey i d.toNat) (s.myTeam.read (s.scratchOff x a.toNat i) sz.bytes))) 0 := by
    simp only [State.loadWhereFull, hc.acts, hc.scratchOff, hc.myTeam, hj, if_true]
    rw [tagSteps_one (ws := W) hfull]
    rfl
  obtain ⟨hregs, hunit, hmem, hteam⟩ := hv.scratchWrite (distinct (W j ++ [])) true (s.myTeam.setTags (W j) false)
  have hload := hregs.loadResult (la := la.toNat) (d := d.toNat)
    (fun i _ => s.myTeam.read_length (s.scratchOff x a.toNat i) h4) hd
  rw [heq]
  rw [hj] at hload
  exact ⟨hunit, hmem, (deliver_zero_csr _ _ _).trans hregs.csr, hload, (deliver_myTeam _ _ _ _).trans hteam⟩

/-- The words of the one lane are empty: STS.wefull writes them and leaves them full. -/
theorem storeWhereEmpty_one (hc : s.Calm u) {j : Nat} (hj : s.acts = [j])
    (hempty : ∀ w ∈ wordsAt (s.scratchOff x a.toNat j) sz.bytes, s.myTeam.full w = false) :
    let t := u.storeWhereEmpty d a sz x
    RegsKept s t ∧ t.unit = { s.unit with effect := true } ∧ t.mem = s.mem ∧
      t.myTeam = (s.myTeam.store (s.scratchOff x a.toNat j) sz.bytes (s.dataWords j d.toNat sz.regs)).setTags
        (wordsAt (s.scratchOff x a.toNat j) sz.bytes) true := by
  let W := fun i => wordsAt (s.scratchOff x a.toNat i) sz.bytes
  have heq : u.storeWhereEmpty d a sz x = (u.narrow [j] []).scratchWrite (distinct (W j ++ [])) true
      ((s.myTeam.store (s.scratchOff x a.toNat j) sz.bytes (s.dataWords j d.toNat sz.regs)).setTags (W j) true) := by
    simp only [State.storeWhereEmpty, hc.acts, hc.scratchOff, hc.myTeam, hc.dataWords, hj]
    rw [tagSteps_one (ws := W) hempty]
    rfl
  rw [heq]
  exact (hc.trans (u.narrow_nil_calm [j])).scratchWrite _ _ _

end

/-- The word `k` of a lane's data, where it stores `n` of them. -/
theorem State.nth_dataWords (s : State) (i d : Nat) {n k : Nat} (hk : k < n) : nth 0 (s.dataWords i d n) k = s.rv i (d + k) := by
  rw [State.dataWords, nth_eq_getElem 0 (by simpa using hk), List.getElem_map, List.getElem_range]

/-- What a store of whole words leaves in the scratchpad (R162, R454). -/
theorem Team.store_words (s : State) (T : Team) (o j d : Nat) {sz : Size} (h4 : 4 ≤ sz.bytes) :
    let t := T.store o sz.bytes (s.dataWords j d sz.regs)
    (∀ k, k < sz.regs → t.word (o / 4 + k) = s.rv j (d + k) ∧ t.bad (o / 4 + k) = false) ∧
    ∀ w, w ∉ wordsAt o sz.bytes → t.word w = T.word w ∧ t.bad w = T.bad w := by
  have hlen : (s.dataWords j d sz.regs).length = sz.regs := by simp [State.dataWords]
  refine ⟨fun k hk => ⟨?_, ?_⟩, fun w hw => ⟨?_, ?_⟩⟩
  · rw [Team.word_store _ _ h4, hlen, if_pos (by omega), Nat.add_sub_cancel_left, s.nth_dataWords _ _ hk]
  · rw [Team.bad_store _ _ h4, if_pos (mem_wordsAt.2 (by rw [size_regs]; omega))]
  · rw [mem_wordsAt, size_regs] at hw
    rw [Team.word_store _ _ h4, hlen, if_neg hw]
  · rw [Team.bad_store _ _ h4, if_neg hw]

/-- Settles O37: each form is its issue, its handoff, its lanes' steps and its results, one after another. -/
theorem scratchWaitingAccesses : Obligations.ScratchWaitingAccesses := by
  unfold Obligations.ScratchWaitingAccesses
  intro s la d a sz x hd h4 n o W T waits hfog
  refine ⟨fun hclear => ⟨fun hfull => ?_, fun hheld => ?_, fun j hj hfull hfree => ?_, fun hacts hempty => ⟨?_, ?_⟩⟩,
    fun hclear => ⟨fun hheld => ⟨?_, ?_⟩, fun j hj hempty hfree => ?_, fun hacts hfull => ?_⟩⟩
  · obtain ⟨u, hcalm, hone, hexec⟩ := exec_of_onScratch (exec_ldsWfull (la := la)) hclear hfog
    exact ⟨_, hexec, loadWhereFull_all hcalm hone h4 hd hfull⟩
  · exact waits_of_held exec_ldsWfullEmpty hclear hheld
  · obtain ⟨u, hcalm, hexec⟩ := exec_of_handing (exec_ldsWfullEmpty (la := la)) hclear hfree hfog
    obtain ⟨hunit, hmem, hcsr, hload, hteam⟩ := loadWhereFull_one (la := la) hcalm h4 hd hj hfull
    refine ⟨_, hexec, hunit, fun b => congrArg (fget Memory.unlisted · b) hmem, hcsr, hload, fun w => ?_⟩
    rw [hteam]
    exact ⟨rfl, rfl, Team.full_emptied T (W j) w⟩
  · obtain ⟨u, hcalm, -, hexec⟩ := exec_of_onScratch (exec_ldsWfull (la := la)) hclear hfog
    exact waits_of_load hcalm hexec hacts hempty
  · cases hfree : s.handsOff s.unit.g with
    | false => exact waits_of_held exec_ldsWfullEmpty hclear hfree
    | true =>
      obtain ⟨u, hcalm, hexec⟩ := exec_of_handing (exec_ldsWfullEmpty (la := la)) hclear hfree hfog
      exact waits_of_load hcalm hexec hacts hempty
  · exact waits_of_held exec_stsWefull hclear hheld
  · exact waits_of_held (i := .stsSfull d a sz x) rfl hclear hheld
  · obtain ⟨u, hcalm, hexec⟩ := exec_of_handing (exec_stsWefull (d := d)) hclear hfree hfog
    obtain ⟨hregs, hunit, hmem, hteam⟩ := storeWhereEmpty_one (d := d) hcalm hj hempty
    obtain ⟨hwritten, hkept⟩ := Team.store_words s T (o j) j d.toNat h4
    refine ⟨_, hexec, hregs, hunit, fun b => congrArg (fget Memory.unlisted · b) hmem, ?_⟩
    rw [hteam]
    refine ⟨hwritten, hkept, fun w => ?_⟩
    rw [Team.full_filled, Team.full_store]
  · cases hfree : s.handsOff s.unit.g with
    | false => exact waits_of_held exec_stsWefull hclear hfree
    | true =>
      obtain ⟨u, hcalm, hexec⟩ := exec_of_handing (exec_stsWefull (d := d)) hclear hfree hfog
      exact waits_of_store hcalm hexec hacts hfull

end Sys2Proof.Machine
end

section
/-!
A fetch may wake a lane: the walker sets A in the leaf that the packet is read through, which is a write to the leaf's line (R354),
and a lane that spins on that line runs again (R19).  The step has chosen its ACTIVE lanes before the fetch.
-/

namespace Sys2Proof.Machine

/-- Lane 0 runs at address 0, whose packet the buffer does not hold; lane 1 stands there too, parked on the line of the page table's
leaf. -/
def leafSpinner : Group :=
  { Group.blank with
    width := 8, budget := 128, seg := { Segs.blank with cl := 12 }
    lanes := [Lane.start, { Lane.start with st := .parked, wait := .spin [memLine 0x12000] }] ++ List.replicate 6 Lane.blank }

/-- Its turn has come up, and the one leaf that maps the address space has A = 0. -/
def leafUnread : State :=
  { State.reset with
    groups := [(0, leafSpinner)], teams := [(0, { Team.blank with groups := 1, lanes := 2, width := 8 })], execs := [(0, Exec.blank)]
    mem := [(0x10000, 0x01), (0x10003, 0x12), (0x12000, 0xAF), (0x12001, 0x20)]
    dieC := { DieC.start with asroot := [(0, 0x10000001)] } }

/-- The leaf through which its packet is fetched. -/
def unreadLeaf : Leaf := ⟨0x20AF, 0x12000, 0, 2 ^ 36⟩

/-- The packet is fetched: three words 0, each a NOP. -/
def leafRead : State := leafUnread.refill 0 0 [(0, unreadLeaf, 0), (0, unreadLeaf, 4), (0, unreadLeaf, 8)]

/-- Where lane 1 of group 0 stands in an answer's next state. -/
def laneOneAt (a : Answer) : Word := match a with
  | .next t => ((t.grp 0).lane 1).lpc
  | .fault _ => 0
  | .refused _ => 0

theorem leafUnread_fetched : leafUnread.fetched 0 0 = some (leafRead, [0, 0, 0]) := by
  have hbuf : (leafUnread.grp 0).ibuf.find? (fun e => e.1 == pktOf 0) = none := by decide
  have hopen : leafUnread.packetOpen 0 (pktOf 0) = true := by decide +kernel
  have hfetch : leafUnread.fetch 0 (pktOf 0) = .words [(0, unreadLeaf, 0), (0, unreadLeaf, 4), (0, unreadLeaf, 8)] := by
    decide +kernel
  simp only [State.fetched, hbuf, hopen, hfetch]
  rfl

/-- The step leaves lane 1 at address 0. -/
theorem laneOneAt_step : laneOneAt (step { leafUnread with agenda := [.issue 0] }) = 0 := by decide +kernel

/-- Refutes O5: the statement's unit takes its ACTIVE lanes after the fetch, the step takes them before.  Where the fetch wakes a lane
that stands at the issue address, the statement moves that lane past the NOP and the step leaves it. -/
theorem not_stepRunsDecodedInstruction : ¬ Obligations.StepRunsDecodedInstruction := by
  unfold Obligations.StepRunsDecodedInstruction
  intro h
  obtain ⟨-, -, -, -, hcompletes⟩ := h { leafUnread with agenda := [.issue 0] } leafRead 0 1 [] 0 [0, 0, 0] .nop rfl
    (by decide +kernel) (by decide +kernel) leafUnread_fetched (by decide +kernel) rfl (by decide +kernel) (by decide +kernel)
  have hstep := hcompletes (leafRead.issuedUnit 0 0 1 0) rfl (by decide +kernel) (by decide +kernel) rfl
  have hlane := congrArg laneOneAt hstep
  rw [laneOneAt_step] at hlane
  exact absurd hlane (by decide +kernel)

end Sys2Proof.Machine
end

section
/-!
The round trip of the encoder and the decoder (R28, R29, R34, R46, R47): each word names by its major the decoder that reads its
fields, and that decoder's arm by its function code, and the fields read are those that were packed.
-/

namespace Sys2Proof

-- One theorem at a time: its proof is checked, and its memory free, before the next begins.
set_option Elab.async false

@[simp] theorem ok_bind {α β : Type} (x : α) (f : α → Except Reject β) : (Except.ok x >>= f) = f x := rfl
@[simp] theorem zero_ofNat {n : Nat} : zero 0#n = .ok () := zero_zero
@[simp] theorem ofBool_beq_one (b : Bool) : (BitVec.ofBool b == 1#1) = b := by cases b <;> rfl
@[simp] theorem low4_barE_mask (f : Bool) (b : BitVec 4) : low4 (barE f b &&& 111#7) = .ok b := low4_barE f b

/-! ### The decoder of each major (R46) -/

/-- The decoder that a major names (R46), as `decodeFields` lists them. -/
noncomputable def decoderOf (mj : BitVec 6) (c : Bool) (w w2 : Word) : Except Reject Instr :=
  match mj.toNat with
  | 0 => decSys c w
  | 1 => decInt w
  | 2 => decIntS w
  | 3 => decInt2 w
  | 4 => decInt2S w
  | 5 => decIcmp w
  | 6 => decIcmpS w
  | 7 => decFop w
  | 8 => decFopS w
  | 9 => decFcmp w
  | 10 => decFcmpS w
  | 11 => decHop w
  | 12 => decHopS w
  | 13 => decSel w
  | 14 => decPlog w
  | 15 => decAddi w
  | 16 => decAndi w
  | 17 => decOri w
  | 18 => decXori w
  | 19 => decShi w
  | 20 => decMovi w
  | 21 => decLit w w2
  | 22 => decSop w
  | 23 => decSaddi w
  | 24 => decXmov w
  | 25 => decSfu w
  | 26 => decCvt w
  | 27 => decQcvt w w2
  | 28 => decDot w
  | 29 => decTrit w
  | 30 => decXlane w
  | 31 => decRng w
  | 32 => decBra w
  | 33 => decBru w
  | 34 => decBrx w
  | 35 => decJmp w
  | 36 => decBar w
  | 37 => decFence w
  | 38 => decExit w
  | 39 => decLdg w
  | 40 => decLdgi w
  | 41 => decStg w
  | 42 => decLds w
  | 43 => decSts w
  | 44 => decLdp w
  | 45 => decStp w
  | 46 => decLdk w
  | 47 => decAtom w w2
  | 48 => decRed w
  | 49 => decTcopy w w2
  | 50 => decTmap w
  | 51 => decQop w
  | 52 => decAres w
  | 53 => decTun w w2
  | 54 => decTrace w w2
  | 55 => decLtwalk w w2
  | 56 => decRsv w
  | 57 => decRsvm w
  | 58 => decSmp w w2
  | 59 => decEng w w2
  | 60 => decOrd w
  | _ => .error .reservedMajor

section
variable {c t : Bool} {w w2 : Word} {mj : BitVec 6} {fn : BitVec 4} {d a b : Reg} {imm : Imm11} {la : La} {op os : BitVec 3}
  {x : BitVec 1} {off : Off21} {tid : Tid} {fn2 : BitVec 2}

theorem decodeFields_of_major (h : majorOf w = mj) : decodeFields c w w2 = decoderOf mj c w w2 := by rw [decodeFields, h]; rfl

@[simp] theorem decodeFields_packR : decodeFields c (packR t mj fn d a b) w2 = decoderOf mj c (packR t mj fn d a b) w2 :=
  decodeFields_of_major (majorOf_packR ..)
@[simp] theorem decodeFields_packI : decodeFields c (packI t mj d a imm) w2 = decoderOf mj c (packI t mj d a imm) w2 :=
  decodeFields_of_major (majorOf_packI ..)
@[simp] theorem decodeFields_packU : decodeFields c (packU t mj la d a fn op) w2 = decoderOf mj c (packU t mj la d a fn op) w2 :=
  decodeFields_of_major (majorOf_packU ..)
@[simp] theorem decodeFields_packM : decodeFields c (packM t mj la d a op os x) w2 = decoderOf mj c (packM t mj la d a op os x) w2 :=
  decodeFields_of_major (majorOf_packM ..)
@[simp] theorem decodeFields_packB : decodeFields c (packB t mj x op off) w2 = decoderOf mj c (packB t mj x op off) w2 :=
  decodeFields_of_major (majorOf_packB ..)
@[simp] theorem decodeFields_packT : decodeFields c (packT t mj tid d a) w2 = decoderOf mj c (packT t mj tid d a) w2 :=
  decodeFields_of_major (majorOf_packT ..)
@[simp] theorem decodeFields_packE : decodeFields c (packE t mj op tid d a fn2) w2 = decoderOf mj c (packE t mj op tid d a fn2) w2 :=
  decodeFields_of_major (majorOf_packE ..)
@[simp] theorem decodeFields_packV : decodeFields c (packV t mj fn2 tid a) w2 = decoderOf mj c (packV t mj fn2 tid a) w2 :=
  decodeFields_of_major (majorOf_packV ..)
@[simp] theorem decodeFields_packS : decodeFields c (packS t mj la d a tid) w2 = decoderOf mj c (packS t mj la d a tid) w2 :=
  decodeFields_of_major (majorOf_packS ..)

@[simp] theorem decoderOf_sys : decoderOf 0#6 c w w2 = decSys c w := (rfl)
@[simp] theorem decoderOf_int : decoderOf 1#6 c w w2 = decInt w := (rfl)
@[simp] theorem decoderOf_intS : decoderOf 2#6 c w w2 = decIntS w := (rfl)
@[simp] theorem decoderOf_int2 : decoderOf 3#6 c w w2 = decInt2 w := (rfl)
@[simp] theorem decoderOf_int2S : decoderOf 4#6 c w w2 = decInt2S w := (rfl)
@[simp] theorem decoderOf_icmp : decoderOf 5#6 c w w2 = decIcmp w := (rfl)
@[simp] theorem decoderOf_icmpS : decoderOf 6#6 c w w2 = decIcmpS w := (rfl)
@[simp] theorem decoderOf_fop : decoderOf 7#6 c w w2 = decFop w := (rfl)
@[simp] theorem decoderOf_fopS : decoderOf 8#6 c w w2 = decFopS w := (rfl)
@[simp] theorem decoderOf_fcmp : decoderOf 9#6 c w w2 = decFcmp w := (rfl)
@[simp] theorem decoderOf_fcmpS : decoderOf 10#6 c w w2 = decFcmpS w := (rfl)
@[simp] theorem decoderOf_hop : decoderOf 11#6 c w w2 = decHop w := (rfl)
@[simp] theorem decoderOf_hopS : decoderOf 12#6 c w w2 = decHopS w := (rfl)
@[simp] theorem decoderOf_sel : decoderOf 13#6 c w w2 = decSel w := (rfl)
@[simp] theorem decoderOf_plog : decoderOf 14#6 c w w2 = decPlog w := (rfl)
@[simp] theorem decoderOf_addi : decoderOf 15#6 c w w2 = decAddi w := (rfl)
@[simp] theorem decoderOf_andi : decoderOf 16#6 c w w2 = decAndi w := (rfl)
@[simp] theorem decoderOf_ori : decoderOf 17#6 c w w2 = decOri w := (rfl)
@[simp] theorem decoderOf_xori : decoderOf 18#6 c w w2 = decXori w := (rfl)
@[simp] theorem decoderOf_shi : decoderOf 19#6 c w w2 = decShi w := (rfl)
@[simp] theorem decoderOf_movi : decoderOf 20#6 c w w2 = decMovi w := (rfl)
@[simp] theorem decoderOf_lit : decoderOf 21#6 c w w2 = decLit w w2 := (rfl)
@[simp] theorem decoderOf_sop : decoderOf 22#6 c w w2 = decSop w := (rfl)
@[simp] theorem decoderOf_saddi : decoderOf 23#6 c w w2 = decSaddi w := (rfl)
@[simp] theorem decoderOf_xmov : decoderOf 24#6 c w w2 = decXmov w := (rfl)
@[simp] theorem decoderOf_sfu : decoderOf 25#6 c w w2 = decSfu w := (rfl)
@[simp] theorem decoderOf_cvt : decoderOf 26#6 c w w2 = decCvt w := (rfl)
@[simp] theorem decoderOf_qcvt : decoderOf 27#6 c w w2 = decQcvt w w2 := (rfl)
@[simp] theorem decoderOf_dot : decoderOf 28#6 c w w2 = decDot w := (rfl)
@[simp] theorem decoderOf_trit : decoderOf 29#6 c w w2 = decTrit w := (rfl)
@[simp] theorem decoderOf_xlane : decoderOf 30#6 c w w2 = decXlane w := (rfl)
@[simp] theorem decoderOf_rng : decoderOf 31#6 c w w2 = decRng w := (rfl)
@[simp] theorem decoderOf_bra : decoderOf 32#6 c w w2 = decBra w := (rfl)
@[simp] theorem decoderOf_bru : decoderOf 33#6 c w w2 = decBru w := (rfl)
@[simp] theorem decoderOf_brx : decoderOf 34#6 c w w2 = decBrx w := (rfl)
@[simp] theorem decoderOf_jmp : decoderOf 35#6 c w w2 = decJmp w := (rfl)
@[simp] theorem decoderOf_bar : decoderOf 36#6 c w w2 = decBar w := (rfl)
@[simp] theorem decoderOf_fence : decoderOf 37#6 c w w2 = decFence w := (rfl)
@[simp] theorem decoderOf_exit : decoderOf 38#6 c w w2 = decExit w := (rfl)
@[simp] theorem decoderOf_ldg : decoderOf 39#6 c w w2 = decLdg w := (rfl)
@[simp] theorem decoderOf_ldgi : decoderOf 40#6 c w w2 = decLdgi w := (rfl)
@[simp] theorem decoderOf_stg : decoderOf 41#6 c w w2 = decStg w := (rfl)
@[simp] theorem decoderOf_lds : decoderOf 42#6 c w w2 = decLds w := (rfl)
@[simp] theorem decoderOf_sts : decoderOf 43#6 c w w2 = decSts w := (rfl)
@[simp] theorem decoderOf_ldp : decoderOf 44#6 c w w2 = decLdp w := (rfl)
@[simp] theorem decoderOf_stp : decoderOf 45#6 c w w2 = decStp w := (rfl)
@[simp] theorem decoderOf_ldk : decoderOf 46#6 c w w2 = decLdk w := (rfl)
@[simp] theorem decoderOf_atom : decoderOf 47#6 c w w2 = decAtom w w2 := (rfl)
@[simp] theorem decoderOf_red : decoderOf 48#6 c w w2 = decRed w := (rfl)
@[simp] theorem decoderOf_tcopy : decoderOf 49#6 c w w2 = decTcopy w w2 := (rfl)
@[simp] theorem decoderOf_tmap : decoderOf 50#6 c w w2 = decTmap w := (rfl)
@[simp] theorem decoderOf_qop : decoderOf 51#6 c w w2 = decQop w := (rfl)
@[simp] theorem decoderOf_ares : decoderOf 52#6 c w w2 = decAres w := (rfl)
@[simp] theorem decoderOf_tun : decoderOf 53#6 c w w2 = decTun w w2 := (rfl)
@[simp] theorem decoderOf_trace : decoderOf 54#6 c w w2 = decTrace w w2 := (rfl)
@[simp] theorem decoderOf_ltwalk : decoderOf 55#6 c w w2 = decLtwalk w w2 := (rfl)
@[simp] theorem decoderOf_rsv : decoderOf 56#6 c w w2 = decRsv w := (rfl)
@[simp] theorem decoderOf_rsvm : decoderOf 57#6 c w w2 = decRsvm w := (rfl)
@[simp] theorem decoderOf_smp : decoderOf 58#6 c w w2 = decSmp w w2 := (rfl)
@[simp] theorem decoderOf_eng : decoderOf 59#6 c w w2 = decEng w w2 := (rfl)
@[simp] theorem decoderOf_ord : decoderOf 60#6 c w w2 = decOrd w := (rfl)

end

/-! ### What each decoder does -/

@[simp] theorem decSys_eq : type_of% decSys.eq_def := decSys.eq_def
@[simp] theorem decInt_eq : type_of% decInt.eq_def := decInt.eq_def
@[simp] theorem decIntS_eq : type_of% decIntS.eq_def := decIntS.eq_def
@[simp] theorem decInt2_eq : type_of% decInt2.eq_def := decInt2.eq_def
@[simp] theorem decInt2S_eq : type_of% decInt2S.eq_def := decInt2S.eq_def
@[simp] theorem decIcmp_eq : type_of% decIcmp.eq_def := decIcmp.eq_def
@[simp] theorem decIcmpS_eq : type_of% decIcmpS.eq_def := decIcmpS.eq_def
@[simp] theorem decFop_eq : type_of% decFop.eq_def := decFop.eq_def
@[simp] theorem decFopS_eq : type_of% decFopS.eq_def := decFopS.eq_def
@[simp] theorem decFcmp_eq : type_of% decFcmp.eq_def := decFcmp.eq_def
@[simp] theorem decFcmpS_eq : type_of% decFcmpS.eq_def := decFcmpS.eq_def
@[simp] theorem decHop_eq : type_of% decHop.eq_def := decHop.eq_def
@[simp] theorem decHopS_eq : type_of% decHopS.eq_def := decHopS.eq_def
@[simp] theorem decSel_eq : type_of% decSel.eq_def := decSel.eq_def
@[simp] theorem decPlog_eq : type_of% decPlog.eq_def := decPlog.eq_def
@[simp] theorem decAddi_eq : type_of% decAddi.eq_def := decAddi.eq_def
@[simp] theorem decAndi_eq : type_of% decAndi.eq_def := decAndi.eq_def
@[simp] theorem decOri_eq : type_of% decOri.eq_def := decOri.eq_def
@[simp] theorem decXori_eq : type_of% decXori.eq_def := decXori.eq_def
@[simp] theorem decShi_eq : type_of% decShi.eq_def := decShi.eq_def
@[simp] theorem decMovi_eq : type_of% decMovi.eq_def := decMovi.eq_def
@[simp] theorem decLit_eq : type_of% decLit.eq_def := decLit.eq_def
@[simp] theorem decSop_eq : type_of% decSop.eq_def := decSop.eq_def
@[simp] theorem decSaddi_eq : type_of% decSaddi.eq_def := decSaddi.eq_def
@[simp] theorem decXmov_eq : type_of% decXmov.eq_def := decXmov.eq_def
@[simp] theorem decSfu_eq : type_of% decSfu.eq_def := decSfu.eq_def
@[simp] theorem decCvt_eq : type_of% decCvt.eq_def := decCvt.eq_def
@[simp] theorem decQcvt_eq : type_of% decQcvt.eq_def := decQcvt.eq_def
@[simp] theorem decDot_eq : type_of% decDot.eq_def := decDot.eq_def
@[simp] theorem decTrit_eq : type_of% decTrit.eq_def := decTrit.eq_def
@[simp] theorem decXlane_eq : type_of% decXlane.eq_def := decXlane.eq_def
@[simp] theorem decRng_eq : type_of% decRng.eq_def := decRng.eq_def
@[simp] theorem decBra_eq : type_of% decBra.eq_def := decBra.eq_def
@[simp] theorem decBru_eq : type_of% decBru.eq_def := decBru.eq_def
@[simp] theorem decBrx_eq : type_of% decBrx.eq_def := decBrx.eq_def
@[simp] theorem decJmp_eq : type_of% decJmp.eq_def := decJmp.eq_def
@[simp] theorem decBar_eq : type_of% decBar.eq_def := decBar.eq_def
@[simp] theorem decFence_eq : type_of% decFence.eq_def := decFence.eq_def
@[simp] theorem decExit_eq : type_of% decExit.eq_def := decExit.eq_def
@[simp] theorem decLdg_eq : type_of% decLdg.eq_def := decLdg.eq_def
@[simp] theorem decLdgi_eq : type_of% decLdgi.eq_def := decLdgi.eq_def
@[simp] theorem decStg_eq : type_of% decStg.eq_def := decStg.eq_def
@[simp] theorem decLds_eq : type_of% decLds.eq_def := decLds.eq_def
@[simp] theorem decSts_eq : type_of% decSts.eq_def := decSts.eq_def
@[simp] theorem decLdp_eq : type_of% decLdp.eq_def := decLdp.eq_def
@[simp] theorem decStp_eq : type_of% decStp.eq_def := decStp.eq_def
@[simp] theorem decLdk_eq : type_of% decLdk.eq_def := decLdk.eq_def
@[simp] theorem decAtom_eq : type_of% decAtom.eq_def := decAtom.eq_def
@[simp] theorem decRed_eq : type_of% decRed.eq_def := decRed.eq_def
@[simp] theorem decTcopy_eq : type_of% decTcopy.eq_def := decTcopy.eq_def
@[simp] theorem decTmap_eq : type_of% decTmap.eq_def := decTmap.eq_def
@[simp] theorem decQop_eq : type_of% decQop.eq_def := decQop.eq_def
@[simp] theorem decAres_eq : type_of% decAres.eq_def := decAres.eq_def
@[simp] theorem decTun_eq : type_of% decTun.eq_def := decTun.eq_def
@[simp] theorem decTrace_eq : type_of% decTrace.eq_def := decTrace.eq_def
@[simp] theorem decLtwalk_eq : type_of% decLtwalk.eq_def := decLtwalk.eq_def
@[simp] theorem decRsv_eq : type_of% decRsv.eq_def := decRsv.eq_def
@[simp] theorem decRsvm_eq : type_of% decRsvm.eq_def := decRsvm.eq_def
@[simp] theorem decSmp_eq : type_of% decSmp.eq_def := decSmp.eq_def
@[simp] theorem decEng_eq : type_of% decEng.eq_def := decEng.eq_def
@[simp] theorem decOrd_eq : type_of% decOrd.eq_def := decOrd.eq_def

/-! ### What the words of an instruction hold -/

/-- The words that stand for `i` with tie bit `c` hold it, where it is well formed: the major of the first says how many they are, the
last has the tie bit, and the fields read from them are those of `i`.  No words stand for an event or for a tied instruction. -/
def Instr.ReadFrom (i : Instr) (c : Bool) : Option (List Word) → Prop
  | none => c = true ∨ i.pipe = none
  | some [w] => i.WellFormed → twoWord (majorOf w) = false ∧ tieBit w = BitVec.ofBool c ∧ decodeFields c w 0 = .ok i
  | some [w, w2] =>
    i.WellFormed → twoWord (majorOf w) = true ∧ tieBit w = 0 ∧ tieBit w2 = BitVec.ofBool c ∧ decodeFields false w w2 = .ok i
  | some _ => False

theorem readFrom_nop (c : Bool) : Instr.ReadFrom .nop c (encode .nop c) := by
  cases c with
  | false =>
    intro _
    simp (decide := true) [-Except.ok.injEq]
  | true => exact .inl rfl

theorem readFrom_segld (a : Reg) (k : BitVec 2) (c : Bool) : Instr.ReadFrom (.segld a k) c (encode (.segld a k) c) := by
  intro hf
  have hk : (k != 3#2) = true := by
    by_contra hne
    unfold Instr.WellFormed Instr.flaw at hf
    split at hf
    · cases hf
    · rw [show Instr.fieldsFit (.segld a k) = (k != 3) from rfl, if_pos (by simpa using hne)] at hf
      cases hf
  simp (decide := true) [hk, -Except.ok.injEq]

theorem encode_readFrom (i : Instr) (c : Bool) : i.ReadFrom c (encode i c) := by
  cases i
  case nop => exact readFrom_nop c
  case segld a k => exact readFrom_segld a k c
  any_goals as_aux_lemma =>
    intro _
    simp (decide := true) [-Except.ok.injEq]
  all_goals exact Or.inr rfl

/-- Words that hold a well-formed instruction decode to it, whatever follows them. -/
theorem decodeWords_of_readFrom {i : Instr} {c : Bool} {ws : List Word} (hr : i.ReadFrom c (some ws)) (hf : i.WellFormed)
    (rest : List Word) : decodeWords (ws ++ rest) = .ok ⟨i, c, ws.length⟩ := by
  have hchecked : checked i = .ok i := by rw [checked, hf]
  match ws, hr with
  | [w], hr =>
    obtain ⟨hone, htie, hfields⟩ := hr hf
    have hz : decodeFields c w 0#32 = .ok i := hfields
    simp [decodeWords, hone, htie, hz, hchecked]
  | [w, w2], hr =>
    obtain ⟨htwo, hfirst, htie, hfields⟩ := hr hf
    simp [decodeWords, htwo, hfirst, htie, hfields, hchecked]

/-- Every instruction that has a pipe class has an encoding. -/
theorem encode_isSome {i : Instr} (hp : i.pipe.isSome = true) : (encode i false).isSome = true := by
  have hr := encode_readFrom i false
  cases he : encode i false with
  | some ws => rfl
  | none =>
    rw [he] at hr
    rcases hr with hc | hnone
    · cases hc
    · rw [hnone] at hp; exact hp

end Sys2Proof
end

section
/-!
The words of the spec, and the round trip.
-/

namespace Sys2Proof.Machine

/-- Settles O7: each word evaluates to its instruction. -/
theorem decodingWords : Obligations.DecodingWords :=
  ⟨rfl, rfl, rfl, rfl, rfl, rfl, rfl, rfl, rfl⟩

/-- Settles O6, by what the words of an instruction hold. -/
theorem decodeOfEncode : Obligations.DecodeOfEncode := by
  unfold Obligations.DecodeOfEncode
  refine ⟨fun i c ws rest hf h => decodeWords_of_readFrom ?_ hf rest, fun i hp => encode_isSome hp⟩
  rw [← h]
  exact encode_readFrom i c

end Sys2Proof.Machine
end

section
/-!
No step is refused, and no encoded instruction stops the machine (R32, R33, R47): an instruction's meaning is an issue, which answers a
next state, and so is every event but for the three that need a dispatcher slot.
-/

namespace Sys2Proof.Machine

-- One theorem at a time: its proof is checked, and its memory free, before the next begins.
set_option Elab.async false

/-! ### Answers -/

/-- The answer is a next state. -/
def IsNext (a : Answer) : Prop := ∃ t, a = .next t

/-- The machine stops for a dispatcher slot that no memory holds. -/
def State.LacksSlot (s : State) (a : Answer) : Prop := ∃ slot, a = .fault (.noMemory (s.slotKey slot)) ∧ s.slotThere slot = false

theorem isNext_next {t : State} : IsNext (.next t) := ⟨t, rfl⟩

theorem isNext_ite {p : Prop} {_ : Decidable p} {a b : Answer} (ha : IsNext a) (hb : IsNext b) : IsNext (if p then a else b) := by
  split
  · exact ha
  · exact hb

theorem isNext_ite_next {p : Prop} {_ : Decidable p} {a b : State} : IsNext (if p then .next a else .next b) :=
  isNext_ite isNext_next isNext_next

theorem State.LacksSlot.congr {s t : State} {a : Answer} (h : t.LacksSlot a) (hc : t.dieC = s.dieC) : s.LacksSlot a := by
  obtain ⟨slot, ha, hthere⟩ := h
  simp only [State.slotKey, State.slotThere, hc] at ha hthere
  exact ⟨slot, ha, hthere⟩

/-! ### The meanings of the instructions -/

/-- A meaning behind one definition. -/
def Meaning.behind1 (m : Meaning) : Meaning := m
/-- Behind two. -/
def Meaning.behind2 (m : Meaning) : Meaning := m.behind1
/-- Behind three.  The unifier opens the two sides of an equation in step, a definition at a time: an issue that stands behind three
meets that of a shape, at whatever depth an instruction's meaning names the shape. -/
def Meaning.behind3 (m : Meaning) : Meaning := m.behind2

section
variable {n : Need} {chk : State → Nat → Option Cause} {la : Nat} {eff : State → State} {s : State}

theorem isNext_issue : IsNext (Meaning.behind3 (issue n chk la eff) s) := issue_next n chk la eff s

theorem isNext_privileged : IsNext (privileged (issue n chk la eff) s) := isNext_ite (issue_next ..) isNext_next

theorem isNext_userOnly : IsNext (userOnly (issue n chk la eff) s) := isNext_ite isNext_next (issue_next ..)

end

/-! ### The events that need a slot -/

/-- A next state, or a stop for want of a slot. -/
def State.Answers (s : State) (a : Answer) : Prop := IsNext a ∨ s.LacksSlot a

section
variable {s : State}

theorem State.answers_next {t : State} : s.Answers (.next t) := .inl isNext_next

theorem State.answers_noMemory {slot : Nat} (h : (!s.slotThere slot) = true) : s.Answers (.fault (.noMemory (s.slotKey slot))) :=
  .inr ⟨slot, rfl, by simpa using h⟩

theorem State.answers_ite {p : Prop} {_ : Decidable p} {a b : Answer} (ha : p → s.Answers a) (hb : s.Answers b) :
    s.Answers (if p then a else b) := by
  split
  case isTrue h => exact ha h
  case isFalse => exact hb

end

theorem execReqseqNotify_answers (slot : Nat) (s : State) : s.Answers (execReqseqNotify slot s) :=
  State.answers_ite (fun _ => State.answers_next) (State.answers_ite State.answers_noMemory State.answers_next)

theorem execExecutionStart_answers (slot : Nat) (s : State) : s.Answers (execExecutionStart slot s) :=
  State.answers_ite (fun h => State.answers_noMemory (Bool.and_eq_true_iff.mp h).2) (.inl (isNext_ite isNext_next isNext_ite_next))

theorem State.launchStep_answers (s : State) (c : Cmd) : s.Answers (s.launchStep c) := by
  refine answers_ite (fun _ => answers_next) (answers_ite (fun _ => answers_next) (answers_ite (fun _ => .inl isNext_ite_next) ?_))
  refine answers_ite (fun _ => answers_next) (answers_ite (fun _ => answers_next) (answers_ite answers_noMemory ?_))
  exact .inl (isNext_ite isNext_next isNext_ite_next)

theorem execLaunchReqseqAdd_answers (id : Nat) (s : State) : s.Answers (execLaunchReqseqAdd id s) := by
  unfold execLaunchReqseqAdd
  split
  · exact State.answers_next
  · exact s.launchStep_answers _

/-! ### Every instruction and event -/

/-- A next state is the answer to each instruction and event, but to an event that needs a slot where no memory holds it. -/
theorem exec_isNext_or_lacksSlot (i : Instr) (s : State) : IsNext (exec i s) ∨ i.pipe = none ∧ s.LacksSlot (exec i s) := by
  cases i
  case reqseqNotify slot => exact (execReqseqNotify_answers slot s).imp_right fun h => ⟨rfl, h⟩
  case executionStart slot => exact (execExecutionStart_answers slot s).imp_right fun h => ⟨rfl, h⟩
  case launchReqseqAdd id => exact (execLaunchReqseqAdd_answers id s).imp_right fun h => ⟨rfl, h⟩
  case eret | halt | segld | tlbinv | tlbinvAll => exact .inl isNext_privileged
  case tunBdiag => exact .inl (isNext_ite isNext_issue isNext_next)
  case bar | arrive | waitb | gbar => exact .inl isNext_userOnly
  case lit sd d v => cases sd <;> exact .inl isNext_issue
  all_goals apply Or.inl
  any_goals as_aux_lemma => exact isNext_issue
  any_goals as_aux_lemma => exact isNext_next
  any_goals as_aux_lemma => exact isNext_ite_next
  all_goals
    dsimp only [exec, heldEvent, execBandNetworkDone, execBandStart, execBandUnderrun, execBlockPark, execCollContribution, execCollOperationComplete,
      execCollTimeout, execCopyComplete, execCopyStart, execCoreSplitChange, execCounterClear, execFenceAcqDone,
      execFragmentGroupStart, execGristComplete, execGristStart, execHead2FrameRelease, execHostAtomicop, execHostRead,
      execHostWrite, execIcinvDone, execInstructionFetch, execLookaheadResult, execMotionBlockDone, execNetworkDeadline,
      execPackageReset, execPageWalk, execPhaseDone, execProgramValidated, execRasterBinning, execRedflushDone,
      execRegisterEccError, execRepeatDone, execReprojectionDone, execScanoutLine, execSliceApply, execSliceRead,
      execSpargeComplete, execSpargeStart, execStoreRequestSend, execTeamPlace, execTeamResume, execTidsetDone,
      execTlbinvDone, execTunCommandComplete, execTunCommandStart, execTunTagWaitLimit, execWriteAck, execXfenceDone]
    repeat' (split <;> try exact isNext_next)

theorem exec_isNext {i : Instr} (hp : i.pipe.isSome = true) (s : State) : IsNext (exec i s) := by
  rcases exec_isNext_or_lacksSlot i s with h | ⟨hnone, -⟩
  · exact h
  · rw [hnone] at hp; cases hp

/-! ### A unit -/

/-- All of some members have a pipe class. -/
def Piped (ms : List Member) : Prop := ∀ m ∈ ms, m.instr.pipe.isSome = true

theorem chainFrom_piped (ws : List Word) (pkt fuel slot : Nat) (seen : List Pipe) : Piped (chainFrom ws pkt fuel slot seen).members := by
  induction fuel generalizing slot seen with
  | zero => exact fun _ h => absurd h List.not_mem_nil
  | succ fuel ih =>
    have hnil : Piped [] := fun _ h => absurd h List.not_mem_nil
    unfold chainFrom
    dsimp only
    split
    · exact hnil
    next d _ =>
      split
      · exact hnil
      next c hc =>
        have hd : d.instr.pipe.isSome = true := by rw [hc]; rfl
        split_ifs
        · exact hnil
        · exact List.forall_mem_singleton.mpr hd
        · exact hnil
        · exact List.forall_mem_cons.mpr ⟨hd, ih _ _⟩

theorem mem_mapFrom {α β : Type} {f : Nat → α → β} {n : Nat} {l : List α} {y : β} (h : y ∈ mapFrom f n l) : ∃ j, ∃ x ∈ l, y = f j x := by
  induction l generalizing n with
  | nil => cases h
  | cons x xs ih =>
    rcases List.mem_cons.mp h with rfl | h
    · exact ⟨n, x, List.mem_cons_self, rfl⟩
    · obtain ⟨j, z, hz, rfl⟩ := ih h
      exact ⟨j, z, List.mem_cons_of_mem _ hz, rfl⟩

section
variable {s : State} {m : Member} {ms : List Member} {c : Chain} {base j : Nat} {late : Option (Nat × Nat)} {as : List Answer}

theorem runMember_isNext (hm : m.instr.pipe.isSome = true) : IsNext (s.runMember exec m) :=
  isNext_ite isNext_next (exec_isNext hm s)

theorem runMembers_isNext (hms : Piped ms) : IsNext (s.runMembers exec base late j ms) := by
  induction ms generalizing s j with
  | nil => exact isNext_next
  | cons m ms ih =>
    obtain ⟨hm, hms⟩ := List.forall_mem_cons.mp hms
    obtain ⟨t, ht⟩ := runMember_isNext (s := (s.member base j m).grant late j) hm
    unfold State.runMembers
    simp only [ht]
    exact isNext_ite isNext_next (ih hms)

theorem trialAfter_isNext (hm : m.instr.pipe.isSome = true) (hms : Piped ms) : IsNext (s.trialAfter exec j m ms) := by
  obtain ⟨t, ht⟩ := runMembers_isNext (s := s) (base := s.fresh) (late := none) (j := 0) hms
  obtain ⟨u, hu⟩ := runMember_isNext (s := t.member s.fresh j m) hm
  unfold State.trialAfter
  simp only [ht, hu]
  exact isNext_ite (runMember_isNext hm) (isNext_ite isNext_next isNext_ite_next)

theorem trials_isNext (hc : Piped c.members) : ∀ a ∈ s.trials exec c, IsNext a := by
  intro a ha
  rcases List.mem_append.mp ha with ha | ha
  · obtain ⟨j, m, hm, rfl⟩ := mem_mapFrom ha
    exact isNext_ite (trialAfter_isNext (hc m hm) fun x hx => hc x (List.mem_of_mem_take hx)) (runMember_isNext (hc m hm))
  · split at ha
    · cases ha
    · rw [List.mem_singleton.mp ha]; exact isNext_next

theorem effects_isNext (hc : Piped c.members) : IsNext (s.effects exec c late as) := by
  unfold State.effects
  dsimp only
  refine isNext_ite isNext_next ?_
  obtain ⟨t, ht⟩ := runMembers_isNext (s := { s with unit := { s.unit with mask := (narrowing s.unit.mask none as).1 } })
    (base := s.fresh) (late := late) (j := 0) hc
  rw [ht]
  exact isNext_ite_next

theorem runUnit_isNext (hc : Piped c.members) : IsNext (s.runUnit exec c) := by
  have htrial : ∀ p a, (s.trials exec c).find? p = some a → IsNext a := fun p a h => trials_isNext hc a (List.mem_of_find?_eq_some h)
  unfold State.runUnit
  dsimp only
  cases hstop : (s.trials exec c).find? stopsUnit with
  | some a =>
    obtain ⟨t, rfl⟩ := htrial _ _ hstop
    refine isNext_ite isNext_next ?_
    obtain ⟨u, hu⟩ := effects_isNext (s := s) (late := some ((s.trials exec c).findIdx stopsUnit,
      s.graceOf c (s.trials exec c) ((s.trials exec c).findIdx stopsUnit) t))
      (as := (s.trials exec c).filter fun a => !stopsUnit a) hc
    rw [hu]
    exact isNext_next
  | none =>
    dsimp only
    cases hwait : (s.trials exec c).find? waitsUnit with
    | some a =>
      obtain ⟨t, rfl⟩ := htrial _ _ hwait
      exact isNext_next
    | none => exact effects_isNext hc

end

/-! ### A step -/

theorem issueWords_isNext (s : State) (k : Nat) (mask : Lanes) (a : Word) (ws : List Word) : IsNext (s.issueWords exec k mask a ws) :=
  isNext_ite isNext_next (runUnit_isNext (chainFrom_piped ws _ _ _ _))

theorem issueGroup_isNext (s : State) (k : Nat) : IsNext (s.issueGroup exec k) := by
  unfold State.issueGroup
  dsimp only
  split
  · exact isNext_next
  · split
    · exact issueWords_isNext ..
    · refine isNext_ite isNext_next ?_
      split
      · exact isNext_next
      · exact issueWords_isNext ..

theorem State.turn_answers (s : State) (u : Turn) : s.Answers (s.turn Machine.exec u) := by
  cases u with
  | issue k => exact .inl (isNext_ite (issueGroup_isNext s k) isNext_next)
  | event i => exact answers_ite (fun _ => (exec_isNext_or_lacksSlot i s).imp_right And.right) answers_next

theorem State.nextTurn_dieC (s : State) : s.nextTurn.2.dieC = s.dieC := by
  unfold State.nextTurn
  split
  · rfl
  · split <;> rfl

theorem step_answers (s : State) : s.Answers (step s) := by
  have hc := s.nextTurn_dieC
  unfold step stepWith
  split
  · exact .inl isNext_next
  next u t hturn =>
    rw [hturn] at hc
    rcases t.turn_answers u with ⟨t', ht'⟩ | h
    · rw [ht']; exact .inl isNext_next
    · obtain ⟨slot, ha, hthere⟩ := h.congr hc
      rw [ha]; exact .inr ⟨slot, rfl, hthere⟩

/-- Settles O4: a step answers a next state, or stops for a slot that no memory holds. -/
theorem stepsNeverRefuse : Obligations.StepsNeverRefuse := by
  unfold Obligations.StepsNeverRefuse
  refine ⟨fun s r h => ?_, fun s f h => ?_, fun i s hp => exec_isNext hp s⟩
  · rcases step_answers s with ⟨t, ht⟩ | ⟨slot, hf, -⟩
    · rw [ht] at h; cases h
    · rw [hf] at h; cases h
  · rcases step_answers s with ⟨t, ht⟩ | ⟨slot, hf, hthere⟩
    · rw [ht] at h; cases h
    · rw [hf] at h; cases h
      exact ⟨slot, rfl, hthere⟩

end Sys2Proof.Machine
end

section
/-!
O25: a branch that is taken to a packet below 0.
-/

namespace Sys2Proof.Machine

-- One theorem at a time: its proof is checked, and its memory free, before the next begins.
set_option Elab.async false

/-! ### A branch below packet 0 -/

/-- Where the lowest ACTIVE lane takes a branch to a packet below 0, the check of R37 stops the member. -/
theorem branch_below_zero {s : State} {off : Off21} {takes : State → Nat → Bool} {after : State → State} {j : Nat}
    {js : List Nat} (ht : s.targetPkt off < 0) (hj : s.acts = j :: js) (h : takes s j = true) :
    branch off takes after s = .next (s.raise (s.cause 0x04 (BitVec.ofInt 32 (s.targetPkt off * 4)) 0 j)) := by
  have hpoison : s.poisonCause ⟨[], [], [], []⟩ j = none := by simp [State.poisonCause, State.poisonAt, expand]
  refine issue_stop rfl rfl ?_
  simp [State.stopCause, State.tokenAt, expand, hj, firstCause, hpoison, branchCheck, ht, h]

/-- Settles O25: BRA takes the branch in every lane, BRU where the governing lane's condition holds, BRX where the lane's own
does; the governing lane is the lowest ACTIVE one. -/
theorem branchBelowZero : Obligations.BranchBelowZero := by
  intro s neg p off j js ht hj
  refine ⟨branch_below_zero ht hj rfl, fun hp hlead => ⟨?_, ?_⟩⟩
  · have hlow : s.cond neg p s.lead = true := hlead ▸ hp
    show execBru neg p off s = _
    exact branch_below_zero (takes := fun s _ => s.cond neg p s.lead) ht hj hlow
  · exact branch_below_zero (takes := fun s i => s.cond neg p i) ht hj hp

end Sys2Proof.Machine
end

section
/-!
O46, O47: the commands that the engines queue, and the reservation of the Tun.  What a bulk command does at issue is said once
(`issues_of_bulk`); each command then says which engine it enters.
-/

namespace Sys2Proof.Machine

-- One theorem at a time: its proof is checked, and its memory free, before the next begins.
set_option Elab.async false

/-! ### Engine commands: what reading a token leaves, and what an issue does -/

@[simp] theorem learn_core (s : State) (rs : List Nat) (k : Nat) : (s.learn rs).core k = s.core k := by
  unfold State.learn; split <;> rfl
@[simp] theorem learn_die (s : State) (rs : List Nat) (d : Nat) : (s.learn rs).die d = s.die d := by
  unfold State.learn; split <;> rfl
@[simp] theorem learn_dieC (s : State) (rs : List Nat) : (s.learn rs).dieC = s.dieC := by
  unfold State.learn; split <;> rfl
@[simp] theorem learn_sparge (s : State) (rs : List Nat) (k : Nat) : (s.learn rs).sparge k = s.sparge k := by
  unfold State.learn; split <;> rfl
@[simp] theorem learn_tick (s : State) (rs : List Nat) : (s.learn rs).tick = s.tick := by
  unfold State.learn; split <;> rfl
@[simp] theorem learn_nextKey (s : State) (rs : List Nat) : (s.learn rs).nextKey = s.nextKey := by
  unfold State.learn; split <;> rfl
@[simp] theorem learn_myTeam (s : State) (rs : List Nat) : (s.learn rs).myTeam = s.myTeam := (s.learn_calm rs).myTeam
@[simp] theorem learn_myTun (s : State) (rs : List Nat) : (s.learn rs).myTun = s.myTun := by simp [State.myTun]
@[simp] theorem learn_descOf (s : State) (rs : List Nat) (k : Nat) : (s.learn rs).descOf k = s.descOf k := by
  simp [State.descOf]

/-- The core of the unit's group is its team's. -/
theorem coreOf_unit (s : State) : s.coreOf s.unit.g = s.core s.myTeam.core := rfl
/-- The die of the unit's group is its team's core's. -/
theorem dieOf_unit (s : State) : s.dieOf s.unit.g = coreDie s.myTeam.core := rfl

/-- `u` is `s` but for what its engines hold. -/
structure State.EngineOnly (s u : State) : Prop where
  groups : u.groups = s.groups
  unit : u.unit = s.unit
  mem : u.mem = s.mem

/-- A command that has entered an engine and whose token has started is issued as R45 has it. -/
theorem issues_of_issued {i : Instr} {s u : State} {rs : List Nat} {c : Cmd} {tok : Reg} {P : State → Prop}
    (hx : exec i s = .next (u.issued c)) (htok : c.tok = tok.toNat) (hu : (s.learn rs).EngineOnly u)
    (hP : P (u.issued c)) : Issues i s tok P := by
  have hgrp : ∀ k, u.grp k = (s.learn rs).grp k := fun k => by simp only [State.grp, hu.groups]
  have hunit : u.unit = s.unit := hu.unit.trans (learn_unit s rs)
  have hme : u.me = (s.learn rs).me := by simp only [State.me, hu.unit, hgrp]
  have hissued : (u.issued c).me = (s.learn rs).me.startToken tok.toNat := by
    rw [← hme, ← htok]
    exact State.me_onMe u.effect (fun g => g.startToken c.tok)
  refine ⟨_, hx, congrArg (fun x : UnitCtx => { x with effect := true }) hunit, fun a => ?_, fun j hj => ?_, ?_, hP⟩
  · exact (congrArg (fget Memory.unlisted · a) hu.mem).trans ((learn_only s rs).memory a)
  · have hout : (u.issued c).grp j = u.grp j := by
      refine State.grp_onMe_other u.effect ?_ (fun g => g.startToken c.tok)
      rwa [show u.effect.unit.g = u.unit.g from rfl, hunit]
    exact hout.trans ((hgrp j).trans ((learn_only s rs).others j hj))
  · rw [hissued, learn_me]
    rfl

/-- A bulk command whose checks pass and for which the queue has room enters its engine, and its token starts. -/
theorem bulk_issued {scalars : State → List (Nat × Nat)} {chk : State → Option Cause} {tok : Reg} {room : State → Bool}
    {cmd : State → Cmd} {start : Cmd → State → State} {s l : State} (hl : l = s.learn (expand (scalars s)))
    (h : s.bulkClear (scalars s) (chk s) tok = true) (hroom : room l = true) :
    bulk scalars chk tok room cmd start s = .next ((start (cmd l) l).issued (cmd l)) := by
  have hclear : s.clear (scalarNeed (scalars s) [])
      (fun s i => if i = s.lead then firstSome [chk s, s.tokenBusy tok] else none) = true := h
  subst hl
  exact (issue_clear hclear).trans (congrArg _ (if_pos hroom))

/-- So an instruction that is a bulk command issues it. -/
theorem issues_of_bulk {i : Instr} {scalars : State → List (Nat × Nat)} {chk : State → Option Cause} {tok : Reg}
    {room : State → Bool} {cmd : State → Cmd} {start : Cmd → State → State} {m : Meaning} {s l : State}
    {P : State → Prop} (hx : exec i s = m s) (hm : m = bulk scalars chk tok room cmd start)
    (hl : l = s.learn (expand (scalars s))) (h : s.bulkClear (scalars s) (chk s) tok = true) (hroom : room l = true)
    (htok : (cmd l).tok = tok.toNat) (hstart : l.EngineOnly (start (cmd l) l))
    (hP : P ((start (cmd l) l).issued (cmd l))) : Issues i s tok P := by
  subst hl
  exact issues_of_issued (hx.trans (hm ▸ bulk_issued rfl h hroom)) htok hstart hP

@[simp] theorem issued_die (u : State) (c : Cmd) (d : Nat) : (u.issued c).die d = u.die d := rfl
@[simp] theorem issued_core (u : State) (c : Cmd) (k : Nat) : (u.issued c).core k = u.core k := rfl

/-! ### TCOPY and TUN -/

/-- The element bytes of an XPOSE field. -/
def xposeBytes : Xpose → Nat
  | .none => 0
  | .x8 => 1
  | .x16 => 2

/-- A copy enters the copy engine of its team's core (R185). -/
theorem tcopy_issues {i : Instr} {s : State} {mode : Nat} {tid : Tid} {cs off tok : Reg} {x : Xpose} {e24 : Bool} {g : Nat}
    {rs : List (Nat × Nat)} (hx : exec i s = tcopy mode tid cs off x e24 tok g s)
    (hrs : rs = s.coordRun tid.toNat cs.toNat ++ if mode = modePf then [] else [(off.toNat, 1)])
    (h : s.bulkClear rs (copyCheck mode (xposeBytes x) e24 tid.toNat cs.toNat off.toNat g s) tok = true)
    (hroom : (s.core s.myTeam.core).copies.length < 32) :
    Issues i s tok (fun t => (t.core s.myTeam.core).copies = (s.core s.myTeam.core).copies ++
      [(s.learn (expand rs)).copyCmd mode (xposeBytes x) e24 tid.toNat cs.toNat off.toNat tok.toNat g]) := by
  subst hrs
  refine issues_of_bulk hx rfl rfl h ?_ ?_ ⟨rfl, rfl, rfl⟩ ?_
  · show decide (((s.learn _).coreOf (s.learn _).unit.g).copies.length < copyCapacity) = true
    rw [coreOf_unit]
    simpa [copyCapacity] using hroom
  · simp [State.copyCmd, State.command]
  · simp only [State.startCopy, issued_core, State.core_setCore, learn_core, learn_myTeam, if_true]
    rfl

/-- A TUN command enters the queue of its team's core's array (R203). -/
theorem tun_issues {i : Instr} {s : State} {o : TunOp} (hx : exec i s = tun o s)
    (h : s.bulkClear o.scalars (o.check s) o.tok = true) (hroom : (s.core s.myTeam.core).tun.queue.length < 16) :
    Issues i s o.tok (fun t => (t.core s.myTeam.core).tun = { (s.core s.myTeam.core).tun with
      queue := (s.core s.myTeam.core).tun.queue ++ [o.cmd (s.learn (expand o.scalars))] }) := by
  refine issues_of_bulk hx rfl rfl h ?_ rfl ⟨rfl, rfl, rfl⟩ ?_
  · simpa [tunCapacity, State.myTun] using hroom
  · simp [State.onTun, State.core_setCore]

/-- In supervisor mode TUN.BDIAG is the command that `tun` issues (R217, R255). -/
theorem exec_tunBdiag {s : State} (hsup : s.pre.csr.sup = true) (tid : Tid) (cs tok : Reg) (bank : Bool) (m1 row : BitVec 7)
    (acc : Bool) : exec (.tunBdiag tid cs tok bank m1 row acc) s =
      tun ⟨5, tid.toNat, cs.toNat, tok, bank.toNat, m1.toNat + 1, row.toNat, false, acc, 0⟩ s := if_pos hsup

/-- Settles O46: each mode of TCOPY by `tcopy_issues`, each operation of TUN by `tun_issues`. -/
theorem copyAndArrayCommands : Obligations.CopyAndArrayCommands := by
  intro s tid tid2 cs off tok x e24 bank t5 acc m1 row
  exact ⟨tcopy_issues rfl rfl, tcopy_issues rfl rfl, tcopy_issues rfl rfl, tcopy_issues rfl rfl, tcopy_issues rfl rfl,
    tun_issues rfl, tun_issues rfl, tun_issues rfl, tun_issues rfl, tun_issues rfl,
    fun hsup => tun_issues (exec_tunBdiag hsup ..)⟩

/-! ### SPARGE, GRIST, LAUNCH and COLL -/

theorem State.die_setDie (s : State) (d : Nat) (x : Die) : (s.setDie d x).die d = x := by
  unfold State.setDie State.die
  split <;> rfl

theorem State.sparge_onSparge (s : State) (n : Nat) (f : Sparge → Sparge) : (s.onSparge n f).sparge n = f (s.sparge n) := by
  simp [State.sparge]

theorem State.comm_setComm (s : State) (n : Nat) (x : Comm) : (s.setComm n x).comm n = x := by
  simp [State.comm, State.setComm, State.onC]

@[simp] theorem learn_callableTeam (s : State) (rs : List Nat) : (s.learn rs).callableTeam = s.callableTeam := by
  simp [State.callableTeam]

/-- A command that enters a Sparge queue makes its callable team under the next key. -/
theorem enterSparge_team (s : State) (c : Cmd) : (s.enterSparge c).team (s.nextKey + 1) = s.callableTeam := by
  show (s.setTeam (s.nextKey + 1) s.callableTeam).team (s.nextKey + 1) = s.callableTeam
  simp [State.team_setTeam]

theorem enterSparge_queue (s : State) (c : Cmd) : ((s.enterSparge c).sparge (clusterOf s.myTeam.core)).queue =
    (s.sparge (clusterOf s.myTeam.core)).queue ++ [{ c with m := s.nextKey + 1 }] :=
  congrArg Sparge.queue (State.sparge_onSparge _ _ _)

/-- A SPARGE command as issued. -/
def State.spargeCmd (s : State) (tid ar : Nat) (tok : Reg) : Cmd :=
  { s.command 5 tok 1 [s.rs ar, s.rs (ar + 1), s.rs (ar + 2)] (s.descOf tid) (s.descOf (pAslot (s.descOf tid))) with
    waited := s.tick }

theorem learn_spargeCmd (s : State) (rs : List Nat) (tid ar : Nat) (tok : Reg) : (s.learn rs).spargeCmd tid ar tok =
    { (s.learn rs).command 5 tok 1 [s.rs ar, s.rs (ar + 1), s.rs (ar + 2)] (s.descOf tid)
        (s.descOf (pAslot (s.descOf tid))) with waited := s.tick } := by
  simp only [State.spargeCmd, learn_rs, learn_descOf, learn_tick]

/-- A SPARGE command enters its cluster's queue, with a callable team that sees the team's tensor table (R361, R363). -/
theorem sparge_issues {s l : State} {tid : Tid} {ar tok : Reg} (hl : l = s.learn (expand (argRun ar.toNat 3)))
    (h : s.bulkClear (argRun ar.toNat 3) (firstSome [s.recordCause tid.toNat 1 spargeFields (s.spargeForm ar.toNat)
      (ar.toNat + 3), s.aslotCause (s.descOf tid.toNat)]) tok = true)
    (hroom : (s.sparge (clusterOf s.myTeam.core)).queue.length < 16) (hphase : s.dieC.rsPhase ≠ 4) :
    Issues (.sparge tid ar tok) s tok (fun t => t.team (s.nextKey + 1) = s.callableTeam ∧
      (t.sparge (clusterOf s.myTeam.core)).queue = (s.sparge (clusterOf s.myTeam.core)).queue ++
        [{ l.spargeCmd tid.toNat ar.toNat tok with m := s.nextKey + 1 }]) := by
  have hteam := enterSparge_team l (l.spargeCmd tid.toNat ar.toNat tok)
  have hqueue := enterSparge_queue l (l.spargeCmd tid.toNat ar.toNat tok)
  have hroom' : (l.dieC.rsPhase != 4 && decide ((l.sparge (clusterOf l.myTeam.core)).queue.length < spargeCapacity)) = true := by
    simpa [hl, spargeCapacity, hphase] using hroom
  have hkey : l.nextKey = s.nextKey := hl ▸ learn_nextKey s _
  have hcore : l.myTeam = s.myTeam := hl ▸ learn_myTeam s _
  have hcallable : l.callableTeam = s.callableTeam := hl ▸ learn_callableTeam s _
  have hengine : ∀ k, l.sparge k = s.sparge k := hl ▸ learn_sparge s _
  rw [hkey, hcallable] at hteam
  rw [hkey, hcore, hengine] at hqueue
  exact issues_of_bulk (m := execSparge tid ar tok) (cmd := fun s => s.spargeCmd tid.toNat ar.toNat tok)
    (start := fun c s => s.enterSparge c) rfl rfl hl h hroom' rfl ⟨rfl, rfl, rfl⟩ ⟨hteam, hqueue⟩

/-- A GRIST command enters its die's queue (R372). -/
theorem grist_issues {s : State} {tid : Tid} {ar tok : Reg}
    (h : s.bulkClear (argRun ar.toNat (s.gristArgs tid.toNat)) (s.recordCause tid.toNat 2 gristFields
      (gristForm (s.rs ar.toNat).toNat (s.gristSegs ar.toNat)) (ar.toNat + s.gristArgs tid.toNat)) tok = true)
    (hroom : (s.die (s.dieOf s.unit.g)).grist.length < 64) :
    Issues (.grist tid ar tok) s tok (fun t => (t.die (s.dieOf s.unit.g)).grist = (s.die (s.dieOf s.unit.g)).grist ++
      [(s.learn (expand (argRun ar.toNat (s.gristArgs tid.toNat)))).command 7 tok 2 [s.rs ar.toNat, s.rs (ar.toNat + 1)]
        (s.descOf tid.toNat) []]) := by
  have hdie : ∀ rs, (s.learn rs).dieOf (s.learn rs).unit.g = s.dieOf s.unit.g := fun rs => by
    rw [dieOf_unit, dieOf_unit, learn_myTeam]
  refine issues_of_bulk (m := execGrist tid ar tok) rfl rfl rfl h ?_ rfl ⟨?_, ?_, ?_⟩ ?_
  · show decide (((s.learn _).die ((s.learn _).dieOf (s.learn _).unit.g)).grist.length < gristCapacity) = true
    rw [hdie]
    simpa [gristCapacity] using hroom
  · exact State.setDie_groups _ _ _
  · exact State.setDie_unit _ _ _
  · exact State.setDie_mem _ _ _
  · rw [issued_die, hdie, State.die_setDie]
    simp

/-- A LAUNCH command as issued. -/
def State.launchCmd (s : State) (slot ar : Nat) (tok : Reg) : Cmd :=
  { s.command 0 tok slot [((s.rs ar).setWidth 16).setWidth 32] [] [] with waited := s.tick }

theorem learn_launchCmd (s : State) (rs : List Nat) (slot ar : Nat) (tok : Reg) : (s.learn rs).launchCmd slot ar tok =
    { (s.learn rs).command 0 tok slot [((s.rs ar).setWidth 16).setWidth 32] [] [] with waited := s.tick } := by
  simp only [State.launchCmd, learn_rs, learn_tick]

/-- A LAUNCH command goes to die C (R347). -/
theorem launch_issues {s l : State} {slot : BitVec 12} {ar tok : Reg} (hl : l = s.learn (expand [(ar.toNat, 1)]))
    (h : s.bulkClear [(ar.toNat, 1)] none tok = true) :
    Issues (.launch slot ar tok) s tok
      (fun t => t.dieC.launches = s.dieC.launches ++ [l.launchCmd slot.toNat ar.toNat tok]) := by
  have hdie : l.dieC = s.dieC := hl ▸ learn_dieC s _
  exact issues_of_bulk (m := execLaunch slot ar tok) (cmd := fun s => s.launchCmd slot.toNat ar.toNat tok)
    (start := fun c s => s.onC (fun d => { d with launches := d.launches ++ [c] })) rfl rfl hl h rfl rfl ⟨rfl, rfl, rfl⟩
    (congrArg (fun x : DieC => x.launches ++ [l.launchCmd slot.toNat ar.toNat tok]) hdie)

/-- A COLL command of a usable communicator that has missed no operation is numbered there (R430, R431). -/
theorem enterColl_usable {s : State} {c : Cmd} (hu : s.dieC.usable (s.comm c.m).reg = true) (hm : (s.comm c.m).missed = []) :
    s.enterColl c = s.setComm c.m { s.comm c.m with cmds := (s.comm c.m).cmds ++ [c] } := by
  simp [State.enterColl, hu, hm]

/-- A COLL command enters its communicator (R429). -/
theorem coll_issues {s l : State} {tid : Tid} {ar tok : Reg} {kind : CollKind} {fn : CollFn} {c : Cmd}
    (hl : l = s.learn (expand (argRun ar.toNat (collArgs kind)))) (hc : c = l.collCmd tid.toNat ar.toNat tok kind fn)
    (h : s.bulkClear (argRun ar.toNat (collArgs kind)) ((s.collReason tid.toNat ar.toNat kind fn).map (s.tensorId tid.toNat))
      tok = true)
    (hu : s.dieC.usable (s.comm c.m).reg = true) (hm : (s.comm c.m).missed = []) :
    Issues (.coll tid ar tok kind fn) s tok
      (fun t => t.comm c.m = { s.comm c.m with cmds := (s.comm c.m).cmds ++ [c] }) := by
  have hclear : s.clear (scalarNeed (argRun ar.toNat (collArgs kind)) []) (fun s i => if i = s.lead then
      firstSome [(s.collReason tid.toNat ar.toNat kind fn).map (s.tensorId tid.toNat), s.tokenBusy tok] else none) = true := h
  have hdie : (l.issued c).dieC = s.dieC := hl ▸ learn_dieC s _
  have hcomm : (l.issued c).comm c.m = s.comm c.m := by simp only [State.comm, hdie]
  have henter : (l.issued c).enterColl c = (l.issued c).setComm c.m { s.comm c.m with cmds := (s.comm c.m).cmds ++ [c] } := by
    rw [enterColl_usable (by rwa [hcomm, hdie]) (by rwa [hcomm]), hcomm]
  have hx : exec (.coll tid ar tok kind fn) s = .next ((l.issued c).enterColl c) := by
    subst hl hc
    exact issue_clear (la := 0) (eff := fun s => (s.issued (s.collCmd tid.toNat ar.toNat tok kind fn)).enterColl
      (s.collCmd tid.toNat ar.toNat tok kind fn)) hclear
  subst hl
  exact issues_of_issued (u := (s.learn _).setComm c.m { s.comm c.m with cmds := (s.comm c.m).cmds ++ [c] })
    (hx.trans (congrArg _ henter)) (hc ▸ rfl) ⟨rfl, rfl, rfl⟩ (State.comm_setComm _ _ _)

/-! ### ARES and AREL -/

/-- `exec` completes an instruction that may change the Tun and the predicates. -/
def AfterTun (i : Instr) (s : State) (P : State → Prop) : Prop :=
  ∃ t, exec i s = .next t ∧ t.unit = { s.unit with effect := true } ∧ (∀ b, t.byteAt b = s.byteAt b) ∧
    t.me.v = s.me.v ∧ t.me.s = s.me.s ∧ t.me.csr = s.me.csr ∧ P t

theorem AfterTun.imp {i : Instr} {s : State} {P Q : State → Prop} (hPQ : ∀ t, P t → Q t) (h : AfterTun i s P) :
    AfterTun i s Q := by
  obtain ⟨t, hx, hunit, hbytes, hv, hs, hcsr, hP⟩ := h
  exact ⟨t, hx, hunit, hbytes, hv, hs, hcsr, hPQ t hP⟩

/-- ARES gives the array to the unit's team, or it has it already (R197). -/
def State.granted (s : State) : Bool :=
  s.myTun.owner == some s.me.team || (s.myTun.free && !s.myTun.heldFrom s.me.team)

/-- The array after an ARES. -/
def State.asked (s : State) : Tun :=
  if s.myTun.owner = some s.me.team then s.myTun
  else if s.granted then s.myTun.grant s.me.team s.now else s.myTun.enterOrder s.me.team

/-- A member that names no register and makes no check takes effect. -/
theorem clear_nothing (s : State) : s.clear (scalarNeed [] []) noCheck = true := by
  have hnone : ∀ l : List Nat, firstCause (fun _ => none) l = none := fun l => by
    induction l with
    | nil => rfl
    | cons _ _ ih => exact ih
  simp [State.clear, Need.over, scalarNeed, State.tokenAt, expand, State.stopCause, State.poisonCause, State.poisonAt, noCheck,
    hnone]

theorem issue_nothing (la : Nat) (eff : State → State) (s : State) :
    issue (scalarNeed [] []) noCheck la eff s = .next (eff s) := by
  rw [issue_clear (clear_nothing s), show expand (scalarNeed [] []).ss = [] from rfl, learn_nil]

/-- The array of the unit's core after a change of it. -/
theorem myTun_onTun (s : State) (f : Tun → Tun) : (s.effect.onTun s.myTeam.core f).myTun = f s.myTun := by
  show ((s.effect.onTun s.myTeam.core f).core s.myTeam.core).tun = f s.myTun
  rw [State.onTun, State.core_setCore, if_pos rfl]
  rfl

/-- A predicate result keeps the group but for its predicates, and tells each ACTIVE lane. -/
theorem predResult_me (s : State) (d : Pred) (ok : Bool) :
    (s.predResult d.toNat (fun _ => ok)).me = { s.me with p := (s.predResult d.toNat (fun _ => ok)).me.p } ∧
    ∀ j ∈ s.acts, d.toNat ≠ 7 → (s.predResult d.toNat (fun _ => ok)).me.getP j d.toNat = ok := by
  obtain ⟨htells, -, hkeeps⟩ := putP_fold s.acts d.toNat (fun _ => ok) d.isLt s.me
  rw [State.predResult, State.me_onMe]
  exact ⟨hkeeps, fun j hj h7 => htells j hj h7⟩

/-- The array of the unit's core after a predicate result. -/
theorem predResult_myTun (s : State) (d : Pred) (ok : Bool) : (s.predResult d.toNat (fun _ => ok)).myTun = s.myTun := by
  have hteam : (s.predResult d.toNat (fun _ => ok)).me.team = s.me.team := by rw [(predResult_me s d ok).1]
  simp only [State.myTun, State.myTeam, hteam]
  rfl

/-- ARES changes the array and tells in p[D] whether it is the team's (R197). -/
theorem ares_after (s : State) (d : Pred) : AfterTun (.ares d) s
    (fun t => t.myTun = s.asked ∧ ∀ j ∈ s.acts, d.toNat ≠ 7 → t.me.getP j d.toNat = s.granted) := by
  have hx : exec (.ares d) s =
      .next ((s.effect.onTun s.myTeam.core (fun _ => s.asked)).predResult d.toNat (fun _ => s.granted)) := by
    show execAres d s = _
    rw [execAres, issue_nothing]
    rfl
  obtain ⟨hme, htells⟩ := predResult_me (s.effect.onTun s.myTeam.core (fun _ => s.asked)) d s.granted
  refine ⟨_, hx, rfl, fun _ => rfl, ?_, ?_, ?_, ?_, htells⟩
  · rw [hme]; rfl
  · rw [hme]; rfl
  · rw [hme]; rfl
  · exact (predResult_myTun _ d _).trans (myTun_onTun s _)

/-- AREL gives up the array, and changes nothing else (R197). -/
theorem arel_after (s : State) :
    AfterTun .arel s (fun t => t.me.p = s.me.p ∧ t.myTun = s.myTun.giveUp s.me.team s.now) := by
  have hx : exec .arel s = .next (s.effect.onTun s.myTeam.core (fun t => t.giveUp s.me.team s.now)) := by
    show execArel s = _
    rw [execArel, issue_nothing]
  exact ⟨_, hx, rfl, fun _ => rfl, rfl, rfl, rfl, rfl, myTun_onTun s _⟩

theorem granted_of_owner {s : State} (h : s.myTun.owner = some s.me.team) : s.granted = true ∧ s.asked = s.myTun := by
  simp [State.granted, State.asked, h]

theorem granted_of_free {s : State} (ho : s.myTun.owner = none) (hl : s.myTun.leaving = none)
    (hh : s.myTun.heldFrom s.me.team = false) : s.granted = true ∧ s.asked = s.myTun.grant s.me.team s.now := by
  simp [State.granted, State.asked, Tun.free, ho, hl, hh]

theorem not_granted {s : State} (ho : s.myTun.owner ≠ some s.me.team)
    (h : s.myTun.owner ≠ none ∨ s.myTun.leaving ≠ none ∨ s.myTun.heldFrom s.me.team = true) :
    s.granted = false ∧ s.asked = s.myTun.enterOrder s.me.team := by
  have hno : s.granted = false := by
    have hfree : (s.myTun.free && !s.myTun.heldFrom s.me.team) = false := by
      rcases h with h | h | h
      · simp [Tun.free, h]
      · simp [Tun.free, h]
      · simp [h]
    simp [State.granted, ho, hfree]
  exact ⟨hno, by simp [State.asked, ho, hno]⟩

/-- A team without commands frees the array, one with commands leaves it to them. -/
theorem giveUp_owner {t : Tun} {team now : Nat} (h : t.owner = some team) :
    (t.giveUp team now).owner = none ∧ (t.giveUp team now).leaving = if t.queue = [] then none else some team := by
  by_cases hq : t.queue = [] <;> simp [Tun.giveUp, Tun.release, h, hq]

theorem enterOrder_eq (t : Tun) (team : Nat) :
    t.enterOrder team = { t with order := if t.order.contains team then t.order else t.order ++ [team] } := by
  unfold Tun.enterOrder
  split <;> rfl

/-- Settles O47: each command by its `…_issues`; ARES by what the array is to the team, AREL by whether it owns it. -/
theorem otherEngineCommands : Obligations.OtherEngineCommands := by
  intro s tid ar tok kind fn slot d
  refine ⟨fun h hroom hphase => ?_, fun h hroom => grist_issues h hroom, fun h => ?_,
    fun h hu hm => coll_issues rfl rfl h hu hm, ?_⟩
  · have hi := sparge_issues rfl h hroom hphase
    rwa [learn_spargeCmd] at hi
  · have hi := launch_issues (slot := slot) rfl h
    rwa [learn_launchCmd] at hi
  · refine ⟨fun ho => (ares_after s d).imp fun t ⟨ht, htells⟩ => ?_,
      fun ho hl hh => (ares_after s d).imp fun t ⟨ht, htells⟩ => ?_,
      fun ho hno => (ares_after s d).imp fun t ⟨ht, htells⟩ => ?_,
      fun ho => (arel_after s).imp fun t ⟨hp, ht⟩ => ?_, fun ho => (arel_after s).imp fun t ⟨hp, ht⟩ => ?_⟩
    · obtain ⟨hg, ha⟩ := granted_of_owner ho
      exact ⟨ht.trans ha, hg ▸ htells⟩
    · obtain ⟨hg, ha⟩ := granted_of_free ho hl hh
      rw [ht, ha]
      exact ⟨rfl, rfl, hg ▸ htells⟩
    · obtain ⟨hg, ha⟩ := not_granted ho hno
      exact ⟨ht.trans (ha.trans (enterOrder_eq ..)), hg ▸ htells⟩
    · rw [ht]
      exact ⟨hp, giveUp_owner ho⟩
    · rw [ht]
      exact ⟨hp, if_pos ho⟩

end Sys2Proof.Machine
end

section
/-!
O14: the instructions on register pairs.
-/

namespace Sys2Proof.Machine

/-- LEAk adds the index times 2^k, the power taken in the integers (R89). -/
theorem aluLea_eq (k : Nat) (base : Dword) (b : Word) : aluLea k base b = base + BitVec.ofInt 64 (b.toInt * 2 ^ k) := by
  rw [aluLea, Nat.cast_pow, Nat.cast_ofNat]

/-- LEAk gives the base plus the index times 2^k (R89). -/
theorem laneLea_gives_sum {i : Instr} {s : State} {sc : Bool} {k : Nat} {d a b : Reg} (he : d.toNat % 2 = 0)
    (h : s.clear (needPair sc false d.toNat a.toNat b.toNat) noCheck = true) (hi : exec i s = laneLea sc k d a b s) :
    Gives i s 0 d.toNat 2
      (fun j q =>
        let x := s.rv2 j a.toNat + BitVec.ofInt 64 ((s.rb sc j b.toNat).toInt * 2 ^ k)
        if q = 0 then pairLo x else pairHi x) (fun _ => 0) := by
  simpa only [aluLea_eq] using laneLea_gives he hi h

/-- Settles O14: in both forms of B, ADD64 and SUB64 by `lanePair_gives`, each LEAk by `laneLea_gives_sum`. -/
theorem integerPairs : Obligations.IntegerPairs := by
  intro s sc d a b he
  refine ⟨fun h => ⟨?add, ?sub⟩, fun h => ⟨?lea0, ?lea1, ?lea2, ?lea3⟩⟩
  case add => exact lanePair_gives (f := fun x y => x + y) he (by cases sc <;> rfl) h
  case sub => exact lanePair_gives (f := fun x y => x - y) he (by cases sc <;> rfl) h
  case lea0 => exact laneLea_gives_sum he h (by cases sc <;> rfl)
  case lea1 => exact laneLea_gives_sum he h (by cases sc <;> rfl)
  case lea2 => exact laneLea_gives_sum he h (by cases sc <;> rfl)
  case lea3 => exact laneLea_gives_sum he h (by cases sc <;> rfl)

end Sys2Proof.Machine
end

section
/-!
The shapes of the lane and scalar instructions with the formulas of the spec for the functions they issue.
-/

namespace Sys2Proof.Machine

/-! ### Checks -/

theorem firstCause_congr {f g : Nat → Option Cause} {l : List Nat} (h : ∀ i ∈ l, f i = g i) :
    firstCause f l = firstCause g l := by
  induction l with
  | nil => rfl
  | cons i l ih =>
    rw [firstCause, firstCause, h i List.mem_cons_self, ih fun j hj => h j (List.mem_cons_of_mem _ hj)]

/-- Checks that find nothing in the ACTIVE lanes let the member take effect where its operands do. -/
theorem clear_of_checks {s : State} {n : Need} {chk : State → Nat → Option Cause} (h : s.clear n noCheck = true)
    (hc : ∀ i ∈ s.acts, chk s i = none) : s.clear n chk = true := by
  have hstop : s.stopCause n (chk s) = s.stopCause n (noCheck s) := by
    simp only [State.stopCause, noCheck]
    rw [firstCause_congr]
    intro i hi
    rw [hc i hi]
  rwa [State.clear, hstop]

/-! ### Instructions with a vector and a scalar form of B -/

section
variable {s : State} {sc : Bool} {a b : Reg} {vec sca : Instr}

/-- A three-register instruction whose two forms issue the same function (R85). -/
theorem lane3_forms {c : Bool} {d : Reg} (f : Word → Word → Word → Word × Flags)
    (h : s.clear (need3 c sc d.toNat a.toNat b.toNat) noCheck = true)
    (hvec : exec vec s = lane3 c false d a b f s) (hsca : exec sca s = lane3 c true d a b f s) :
    Gives (if sc then sca else vec) s 0 d.toNat 1
      (fun j _ => (f (s.rv j a.toNat) (s.rb sc j b.toNat) (s.rv j d.toNat)).1)
      (fun j => (f (s.rv j a.toNat) (s.rb sc j b.toNat) (s.rv j d.toNat)).2) := by
  cases sc with
  | false => exact lane3_gives hvec h
  | true => exact lane3_gives hsca h

/-- The same for a function of a and b without flags; `g` is the formula of its rule. -/
theorem lane2_forms {d : Reg} {f : Word → Word → Word} (g : Word → Word → Word) (hg : ∀ x y, f x y = g x y)
    (h : s.clear (need3 false sc d.toNat a.toNat b.toNat) noCheck = true)
    (hvec : exec vec s = lane2 false d a b f s) (hsca : exec sca s = lane2 true d a b f s) :
    GivesWord (if sc then sca else vec) s d (fun j => g (s.rv j a.toNat) (s.rb sc j b.toNat)) := by
  simp only [← hg]
  exact lane3_forms (fun x y _ => (f x y, 0)) h hvec hsca

/-- A compare whose two forms issue the same condition (R92, R103). -/
theorem laneCmp_forms {d : Pred} (f : Word → Word → Bool × Flags)
    (h : s.clear (needCmp sc a.toNat b.toNat) noCheck = true)
    (hvec : exec vec s = laneCmp false d a b f s) (hsca : exec sca s = laneCmp true d a b f s) :
    GivesPred (if sc then sca else vec) s d.toNat (fun j => (f (s.rv j a.toNat) (s.rb sc j b.toNat)).1)
      (fun j => (f (s.rv j a.toNat) (s.rb sc j b.toNat)).2) := by
  cases sc with
  | false => exact laneCmp_gives hvec h
  | true => exact laneCmp_gives hsca h

/-- An integer compare; `g` is the condition of the table of R92. -/
theorem icmp_forms {d : Pred} (c : ICond) (g : Word → Word → Bool) (hg : ∀ x y, icmp c x y = g x y)
    (h : s.clear (needCmp sc a.toNat b.toNat) noCheck = true)
    (hvec : exec vec s = laneCmp false d a b (fun x y => (icmp c x y, 0)) s)
    (hsca : exec sca s = laneCmp true d a b (fun x y => (icmp c x y, 0)) s) :
    GivesPred (if sc then sca else vec) s d.toNat (fun j => g (s.rv j a.toNat) (s.rb sc j b.toNat)) (fun _ => 0) := by
  simp only [← hg]
  exact laneCmp_forms (fun x y => (icmp c x y, 0)) h hvec hsca

end

/-! ### Instructions with one form -/

/-- A unary function or an immediate instruction; `g` is the formula of its rule. -/
theorem laneImm_gives_eq {i : Instr} {s : State} {d a : Reg} {f : Word → Word} (g : Word → Word) (hg : ∀ x, f x = g x)
    (h : s.clear (need2 d.toNat a.toNat) noCheck = true) (hi : exec i s = laneImm d a f s) :
    GivesWord i s d (fun j => g (s.rv j a.toNat)) := by
  simp only [← hg]
  exact laneImm_gives hi h

/-- A three-scalar instruction (R96); `g` is the formula of its rule. -/
theorem scalar3_gives {i : Instr} {s : State} {d a b : Reg} {f : Word → Word → Word} (g : Word → Word → Word)
    (hg : ∀ x y, f x y = g x y) (h : s.clear ⟨[], [], [(a.toNat, 1), (b.toNat, 1)], [(d.toNat, 1)]⟩ noCheck = true)
    (hi : exec i s = scalar3 d a b f s) :
    GivesScalar i s d.toNat 1 (fun _ => g (s.rs a.toNat) (s.rs b.toNat)) := by
  rw [← hg]
  exact gives_of_putS (f := fun s => f (s.rs a.toNat) (s.rs b.toNat)) (fun _ => by simp only [learn_rs]) hi h

/-- A vector result of one word, at once and without flags. -/
theorem givesWord_of_word {i : Instr} {s : State} {n : Need} {chk : State → Nat → Option Cause} {d : Reg} (f : State → Nat → Word)
    (hf : ∀ rs, f (s.learn rs) = f s) (h : s.clear n chk = true)
    (hi : exec i s = issue n chk 0 (fun s => s.vecResult 0 d.toNat (fun j => [f s j]) (fun _ => 0)) s) :
    GivesWord i s d (f s) :=
  gives_of_word (la := 0) (fl := fun _ _ => 0) (fun rs => ⟨hf rs, rfl⟩) hi h

end Sys2Proof.Machine
end

section
/-!
O12: INT and INT2.
-/

namespace Sys2Proof.Machine

/-- Settles O12: both forms of B by `lane2_forms` and, where the old D is read, by `lane3_forms`; the formulas by the laws
of the integer functions. -/
theorem integerLanes : Obligations.IntegerLanes := by
  intro s sc d a b A B C pos n
  refine ⟨fun h => ⟨?add, ?sub, ?mul, ?mulhs, ?mulhn, ?mins, ?maxs, ?minn, ?maxn, ?and, ?or, ?xor, ?andn, ?shl, ?shrn, ?shrs,
    ?rot, ?absd, ?bfen, ?bfes⟩, fun h => ⟨?mac, ?bfi, ?bsel⟩⟩
  case add => exact lane2_forms (fun x y => x + y) (fun _ _ => rfl) h rfl rfl
  case sub => exact lane2_forms (fun x y => x - y) (fun _ _ => rfl) h rfl rfl
  case mul => exact lane2_forms (fun x y => x * y) (fun _ _ => rfl) h rfl rfl
  case mulhs => exact lane2_forms _ aluMulhs_eq h rfl rfl
  case mulhn => exact lane2_forms _ aluMulhn_eq h rfl rfl
  case mins => exact lane2_forms _ aluMins_eq h rfl rfl
  case maxs => exact lane2_forms _ aluMaxs_eq h rfl rfl
  case minn => exact lane2_forms _ aluMinn_eq h rfl rfl
  case maxn => exact lane2_forms _ aluMaxn_eq h rfl rfl
  case and => exact lane2_forms (fun x y => x &&& y) (fun _ _ => rfl) h rfl rfl
  case or => exact lane2_forms (fun x y => x ||| y) (fun _ _ => rfl) h rfl rfl
  case xor => exact lane2_forms (fun x y => x ^^^ y) (fun _ _ => rfl) h rfl rfl
  case andn => exact lane2_forms aluAndn (fun _ _ => rfl) h rfl rfl
  case shl => exact lane2_forms _ aluShl_eq h rfl rfl
  case shrn => exact lane2_forms _ aluShrn_eq h rfl rfl
  case shrs => exact lane2_forms _ aluShrs_eq h rfl rfl
  case rot => exact lane2_forms aluRot (fun _ _ => rfl) h rfl rfl
  case absd => exact lane2_forms aluAbsd (fun _ _ => rfl) h rfl rfl
  case bfen => exact lane2_forms aluBfen (fun _ _ => rfl) h rfl rfl
  case bfes => exact lane2_forms aluBfes (fun _ _ => rfl) h rfl rfl
  case mac => exact lane3_forms (fun x y c => (c + x * y, 0)) h rfl rfl
  case bfi => exact lane3_forms (fun x y c => (aluBfi x y c, 0)) h rfl rfl
  case bsel => exact lane3_forms (fun x y c => (aluBsel x y c, 0)) h rfl rfl

end Sys2Proof.Machine
end

section
/-!
O13: the unary functions, the immediates, the literals, SEL, BCAST and LANEID.
-/

namespace Sys2Proof.Machine

/-- A count of five bits stays the count in a word, and is below 32. -/
theorem toNat_count (n : BitVec 5) : (n.setWidth 32).toNat = n.toNat ∧ n.toNat < 32 :=
  ⟨BitVec.toNat_setWidth_of_le (by decide), n.isLt⟩

theorem aluShl_count (x : Word) (n : BitVec 5) : aluShl x (n.setWidth 32) = x <<< n.toNat := by
  obtain ⟨hw, hlt⟩ := toNat_count n
  rw [aluShl, hw, if_pos hlt]

theorem aluShrn_count (x : Word) (n : BitVec 5) : aluShrn x (n.setWidth 32) = x >>> n.toNat := by
  obtain ⟨hw, hlt⟩ := toNat_count n
  rw [aluShrn, hw, if_pos hlt]

theorem aluShrs_count (x : Word) (n : BitVec 5) : aluShrs x (n.setWidth 32) = x.sshiftRight n.toNat := by
  obtain ⟨hw, hlt⟩ := toNat_count n
  rw [aluShrs, hw, min_eq_left (Nat.le_of_lt_succ hlt)]

theorem aluRot_count (x : Word) (n : BitVec 5) : aluRot x (n.setWidth 32) = x.rotateLeft n.toNat := by
  obtain ⟨hw, hlt⟩ := toNat_count n
  rw [aluRot, hw, Nat.mod_eq_of_lt hlt]

/-- SEL in both forms of B (R99). -/
theorem sel_gives {s : State} {sc : Bool} {p : Pred} {d a b : Reg}
    (h : s.clear (need3 false sc d.toNat a.toNat b.toNat) noCheck = true) :
    GivesWord (if sc then .selS p d a b else .sel p d a b) s d
      (fun j => if s.rp j p.toNat then s.rv j a.toNat else s.rb sc j b.toNat) :=
  givesWord_of_word (fun s j => if s.rp j p.toNat then s.rv j a.toNat else s.rb sc j b.toNat)
    (fun _ => by simp only [learn_rp, learn_rv, learn_rb]) h (by cases sc <;> rfl)

/-- Settles O13: the unary functions and the immediates by `laneImm_gives_eq`, the others by their one result. -/
theorem integerUnaryAndImmediates : Obligations.IntegerUnaryAndImmediates := by
  intro s d a b p imm n w A
  refine ⟨fun h => ⟨fun sc => ⟨?popc, ?clz, ?brev⟩, ?addi, ?andi, ?ori, ?xori, ?shl, ?shrn, ?shrs, ?rot⟩,
    fun h => ⟨?movi, ?lit, ?laneid⟩, fun h => ?litScalar, fun h => ?bcast, fun sc h => sel_gives h⟩
  case popc => exact laneImm_gives_eq _ aluPopc_eq h (by cases sc <;> rfl)
  case clz => exact laneImm_gives_eq _ aluClz_eq h (by cases sc <;> rfl)
  case brev => exact laneImm_gives_eq _ aluBrev_eq h (by cases sc <;> rfl)
  case addi => exact laneImm_gives_eq (fun x => x + immWord imm) (fun _ => rfl) h rfl
  case andi => exact laneImm_gives_eq (fun x => x &&& immWord imm) (fun _ => rfl) h rfl
  case ori => exact laneImm_gives_eq (fun x => x ||| immWord imm) (fun _ => rfl) h rfl
  case xori => exact laneImm_gives_eq (fun x => x ^^^ immWord imm) (fun _ => rfl) h rfl
  case shl => exact laneImm_gives_eq _ (fun x => aluShl_count x n) h rfl
  case shrn => exact laneImm_gives_eq _ (fun x => aluShrn_count x n) h rfl
  case shrs => exact laneImm_gives_eq _ (fun x => aluShrs_count x n) h rfl
  case rot => exact laneImm_gives_eq _ (fun x => aluRot_count x n) h rfl
  case movi => exact givesWord_of_word (fun _ _ => immWord imm) (fun _ => rfl) h rfl
  case lit => exact givesWord_of_word (fun _ _ => w) (fun _ => rfl) h rfl
  case laneid => exact givesWord_of_word (fun _ j => BitVec.ofNat 32 j) (fun _ => rfl) h rfl
  case litScalar => exact gives_of_putS (f := fun _ => w) (fun _ => rfl) rfl h
  case bcast => exact givesWord_of_word (fun s _ => s.rs b.toNat) (fun _ => by simp only [learn_rs]) h rfl

end Sys2Proof.Machine
end

section
/-!
O15: ICMP.
-/

namespace Sys2Proof.Machine

theorem icmp_ne_eq (x y : Word) : icmp .ne x y = (x != y) := decide_not

theorem icmp_tst_eq (x y : Word) : icmp .tst x y = ((x &&& y) != 0) := decide_not

/-- Settles O15: the conditions of R92, each read off the function `icmp`. -/
theorem integerCompares : Obligations.IntegerCompares := by
  intro s sc d a b h A B is
  refine ⟨?eq, ?ne, ?lts, ?les, ?gts, ?ges, ?ltn, ?len, ?gtn, ?gen, ?tst, ?ntst⟩
  case eq => exact icmp_forms .eq (fun x y => x == y) (fun _ _ => rfl) h rfl rfl
  case ne => exact icmp_forms .ne (fun x y => x != y) icmp_ne_eq h rfl rfl
  case lts => exact icmp_forms .lts (fun x y => x.slt y) (fun _ _ => rfl) h rfl rfl
  case les => exact icmp_forms .les (fun x y => x.sle y) (fun _ _ => rfl) h rfl rfl
  case gts => exact icmp_forms .gts (fun x y => y.slt x) (fun _ _ => rfl) h rfl rfl
  case ges => exact icmp_forms .ges (fun x y => y.sle x) (fun _ _ => rfl) h rfl rfl
  case ltn => exact icmp_forms .ltn (fun x y => x.ult y) (fun _ _ => rfl) h rfl rfl
  case len => exact icmp_forms .len (fun x y => x.ule y) (fun _ _ => rfl) h rfl rfl
  case gtn => exact icmp_forms .gtn (fun x y => y.ult x) (fun _ _ => rfl) h rfl rfl
  case gen => exact icmp_forms .gen (fun x y => y.ule x) (fun _ _ => rfl) h rfl rfl
  case tst => exact icmp_forms .tst (fun x y => (x &&& y) != 0) icmp_tst_eq h rfl rfl
  case ntst => exact icmp_forms .ntst (fun x y => (x &&& y) == 0) (fun _ _ => rfl) h rfl rfl

end Sys2Proof.Machine
end

section
/-!
O16: the scalar instructions.
-/

namespace Sys2Proof.Machine

/-- The whole word of a condition, as R96 writes it. -/
theorem boolWord_ne (x y : Word) : boolWord (decide (x ≠ y)) = if (x != y) = true then 1 else 0 := by
  rw [boolWord, decide_not]
  rfl

/-- Settles O16: each SOP by `scalar3_gives`, SADD64 and SADDI by their one result. -/
theorem scalarArithmetic : Obligations.ScalarArithmetic := by
  intro s d a b imm A B one
  refine ⟨fun h => ⟨?add, ?sub, ?mul, ?and, ?or, ?xor, ?shl, ?shrn, ?shrs, ?mins, ?maxs, ?eq, ?ne, ?lt, ?ltn⟩, fun h => ?add64,
    fun h => ?addi⟩
  case add => exact scalar3_gives (fun x y => x + y) (fun _ _ => rfl) h rfl
  case sub => exact scalar3_gives (fun x y => x - y) (fun _ _ => rfl) h rfl
  case mul => exact scalar3_gives (fun x y => x * y) (fun _ _ => rfl) h rfl
  case and => exact scalar3_gives (fun x y => x &&& y) (fun _ _ => rfl) h rfl
  case or => exact scalar3_gives (fun x y => x ||| y) (fun _ _ => rfl) h rfl
  case xor => exact scalar3_gives (fun x y => x ^^^ y) (fun _ _ => rfl) h rfl
  case shl => exact scalar3_gives _ aluShl_eq h rfl
  case shrn => exact scalar3_gives _ aluShrn_eq h rfl
  case shrs => exact scalar3_gives _ aluShrs_eq h rfl
  case mins => exact scalar3_gives _ aluMins_eq h rfl
  case maxs => exact scalar3_gives _ aluMaxs_eq h rfl
  case eq => exact scalar3_gives (fun x y => boolWord (x == y)) (fun _ _ => rfl) h rfl
  case ne => exact scalar3_gives _ boolWord_ne h rfl
  case lt => exact scalar3_gives (fun x y => boolWord (x.slt y)) (fun _ _ => rfl) h rfl
  case ltn => exact scalar3_gives (fun x y => boolWord (x.ult y)) (fun _ _ => rfl) h rfl
  case add64 => exact gives_of_putS2 (f := fun s => s.rs2 a.toNat + s.rs2 b.toNat) (fun _ => by simp only [learn_rs2]) rfl h
  case addi => exact gives_of_putS (f := fun s => s.rs a.toNat + immWord imm) (fun _ => by simp only [learn_rs]) rfl h

end Sys2Proof.Machine
end

section
/-!
O18, O19, O20: the floating-point instructions and the conversions.
-/

namespace Sys2Proof.Machine

/-- Settles O18: both forms of B by `lane3_forms`, with the function of the rule. -/
theorem floatLanes : Obligations.FloatLanes := by
  intro s sc d a b A B C is
  refine ⟨fun h => ⟨?fadd, ?fsub, ?fmul, ?fmin, ?fmax, ?fminn, ?fmaxn, ?fcps, ?fscl, ?hadd, ?hsub, ?hmul, ?hmin, ?hmax,
    ?badd, ?bsub, ?bmul, ?bmin, ?bmax⟩, fun h => ⟨?fmac, ?fmsc, ?hmac, ?bmac⟩⟩
  case fadd => exact lane3_forms (fun x y _ => fadd x y) h rfl rfl
  case fsub => exact lane3_forms (fun x y _ => fsub x y) h rfl rfl
  case fmul => exact lane3_forms (fun x y _ => fmul x y) h rfl rfl
  case fmin => exact lane3_forms (fun x y _ => (fminmax false x y, 0)) h rfl rfl
  case fmax => exact lane3_forms (fun x y _ => (fminmax true x y, 0)) h rfl rfl
  case fminn => exact lane3_forms (fun x y _ => (fminmaxN false x y, 0)) h rfl rfl
  case fmaxn => exact lane3_forms (fun x y _ => (fminmaxN true x y, 0)) h rfl rfl
  case fcps => exact lane3_forms (fun x y _ => (fcps x y, 0)) h rfl rfl
  case fscl => exact lane3_forms (fun x y _ => fscl x y) h rfl rfl
  case hadd => exact lane3_forms (hop fp16 .add) h rfl rfl
  case hsub => exact lane3_forms (hop fp16 .sub) h rfl rfl
  case hmul => exact lane3_forms (hop fp16 .mul) h rfl rfl
  case hmin => exact lane3_forms (hop fp16 .min) h rfl rfl
  case hmax => exact lane3_forms (hop fp16 .max) h rfl rfl
  case badd => exact lane3_forms (hop bf16 .add) h rfl rfl
  case bsub => exact lane3_forms (hop bf16 .sub) h rfl rfl
  case bmul => exact lane3_forms (hop bf16 .mul) h rfl rfl
  case bmin => exact lane3_forms (hop bf16 .min) h rfl rfl
  case bmax => exact lane3_forms (hop bf16 .max) h rfl rfl
  case fmac => exact lane3_forms fmac h rfl rfl
  case fmsc => exact lane3_forms fmsc h rfl rfl
  case hmac => exact lane3_forms (hop fp16 .mac) h rfl rfl
  case bmac => exact lane3_forms (hop bf16 .mac) h rfl rfl

/-- Settles O19: both forms of B by `laneCmp_forms`, with the condition of the rule. -/
theorem floatCompares : Obligations.FloatCompares := by
  intro s sc d a b h R is
  refine ⟨?eq, ?ne, ?lt, ?le, ?gt, ?ge, ?un, ?or⟩
  case eq => exact laneCmp_forms (fcmp .eq) h rfl rfl
  case ne => exact laneCmp_forms (fcmp .ne) h rfl rfl
  case lt => exact laneCmp_forms (fcmp .lt) h rfl rfl
  case le => exact laneCmp_forms (fcmp .le) h rfl rfl
  case gt => exact laneCmp_forms (fcmp .gt) h rfl rfl
  case ge => exact laneCmp_forms (fcmp .ge) h rfl rfl
  case un => exact laneCmp_forms (fcmp .un) h rfl rfl
  case or => exact laneCmp_forms (fcmp .or) h rfl rfl

/-- Reading a token's scalar leaves CORECTL.EXACT. -/
@[simp] theorem learn_exactMode (s : State) (rs : List Nat) : (s.learn rs).exactMode = s.exactMode := by
  simp only [State.exactMode, coreOf_unit, learn_myTeam, learn_core]

section
variable {i : Instr} {s : State} {la : La} {d a : Reg}

/-- A unary instruction that depends on its operand alone (R109). -/
theorem lane1_fixed_gives (f : Word → Word × Flags) (h : s.clear (need2 d.toNat a.toNat) noCheck = true)
    (hi : exec i s = lane1 la d a (fun _ => f) s) :
    Gives i s la.toNat d.toNat 1 (fun j _ => (f (s.rv j a.toNat)).1) (fun j => (f (s.rv j a.toNat)).2) :=
  lane1_gives (f := fun _ => f) (fun _ _ => rfl) hi h

/-- A special function, under CORECTL.EXACT as it stands at issue (R107). -/
theorem sfu_gives (fn : SfuFn) (h : s.clear (need2 d.toNat a.toNat) noCheck = true)
    (hi : exec i s = lane1 la d a (fun s => sfu s.exactMode fn) s) :
    Gives i s la.toNat d.toNat 1 (fun j _ => (sfu s.exactMode fn (s.rv j a.toNat)).1)
      (fun j => (sfu s.exactMode fn (s.rv j a.toNat)).2) :=
  lane1_gives (f := fun s => sfu s.exactMode fn) (fun _ _ => by rw [learn_exactMode]) hi h

end

/-- Settles O20: the special functions by `sfu_gives`, the conversions by `lane1_fixed_gives`. -/
theorem sfuAndConversions : Obligations.SfuAndConversions := by
  intro s la d a rnd h is
  refine ⟨?rcp, ?rsq, ?sqrt, ?ex2, ?lg2, ?sinpi, ?cospi, ?tanh, ?f32s32, ?f32n32, ?s32f32, ?n32f32, ?f16f32, ?bf16f32,
    ?f32f16, ?f32bf16, ?frint⟩
  case rcp => exact sfu_gives .rcp h rfl
  case rsq => exact sfu_gives .rsq h rfl
  case sqrt => exact sfu_gives .sqrt h rfl
  case ex2 => exact sfu_gives .ex2 h rfl
  case lg2 => exact sfu_gives .lg2 h rfl
  case sinpi => exact sfu_gives .sinpi h rfl
  case cospi => exact sfu_gives .cospi h rfl
  case tanh => exact sfu_gives .tanh h rfl
  case f32s32 => exact lane1_fixed_gives (cvtF32S32 rnd) h rfl
  case f32n32 => exact lane1_fixed_gives (cvtF32N32 rnd) h rfl
  case s32f32 => exact lane1_fixed_gives (cvtS32F32 rnd) h rfl
  case n32f32 => exact lane1_fixed_gives (cvtN32F32 rnd) h rfl
  case f16f32 => exact lane1_fixed_gives (cvtNarrow fp16 rnd) h rfl
  case bf16f32 => exact lane1_fixed_gives (cvtNarrow bf16 rnd) h rfl
  case f32f16 => exact lane1_fixed_gives (fun x => (cvtWiden fp16 x, 0)) h rfl
  case f32bf16 => exact lane1_fixed_gives (fun x => (cvtWiden bf16 x, 0)) h rfl
  case frint => exact lane1_fixed_gives (frint rnd) h rfl

end Sys2Proof.Machine
end

section
/-!
O31, O32, O33: what the words of SHI, SEL and ICMP decode to.
-/

namespace Sys2Proof

/-! ### Words of one-word majors -/

section
variable {i : Instr} {c : Bool} {w : Word} {e : Reject}

/-- An instruction whose encoding is one word is decoded from it, whatever follows. -/
theorem decodeWords_of_encode (he : encode i c = some [w]) (hf : i.WellFormed) (rest : List Word) :
    decodeWords (w :: rest) = .ok ⟨i, c, 1⟩ :=
  decodeWords_of_readFrom (he ▸ encode_readFrom i c) hf rest

theorem tieBit_beq_one (htie : tieBit w = BitVec.ofBool c) : (tieBit w == 1) = c := by
  rw [htie]
  cases c <;> rfl

theorem decodeWords_of_fields (hone : twoWord (majorOf w) = false) (htie : tieBit w = BitVec.ofBool c)
    (hfields : decodeFields c w 0 = .ok i) (hcheck : checked i = .ok i) (rest : List Word) :
    decodeWords (w :: rest) = .ok ⟨i, c, 1⟩ := by
  simp only [decodeWords, hone, tieBit_beq_one htie, hfields]
  show (checked i >>= fun i => Except.ok (Decoded.mk i c 1)) = _
  rw [hcheck]
  rfl

theorem decodeWords_of_refused_fields (hone : twoWord (majorOf w) = false) (htie : tieBit w = BitVec.ofBool c)
    (hfields : decodeFields c w 0 = .error e) (rest : List Word) : decodeWords (w :: rest) = .error e := by
  simp only [decodeWords, hone, tieBit_beq_one htie, hfields]
  rfl

end

/-! ### SEL -/

theorem decodeWords_sel (c sc : Bool) (p : Pred) (d a b : Reg) (rest : List Word) :
    decodeWords (packR c 0x0D (BitVec.ofBool sc ++ p) d a b :: rest) = .ok ⟨if sc then .selS p d a b else .sel p d a b, c, 1⟩ := by
  have hfn : BitVec.ofBool sc ++ p = selFn (BitVec.ofBool sc) p := by revert sc p; decide
  rw [hfn]
  cases sc
  · exact decodeWords_of_encode (i := .sel p d a b) rfl rfl rest
  · exact decodeWords_of_encode (i := .selS p d a b) rfl rfl rest

/-! ### SHI -/

/-- The value of two fields put together. -/
theorem toNat_append_eq_add {m n : Nat} (x : BitVec m) (y : BitVec n) : (x ++ y).toNat = x.toNat * 2 ^ n + y.toNat := by
  rw [BitVec.toNat_append, ← Nat.shiftLeft_add_eq_or_of_lt y.isLt, Nat.shiftLeft_eq]

theorem toNat_shiFields (f : BitVec 2) (z : BitVec 4) (n : BitVec 5) :
    (f ++ z ++ n).toNat = f.toNat * 512 + z.toNat * 32 + n.toNat := by
  rw [toNat_append_eq_add, toNat_append_eq_add]
  omega

theorem shiOp_fields (f : BitVec 2) (z : BitVec 4) (n : BitVec 5) : shiOp (f ++ z ++ n) = f := by
  apply BitVec.eq_of_toNat_eq
  rw [shiOp, toNat_shiFields, BitVec.toNat_ofNat]
  omega

theorem shiN_fields (f : BitVec 2) (z : BitVec 4) (n : BitVec 5) :
    shiN (f ++ z ++ n) = if z = 0 then .ok n else .error .fieldNotZero := by
  have hz : (f ++ z ++ n).toNat / 32 % 16 = z.toNat := by
    rw [toNat_shiFields]
    omega
  have hn : BitVec.ofNat 5 (f ++ z ++ n).toNat = n := by
    apply BitVec.eq_of_toNat_eq
    rw [toNat_shiFields, BitVec.toNat_ofNat]
    omega
  rw [shiN, hz, hn, ite_not]
  exact if_congr (BitVec.toNat_eq (y := 0)).symm rfl rfl

/-- The SHI of function code `f` (R94). -/
noncomputable def shiInstr (f : BitVec 2) (d a : Reg) (n : BitVec 5) : Instr :=
  if f = 0 then .shiShl d a n else if f = 1 then .shiShrn d a n else if f = 2 then .shiShrs d a n else .shiRot d a n

/-- SHI's words hold the shift of their function code where IMM bits 8:5 are zero, and are refused otherwise (R36, R94). -/
theorem decodeFields_shi (t c : Bool) (d a : Reg) (f : BitVec 2) (z : BitVec 4) (n : BitVec 5) (w2 : Word) :
    decodeFields t (packI c 19 d a (f ++ z ++ n)) w2 = if z = 0 then .ok (shiInstr f d a n) else .error .fieldNotZero := by
  have hf : f = 0 ∨ f = 1 ∨ f = 2 ∨ f = 3 := by revert f; decide
  rw [decodeFields_packI, show (19 : BitVec 6) = 19#6 from rfl, decoderOf_shi, decShi_eq, iD_packI, iA_packI, iImm_packI,
    shiOp_fields, shiN_fields]
  rcases hf with rfl | rfl | rfl | rfl
  all_goals by_cases hz : z = 0 <;> simp only [hz, if_true, if_false] <;> rfl

theorem checked_shiInstr (f : BitVec 2) (d a : Reg) (n : BitVec 5) : checked (shiInstr f d a n) = .ok (shiInstr f d a n) := by
  unfold shiInstr
  split_ifs <;> rfl

theorem shi_oneWord (c : Bool) (d a : Reg) (imm : Imm11) : twoWord (majorOf (packI c 0x13 d a imm)) = false := by
  rw [majorOf_packI]
  rfl

/-! ### ICMP -/

/-- The compares of R92 in the order of their FN codes, against a scalar where `sc` holds. -/
noncomputable def icmps (sc : Bool) : List (Pred → Reg → Reg → Instr) :=
  if sc then [.icmpEqS, .icmpNeS, .icmpLtsS, .icmpLesS, .icmpGtsS, .icmpGesS, .icmpLtnS, .icmpLenS, .icmpGtnS, .icmpGenS, .icmpTstS,
    .icmpNtstS]
  else [.icmpEq, .icmpNe, .icmpLts, .icmpLes, .icmpGts, .icmpGes, .icmpLtn, .icmpLen, .icmpGtn, .icmpGen, .icmpTst, .icmpNtst]

theorem icmps_length (sc : Bool) : (icmps sc).length = 12 := by cases sc <;> rfl

theorem low3_append (z : BitVec 4) (p : Pred) : low3 (z ++ p) = if z = 0 then .ok p else .error .fieldNotZero := by
  revert z p; decide

/-- What a word of the two majors holds: the compare of its FN code, with D's low bits as its predicate. -/
theorem decIcmp_eq_table (sc : Bool) (w : Word) : (if sc then decIcmpS w else decIcmp w) =
    match (icmps sc)[(rFn w).toNat]? with
    | none => .error .reservedFunction
    | some k => (low3 (rD w)).map (fun p => k p (rA w) (rB w)) := by
  rw [decIcmp_eq, decIcmpS_eq]
  generalize (rFn w).toNat = n
  cases sc
  all_goals match n with
    | 0 | 1 | 2 | 3 | 4 | 5 | 6 | 7 | 8 | 9 | 10 | 11 => cases low3 (rD w) <;> rfl
    | _ + 12 => rfl

theorem decodeFields_icmp (sc t c : Bool) (f : BitVec 4) (d a b : Reg) (w2 : Word) :
    decodeFields t (packR c (if sc then 0x06 else 0x05) f d a b) w2 =
      match (icmps sc)[f.toNat]? with
      | none => .error .reservedFunction
      | some k => (low3 d).map (fun p => k p a b) := by
  rw [decodeFields_packR]
  have htable := decIcmp_eq_table sc (packR c (if sc then 0x06 else 0x05) f d a b)
  rw [rFn_packR, rD_packR, rA_packR, rB_packR] at htable
  rw [← htable]
  cases sc
  · simp only [Bool.false_eq_true, if_false]
    exact decoderOf_icmp
  · simp only [if_true]
    exact decoderOf_icmpS

theorem checked_of_mem_icmps {sc : Bool} {k : Pred → Reg → Reg → Instr} (hk : k ∈ icmps sc) (p : Pred) (a b : Reg) :
    checked (k p a b) = .ok (k p a b) := by
  revert k
  cases sc
  all_goals
    simp only [icmps, Bool.false_eq_true, if_true, if_false, List.forall_mem_cons]
    exact ⟨rfl, rfl, rfl, rfl, rfl, rfl, rfl, rfl, rfl, rfl, rfl, rfl, List.forall_mem_nil _⟩

theorem icmp_oneWord (sc c : Bool) (f : BitVec 4) (d a b : Reg) :
    twoWord (majorOf (packR c (if sc then 0x06 else 0x05) f d a b)) = false := by
  rw [majorOf_packR]
  cases sc <;> rfl

end Sys2Proof
end

section
/-!
O31, O32, O33: SHI, SEL and ICMP, words and effect.
-/

namespace Sys2Proof.Machine

/-- Settles O31: the words by `decodeFields_shi`, the effect by the function issued, which is the shift by the count. -/
theorem shiftImmediate : Obligations.ShiftImmediate := by
  refine ⟨fun c d a f z n rest => ⟨fun hz => ?decoded, fun hz => ⟨.fieldNotZero, ?refused⟩⟩, rfl,
    fun s d a n h => ⟨?shl, ?shrn, ?shrs, ?rot,
      fun x => ⟨aluShl_count x n, aluShrn_count x n, aluShrs_count x n, aluRot_count x n⟩⟩⟩
  case decoded =>
    have hfields := (decodeFields_shi c c d a f z n 0).trans (if_pos hz)
    exact decodeWords_of_fields (shi_oneWord ..) (tieBit_packI ..) hfields (checked_shiInstr ..) rest
  case refused =>
    have hfields := (decodeFields_shi c c d a f z n 0).trans (if_neg hz)
    exact decodeWords_of_refused_fields (shi_oneWord ..) (tieBit_packI ..) hfields rest
  case shl => exact laneImm_gives_eq (fun x => aluShl x (n.setWidth 32)) (fun _ => rfl) h rfl
  case shrn => exact laneImm_gives_eq (fun x => aluShrn x (n.setWidth 32)) (fun _ => rfl) h rfl
  case shrs => exact laneImm_gives_eq (fun x => aluShrs x (n.setWidth 32)) (fun _ => rfl) h rfl
  case rot => exact laneImm_gives_eq (fun x => aluRot x (n.setWidth 32)) (fun _ => rfl) h rfl

/-- Settles O32: the words by `decodeWords_sel`, the effect by `sel_gives`. -/
theorem selectByPredicate : Obligations.SelectByPredicate :=
  ⟨decodeWords_sel, rfl, fun _ _ _ _ _ _ h => sel_gives h⟩

/-- The conditions of R92, in the order of the FN codes. -/
def icmpConditions : List (Word → Word → Bool) :=
  [fun a b => a == b, fun a b => a != b, fun a b => a.slt b, fun a b => a.sle b,
    fun a b => b.slt a, fun a b => b.sle a, fun a b => a.ult b, fun a b => a.ule b, fun a b => b.ult a, fun a b => b.ule a,
    fun a b => (a &&& b) != 0, fun a b => (a &&& b) == 0]

/-- Each compare gives the condition at its place in the table (R92). -/
theorem icmps_give {s : State} {sc : Bool} {d : Pred} {a b : Reg} (h : s.clear (needCmp sc a.toNat b.toNat) noCheck = true) :
    List.Forall₂ (fun k g => GivesPred (k d a b) s d.toNat
      (fun j => g (s.rv j a.toNat) (if sc then s.rs b.toNat else s.rv j b.toNat)) (fun _ => 0)) (icmps sc) icmpConditions := by
  obtain ⟨eq, ne, lts, les, gts, ges, ltn, len, gtn, gen, tst, ntst⟩ := integerCompares s sc d a b h
  cases sc
  all_goals exact .cons eq (.cons ne (.cons lts (.cons les (.cons gts (.cons ges (.cons ltn (.cons len (.cons gtn (.cons gen
      (.cons tst (.cons ntst .nil)))))))))))

/-- Related lists are related place by place. -/
theorem forall₂_getElem? {α β : Type} {R : α → β → Prop} {l : List α} {m : List β} (h : List.Forall₂ R l m) {n : Nat} {x : α}
    {y : β} (hx : l[n]? = some x) (hy : m[n]? = some y) : R x y := by
  obtain ⟨hl, rfl⟩ := List.getElem?_eq_some_iff.1 hx
  obtain ⟨hm, rfl⟩ := List.getElem?_eq_some_iff.1 hy
  exact h.get hl hm

/-- Settles O33: the words by `decodeFields_icmp`, the effect place by place in the table. -/
theorem compareIntegers : Obligations.CompareIntegers := by
  unfold Obligations.CompareIntegers
  intro cmp cmpS holds
  have hlist : ∀ sc : Bool, (if sc then cmpS else cmp) = icmps sc := fun _ => rfl
  simp only [hlist]
  refine ⟨fun c sc f p z a b rest => ⟨fun hz k hk => ?decoded, fun h => ?refused⟩, rfl,
    fun s sc d a b n k g h hk hg => forall₂_getElem? (icmps_give h) hk hg⟩
  case decoded =>
    refine decodeWords_of_fields (icmp_oneWord ..) (tieBit_packR ..) ?_ (checked_of_mem_icmps (List.mem_of_getElem? hk) p a b) rest
    rw [decodeFields_icmp, hk, low3_append, if_pos hz]
    rfl
  case refused =>
    cases hk : (icmps sc)[f.toNat]? with
    | none =>
      refine ⟨.reservedFunction, decodeWords_of_refused_fields (icmp_oneWord ..) (tieBit_packR ..) ?_ rest⟩
      rw [decodeFields_icmp, hk]
    | some k =>
      have hlt : f.toNat < 12 := icmps_length sc ▸ (List.getElem?_eq_some_iff.1 hk).1
      have hz : z ≠ 0 := h.resolve_right (by omega)
      refine ⟨.fieldNotZero, decodeWords_of_refused_fields (icmp_oneWord ..) (tieBit_packR ..) ?_ rest⟩
      rw [decodeFields_icmp, hk, low3_append, if_neg hz]
      rfl

end Sys2Proof.Machine
end

section
/-!
O23: the cross-lane instructions.
-/

namespace Sys2Proof.Machine

theorem poisonFrom_none {s : State} {j r i : Nat} (h : s.pre.vPoison j r = false) : s.poisonFrom j r i = none := by
  rw [State.poisonFrom, h]
  rfl

@[simp] theorem learn_lpcSeen (s : State) (rs : List Nat) (j : Nat) : (s.learn rs).lpcSeen j = s.lpcSeen j := by
  simp only [State.lpcSeen, learn_pre]

@[simp] theorem learn_tree (s : State) (rs : List Nat) (a : Nat) (p : Nat → Bool) : (s.learn rs).tree a p = s.tree a p := by
  simp only [State.tree, learn_pre, learn_unit, learn_rv]

@[simp] theorem learn_laneMod (s : State) (rs : List Nat) (w : Word) : (s.learn rs).laneMod w = s.laneMod w := by
  simp only [State.laneMod, learn_pre]

/-- A shuffle (R143), where no lane's source word is poisoned. -/
theorem shuffle_gives {i : Instr} {s : State} {d a b : Reg} (src : Nat → Nat → Nat → Nat)
    (h : s.clear ⟨[(b.toNat, 1)], [(a.toNat, 1), (d.toNat, 1)], [], []⟩ noCheck = true)
    (hclean : ∀ j ∈ s.acts, s.pre.vPoison (src j s.pre.width (s.rv j b.toNat).toNat) a.toNat = false)
    (hi : exec i s = shuffle d a b src s) :
    GivesWord i s d (fun j => s.rv (src j s.pre.width (s.rv j b.toNat).toNat) a.toNat) :=
  givesWord_of_word (fun s j => s.rv (src j s.pre.width (s.rv j b.toNat).toNat) a.toNat)
    (fun rs => by simp only [learn_rv, learn_pre]) (clear_of_checks h fun j hj => poisonFrom_none (hclean j hj)) hi

/-- A reduction (R144). -/
theorem reduceLanes_gives {i : Instr} {s : State} {d a : Reg} (f : List Word → Word)
    (h : s.clear (amongNeed d.toNat a.toNat []) (fun s => s.poisonAmong a.toNat) = true) (hi : exec i s = reduceLanes d a f s) :
    GivesWord i s d (fun _ => f (s.acts.map (fun j => s.rv j a.toNat))) :=
  givesWord_of_word (fun s _ => f (s.acts.map (fun j => s.rv j a.toNat))) (fun rs => by simp only [learn_acts, learn_rv]) h hi

/-- One word written to one register of one lane. -/
theorem write_one_same (g : Group) (j r : Nat) (w : Word) :
    (g.write [⟨vkey j r, w, false⟩]).getV j r = w ∧ (g.write [⟨vkey j r, w, false⟩]).vPoison j r = false := by
  simp [Group.write_getV, Group.write_vPoison, lastDest]

theorem write_one_other (g : Group) {i j r q : Nat} (w : Word) (hr : r < 128) (hq : q < 128) (h : ¬(i = j ∧ q = r)) :
    (g.write [⟨vkey j r, w, false⟩]).getV i q = g.getV i q ∧
      (g.write [⟨vkey j r, w, false⟩]).vPoison i q = g.vPoison i q := by
  have hk : vkey j r ≠ vkey i q := fun hk => h (vkey_inj hq hr hk.symm)
  simp [Group.write_getV, Group.write_vPoison, lastDest, hk]

/-- WRLANE reads its scalars, then writes the lane if it is ACTIVE (R98). -/
theorem exec_wrlane {s : State} {d a b : Reg}
    (h : s.clear ⟨[], [(d.toNat, 1)], [(a.toNat, 1), (b.toNat, 1)], []⟩ noCheck = true) :
    exec (.wrlane d a b) s = .next (if s.unit.mask.getLsbD (s.laneMod (s.rs b.toNat)) then
      (s.learn (expand [(a.toNat, 1), (b.toNat, 1)])).onMe
        (fun g => g.write [⟨vkey (s.laneMod (s.rs b.toNat)) d.toNat, s.rs a.toNat, false⟩])
      else s.learn (expand [(a.toNat, 1), (b.toNat, 1)])) := by
  have hx := (show exec (.wrlane d a b) s = execWrlane d a b s from rfl).trans (issue_clear h)
  simp only [learn_laneMod, learn_rs, learn_unit] at hx
  exact hx

/-- The lane that CATS picks for lane `j` (R146). -/
def State.catsWord (s : State) (a b j : Nat) : Word :=
  let P := catsPrefix (fun j => s.rv j a) s.acts 0 0
  let bad := s.acts.any (fun j => badWeight (s.rv j a)) || (val32 P.2.1).isInf
  if bad || (val32 P.2.1).isZero then 0xFFFFFFFF else
    match P.1.find? (fun e => (val32 (fmul (s.rv j b) P.2.1).1).lt (val32 e.2)) with
    | some e => BitVec.ofNat 32 e.1
    | none => 0xFFFFFFFF

/-- The flags that CATS raises for lane `j` (R146). -/
def State.catsFlags (s : State) (a b j : Nat) : Flags :=
  let P := catsPrefix (fun j => s.rv j a) s.acts 0 0
  let bad := s.acts.any (fun j => badWeight (s.rv j a)) || (val32 P.2.1).isInf
  (if bad || (val32 P.2.1).isZero then 0 else (fmul (s.rv j b) P.2.1).2) ||| (if j = s.lead then P.2.2 ||| nvIf bad else 0)

@[simp] theorem learn_catsWord (s : State) (rs : List Nat) (a b j : Nat) : (s.learn rs).catsWord a b j = s.catsWord a b j := by
  simp only [State.catsWord, learn_rv, learn_acts]

@[simp] theorem learn_catsFlags (s : State) (rs : List Nat) (a b j : Nat) : (s.learn rs).catsFlags a b j = s.catsFlags a b j := by
  simp only [State.catsFlags, learn_rv, learn_acts, learn_lead]

/-- Settles O23: shuffles, reductions and scans by their one result, RDFIRST and RDLANE where the word they read is not poisoned,
WRLANE by whether the lane is ACTIVE. -/
theorem crossLane : Obligations.CrossLane := by
  intro s d a b A x W fold sh
  refine ⟨fun h => ⟨?shfli, ?shflu, ?shfld, ?shflx⟩, fun h => ⟨?redadd, ?redmin, ?redmax, ?redfadd⟩,
    fun h => ⟨?scanadd, ?scanfadd, ?rdlpc⟩, fun h _ hclean => ?rdfirst, fun h => ?rdlane, fun h => ?wrlane,
    fun h => ?cats⟩
  case shfli => exact fun hclean => shuffle_gives (fun _ w x => x % w) h hclean rfl
  case shflu => exact fun hclean => shuffle_gives (fun i _ x => if i < bits x 0 6 then i else i - bits x 0 6) h hclean rfl
  case shfld => exact fun hclean => shuffle_gives (fun i w x => if w ≤ i + bits x 0 6 then i else i + bits x 0 6) h hclean rfl
  case shflx =>
    exact fun hclean => shuffle_gives (fun i w x => if w ≤ Nat.xor i (bits x 0 6) then i else Nat.xor i (bits x 0 6)) h hclean rfl
  case redadd => exact reduceLanes_gives (fold1 (fun u v => u + v)) h rfl
  case redmin => exact reduceLanes_gives (fold1 aluMins) h rfl
  case redmax => exact reduceLanes_gives (fold1 aluMaxs) h rfl
  case redfadd =>
    exact gives_of_word (la := 0) (f := fun s _ => (s.tree a.toNat (fun _ => true)).1)
      (fl := fun s j => if j = s.lead then (s.tree a.toNat (fun _ => true)).2 else 0)
      (fun _ => by simp only [learn_tree, learn_lead, and_self]) rfl h
  case scanadd =>
    exact givesWord_of_word
      (fun s j => fold1 (fun u v => u + v) ((s.acts.filter (fun q => decide (q ≤ j))).map (fun q => s.rv q a.toNat)))
      (fun _ => by simp only [learn_acts, learn_rv]) h rfl
  case scanfadd =>
    exact gives_of_word (la := 0) (f := fun s j => (s.tree a.toNat (fun q => decide (q ≤ j))).1)
      (fl := fun s j => (s.tree a.toNat (fun q => decide (q ≤ j))).2) (fun _ => by simp only [learn_tree, and_self]) rfl h
  case rdlpc =>
    exact givesWord_of_word (fun s j => s.lpcSeen (s.laneMod (s.rv j a.toNat)))
      (fun _ => by simp only [learn_lpcSeen, learn_laneMod, learn_rv]) h rfl
  case rdfirst =>
    have hcheck := clear_of_checks (chk := fun s i => if i = s.lead then s.poisonFrom i a.toNat i else none) h fun i _ => by
      split
      · subst i
        exact poisonFrom_none hclean
      · rfl
    exact gives_of_putS (f := fun s => s.rv s.lead a.toNat) (fun _ => by simp only [learn_rv, learn_lead]) rfl hcheck
  case rdlane =>
    intro j hclean
    have hcheck := clear_of_checks (chk := fun s i => s.poisonFrom (s.laneMod (s.rs b.toNat)) a.toNat i) h
      fun i _ => poisonFrom_none hclean
    exact gives_of_putS (f := fun s => s.rv (s.laneMod (s.rs b.toNat)) a.toNat)
      (fun _ => by simp only [learn_rv, learn_laneMod, learn_rs]) rfl hcheck
  case wrlane =>
    intro j
    have hme := learn_me s (expand [(a.toNat, 1), (b.toNat, 1)])
    have honly := learn_only s (expand [(a.toNat, 1), (b.toNat, 1)])
    by_cases hact : s.unit.mask.getLsbD j = true
    · refine ⟨_, (exec_wrlane h).trans (congrArg _ (if_pos hact)), honly.onMe _, ?_⟩
      rw [State.me_onMe, hme]
      refine ⟨fun _ => write_one_same _ _ _ _, fun i r _ hr hno => ?_, rfl, rfl, rfl, rfl⟩
      exact write_one_other _ _ d.isLt hr fun ⟨hi, hd⟩ => hno ⟨hact, hi, hd⟩
    · refine ⟨_, (exec_wrlane h).trans (congrArg _ (if_neg hact)), honly, ?_⟩
      rw [hme]
      exact ⟨fun ha => absurd ha hact, fun _ _ _ _ _ => ⟨rfl, rfl⟩, rfl, rfl, rfl, rfl⟩
  case cats =>
    exact gives_of_word (la := 0) (f := fun s j => s.catsWord a.toNat b.toNat j)
      (fl := fun s j => s.catsFlags a.toNat b.toNat j) (fun _ => by simp only [learn_catsWord, learn_catsFlags, and_self]) rfl h

end Sys2Proof.Machine
end

section
/-!
O21: dot products, trits and random numbers.
-/

namespace Sys2Proof.Machine

section
variable {i : Instr} {s : State} {d a b : Reg}

/-- A vector result of one word whose flags come with it, at once or as a lookahead result. -/
theorem gives_of_flagged {n : Need} {chk : State → Nat → Option Cause} {la : La} (r : State → Nat → Word × Flags)
    (hr : ∀ rs, r (s.learn rs) = r s) (h : s.clear n chk = true)
    (hi : exec i s = issue n chk la.toNat
      (fun s => s.vecResult la.toNat d.toNat (fun j => [(r s j).1]) (fun j => (r s j).2)) s) :
    Gives i s la.toNat d.toNat 1 (fun j _ => (r s j).1) (fun j => (r s j).2) :=
  gives_of_word (f := fun s j => (r s j).1) (fl := fun s j => (r s j).2) (fun rs => by simp only [hr, and_self]) hi h

/-- A three-register vector instruction that reads the old D and has no form with a scalar B (R85). -/
theorem lane3_vector_gives (f : Word → Word → Word → Word × Flags)
    (h : s.clear (need3 true false d.toNat a.toNat b.toNat) noCheck = true) (hi : exec i s = lane3 true false d a b f s) :
    Gives i s 0 d.toNat 1 (fun j _ => (f (s.rv j a.toNat) (s.rv j b.toNat) (s.rv j d.toNat)).1)
      (fun j => (f (s.rv j a.toNat) (s.rv j b.toNat) (s.rv j d.toNat)).2) :=
  lane3_gives hi h

/-- The same for a function of A and B without flags. -/
theorem lane2_vector_gives (f : Word → Word → Word) (h : s.clear (need3 false false d.toNat a.toNat b.toNat) noCheck = true)
    (hi : exec i s = lane2 false d a b f s) : GivesWord i s d (fun j => f (s.rv j a.toNat) (s.rv j b.toNat)) :=
  lane2_gives hi h

/-- A unary function of `n` bytes, where all of them are trit bytes (R121, R126). -/
theorem tritLane_gives {n : Nat} (f : Word → Word) (h : s.clear (need2 d.toNat a.toNat) (tritCheck a n) = true)
    (hi : exec i s = tritLane d a n f s) : GivesWord i s d (fun j => f (s.rv j a.toNat)) :=
  givesWord_of_word (fun s j => f (s.rv j a.toNat)) (fun _ => by simp only [learn_rv]) h hi

end

/-- Settles O21: DOT and TERN by `lane3_vector_gives`, but for DP4T5 with its trit-byte check; RNG and RNGF by
`lane2_vector_gives`; the functions of trit bytes by `tritLane_gives`; T5CHK by its predicate. -/
theorem dotsTritsAndRandom : Obligations.DotsTritsAndRandom := by
  intro s d a b p A B C is
  refine ⟨fun h => ⟨?s8, ?n8, ?sn8, ?s4, ?bf16, ?fp16, ?e4m3, ?e5m2, ?tern⟩, fun h => ?t5, fun h => ⟨?rng, ?rngf⟩,
    fun h => ⟨?pack, ?enc, ?tcnt⟩, fun h => ?unpk, fun h => ?dec, fun h => ?chk⟩
  case s8 => exact lane3_vector_gives (dotLane .s8) h rfl
  case n8 => exact lane3_vector_gives (dotLane .n8) h rfl
  case sn8 => exact lane3_vector_gives (dotLane .sn8) h rfl
  case s4 => exact lane3_vector_gives (dotLane .s4) h rfl
  case bf16 => exact lane3_vector_gives (dotLane .bf) h rfl
  case fp16 => exact lane3_vector_gives (dotLane .h) h rfl
  case e4m3 => exact lane3_vector_gives (dotLane .e4) h rfl
  case e5m2 => exact lane3_vector_gives (dotLane .e5) h rfl
  case tern => exact lane3_vector_gives ternLane h rfl
  case t5 =>
    exact gives_of_flagged (la := 0) (fun s j => dotLane .t5 (s.rv j a.toNat) (s.rv j b.toNat) (s.rv j d.toNat))
      (fun _ => by simp only [learn_rv]) h rfl
  case rng => exact lane2_vector_gives rngWord h rfl
  case rngf => exact lane2_vector_gives rngFloat h rfl
  case pack => exact laneImm_gives_eq aluT5pack (fun _ => rfl) h rfl
  case enc => exact laneImm_gives_eq aluT5enc (fun _ => rfl) h rfl
  case tcnt => exact laneImm_gives_eq aluTcnt (fun _ => rfl) h rfl
  case unpk => exact tritLane_gives aluT5unpk h rfl
  case dec => exact tritLane_gives aluT5dec h rfl
  case chk => exact gives_of_pred (f := fun s j => aluT5chk (s.rv j a.toNat)) (fun _ _ => by rw [learn_rv]) rfl h

end Sys2Proof.Machine
end

section
/-!
O22: the narrow conversions and block scales.
-/

namespace Sys2Proof.Machine

/-- The random word under which QCVT rounds in lane `j`: drawn with SR only (R83, R119). -/
def State.roundingWord (s : State) (qr : QRnd) (draw : Reg) (j : Nat) : Word :=
  if qr = .sr then laneRng (s.pre.logical j) (s.rs draw.toNat) s.pre.csr.rngkey else 0

@[simp] theorem learn_roundingWord (s : State) (rs : List Nat) (qr : QRnd) (draw : Reg) (j : Nat) :
    (s.learn rs).roundingWord qr draw j = s.roundingWord qr draw j := by
  simp only [State.roundingWord, learn_pre, learn_rs]

/-- QWIDEN's own check finds nothing where its elements are trit bytes or its format is not T5 (R126). -/
theorem qwiden_clear {s : State} {n : Need} {a : Reg} {fmt : QFmt} {pos : Nat} (h : s.clear n noCheck = true)
    (htrit : fmt = .t5 → ∀ j ∈ s.acts, byteOf (s.rv j a.toNat) pos ≤ 242) :
    s.clear n (fun s j => if fmt = .t5 && 242 < byteOf (s.rv j a.toNat) pos then some (s.tritByte pos j) else none) = true := by
  refine clear_of_checks h fun j hj => if_neg fun hbad => ?_
  obtain ⟨hfmt, hbyte⟩ : fmt = .t5 ∧ 242 < byteOf (s.rv j a.toNat) pos := by simpa using hbad
  exact absurd (htrit hfmt j hj) (Nat.not_le.2 hbyte)

/-- Settles O22: each conversion by its one result, QWIDEN by `qwiden_clear` too. -/
theorem narrowConversions : Obligations.NarrowConversions := by
  intro s la d a b draw rnd qr sat fmt pos w q x
  refine ⟨fun h => ?qcvt, fun h htrit => ?qwiden, fun h => ?qscale⟩
  case qcvt =>
    exact gives_of_flagged (fun s j => qcvtLane fmt (QRnd.mode qr) sat pos.toNat (s.roundingWord qr draw j)
      (s.rv j a.toNat) (s.rv j b.toNat) (s.rv j d.toNat)) (fun _ => by simp only [learn_roundingWord, learn_rv]) h rfl
  case qwiden =>
    exact gives_of_flagged (fun s j => qwidenLane fmt (Rnd.mode rnd) sat pos.toNat (s.rv j a.toNat) (s.rv j b.toNat))
      (fun _ => by simp only [learn_rv]) (qwiden_clear h htrit) rfl
  case qscale =>
    exact gives_of_flagged (fun s j => (qscaleLane fmt ((List.range 32).map (fun k => s.rv j (a.toNat + k))), 0))
      (fun _ => by simp only [learn_rv]) h rfl

end Sys2Proof.Machine
end

section
/-!
O17: predicate logic, votes and elections (R141, R147).
-/

namespace Sys2Proof.Machine

-- One theorem at a time: its proof is checked, and its memory free, before the next begins.
set_option Elab.async false

/-- A predicate function of two predicates (R141). -/
theorem plog_gives {i : Instr} {s : State} {d a b : Pred} (f : Bool → Bool → Bool)
    (h : s.clear ⟨[], [], [], []⟩ noCheck = true) (hi : exec i s = plog d a b f s) :
    GivesPred i s d.toNat (fun j => f (s.rp j a.toNat) (s.rp j b.toNat)) (fun _ => 0) :=
  gives_of_pred (f := fun s j => f (s.rp j a.toNat) (s.rp j b.toNat)) (fun _ _ => by simp only [learn_rp]) hi h

/-- Settles O17: the predicate functions by `plog_gives`, each vote by its one result. -/
theorem predicatesAndVotes : Obligations.PredicatesAndVotes := by
  intro s d a b v is A B
  refine ⟨fun h => ⟨?pand, ?por, ?pxor, ?pandn, ?vany, ?vall, ?elect⟩, fun h => ?p2v, fun h => ?v2p, fun h => ?vbal, fun h => ?vcnt⟩
  case pand => exact plog_gives (fun x y => x && y) h rfl
  case por => exact plog_gives (fun x y => x || y) h rfl
  case pxor => exact plog_gives (fun x y => x != y) h rfl
  case pandn => exact plog_gives (fun x y => x && !y) h rfl
  case vany =>
    exact gives_of_pred (f := fun s _ => s.acts.any (fun j => s.rp j a.toNat))
      (fun _ _ => by simp only [learn_acts, learn_rp]) rfl h
  case vall =>
    exact gives_of_pred (f := fun s _ => s.acts.all (fun j => s.rp j a.toNat))
      (fun _ _ => by simp only [learn_acts, learn_rp]) rfl h
  case elect =>
    exact gives_of_pred (f := fun s i => decide ((s.acts.filter (fun j => s.rp j a.toNat)).head? = some i))
      (fun _ _ => by simp only [learn_acts, learn_rp]) rfl h
  case p2v =>
    exact givesWord_of_word (fun s j => if s.rp j a.toNat then 1 else 0) (fun _ => by simp only [learn_rp]) h rfl
  case v2p =>
    have hne : ∀ j, decide (s.rv j v.toNat ≠ 0) = (s.rv j v.toNat != 0) := fun _ => decide_not
    have hgives := gives_of_pred (i := .v2p d v) (f := fun s j => decide (s.rv j v.toNat ≠ 0))
      (fun _ _ => by simp only [learn_rv]) rfl h
    simpa only [hne] using hgives
  case vbal =>
    exact gives_of_putS2 (f := fun s => maskOf (fun i => s.unit.mask.getLsbD i && s.rp i a.toNat) s.pre.width)
      (fun _ => by simp only [learn_unit, learn_rp, learn_pre]) rfl h
  case vcnt =>
    exact gives_of_putS (f := fun s => BitVec.ofNat 32 (s.acts.filter (fun j => s.rp j a.toNat)).length)
      (fun _ => by simp only [learn_acts, learn_rp]) rfl h

end Sys2Proof.Machine
end

section
/-!
O24: branches and indirect transfers (R127 to R131, R37).
-/

namespace Sys2Proof.Machine

-- One theorem at a time: its proof is checked, and its memory free, before the next begins.
set_option Elab.async false

/-! ### States that differ in the group of the unit and in the account of the unit -/

theorem OnlyGroup.groupAlone {s t : State} (h : OnlyGroup s t) : GroupAlone s t where
  others := h.others
  memory := h.memory
  rest := h.rest.trans (by rw [h.rest])
  mine := h.g_eq

theorem GroupAlone.onMe {s t : State} (h : GroupAlone s t) (f : Group → Group) : GroupAlone s (t.onMe f) where
  others j hj := by rw [State.grp_onMe_other _ (by rw [h.mine]; exact hj)]; exact h.others j hj
  memory a := h.memory a
  rest := congrArg (fun u : State => { u with groups := (t.onMe f).groups }) h.rest
  mine := h.mine

theorem GroupAlone.withUnit {s t : State} (h : GroupAlone s t) (u : UnitCtx) (hu : u.g = s.unit.g) : GroupAlone s { t with unit := u } where
  others := h.others
  memory := h.memory
  rest := congrArg (fun x : State => { x with unit := u }) h.rest
  mine := hu

theorem GroupAlone.moveLanes {s t : State} (h : GroupAlone s t) (dest : Nat → Option Word) : GroupAlone s (t.moveLanes dest) :=
  (h.onMe _).withUnit _ h.mine

/-! ### Moving the lanes -/

/-- The group once its ACTIVE lanes have moved (R127). -/
theorem moveLanes_me (s : State) (dest : Nat → Option Word) :
    (s.moveLanes dest).me = s.me.onLanes s.unit.mask (fun i l => { l with lpc := (dest i).getD s.unit.next }) :=
  s.me_onMe (fun g => g.onLanes s.unit.mask (fun i l => { l with lpc := (dest i).getD s.unit.next }))

/-- A cause kept for the unit's end leaves the group. -/
theorem addAfter_me (s : State) (c : Cause) : (s.addAfter c).me = s.me := rfl

/-- A transfer of control is told by what becomes of the group. -/
theorem moves_of_me {i : Instr} {s t : State} {dest : Nat → Word} {divv : Bool} {after : List Cause} (hx : exec i s = .next t)
    (halone : GroupAlone s t) (hunit : t.unit = { s.unit with moved := true, after := after })
    (hme : t.me = { s.me.onLanes s.unit.mask (fun j l => { l with lpc := dest j }) with csr := { s.me.csr with divv := divv } }) :
    Moves i s dest divv after := by
  refine ⟨t, hx, halone, hunit, fun j hj => ?_, ?_⟩
  · rw [hme]
    exact s.me.lane_onLanes _ _ hj
  · rw [hme]
    rfl

theorem groupAlone_refl (s : State) : GroupAlone s s := ⟨fun _ _ => rfl, fun _ => rfl, rfl, rfl⟩

/-- An instruction that moves its lanes and does nothing else. -/
theorem moves_of_moveLanes {i : Instr} {s : State} {dest : Nat → Option Word} (hx : exec i s = .next (s.moveLanes dest)) :
    Moves i s (fun j => (dest j).getD s.unit.next) s.me.csr.divv s.unit.after :=
  moves_of_me hx ((groupAlone_refl s).moveLanes dest) rfl (moveLanes_me s dest)

/-- A member that names no scalar source takes effect on the state as it is. -/
theorem answer_of_noScalars {x : Answer} {n : Need} {chk : State → Nat → Option Cause} {la : Nat} {eff : State → State} {s : State}
    (hx : x = issue n chk la eff s) (hss : n.ss = []) (h : s.clear n chk = true) : x = .next (eff s) := by
  rw [hx, issue_clear h, hss, show expand [] = [] from rfl, learn_nil]

/-! ### Branches -/

/-- A branch to a packet that is not below 0 passes its check (R37). -/
theorem branch_of_nonneg {s : State} {off : Off21} (ht : 0 ≤ s.targetPkt off) (takes : State → Nat → Bool) (after : State → State) :
    branch off takes after s
      = .next (after (s.moveLanes (fun i => if takes s i then some (lpcAt (s.targetPkt off).toNat 0) else none))) := by
  have hcheck : ∀ i, branchCheck off takes s i = none := fun i => by simp [branchCheck, Int.not_lt.2 ht]
  exact answer_of_noScalars (eff := fun s =>
    after (s.moveLanes (fun i => if takes s i then some (lpcAt (s.targetPkt off).toNat 0) else none))) rfl rfl (clear_of_checks (clear_nothing s) fun i _ => hcheck i)

theorem ite_getD {c : Bool} {x y : Word} : (if c then some x else none).getD y = if c then x else y := by cases c <;> rfl

/-- Where the lanes agree, BRU is the branch alone; otherwise it sets DIVV, and keeps UNIFORMITY where TRAPCTL asks for it (R128). -/
theorem diverged_nil {s : State} {neg : Bool} {p : Pred} (h : s.differing neg p = []) : s.diverged neg p = s := by
  rw [State.diverged, h]

theorem diverged_untrapped {s : State} {neg : Bool} {p : Pred} (h : s.differing neg p ≠ [])
    (htrap : s.pre.csr.trapctl.getLsbD 4 = false) :
    s.diverged neg p = s.onMe (fun g => { g with csr := { g.csr with divv := true } }) := by
  obtain ⟨j, js, hj⟩ := List.exists_cons_of_ne_nil h
  rw [State.diverged, hj]
  simp only [htrap, Bool.false_eq_true, if_false]

theorem diverged_trapped {s : State} {neg : Bool} {p : Pred} {j : Nat} {js : List Nat} (h : s.differing neg p = j :: js)
    (htrap : s.pre.csr.trapctl.getLsbD 4 = true) :
    s.diverged neg p = (s.onMe (fun g => { g with csr := { g.csr with divv := true } })).addAfter
      (s.afterCause 0x03 s.unit.addr 0 (minOf j (s.differing neg p))) := by
  rw [State.diverged, h]
  simp only [htrap, if_true]

/-- BRU before it looks at the other lanes. -/
theorem exec_bru {s : State} {neg : Bool} {p : Pred} {off : Off21} (ht : 0 ≤ s.targetPkt off) :
    exec (.bru neg p off) s = .next ((s.moveLanes (fun _ =>
      if s.cond neg p s.lead then some (lpcAt (s.targetPkt off).toNat 0) else none)).diverged neg p) :=
  branch_of_nonneg ht (fun s _ => s.cond neg p s.lead) (fun s => s.diverged neg p)

/-! ### CALLV -/

theorem orFlags_zero (ls : List Nat) : orFlags (fun _ => 0) ls = 0 := by
  induction ls with
  | nil => rfl
  | cons x ls ih => simpa only [orFlags, List.foldl_cons, BitVec.or_self] using ih

/-- A vector result at once, of one word and without flags: what registers hold, and what stays. -/
theorem LaneResult.word_noFlags {s t : State} {d : Nat} {f : Nat → Word}
    (h : LaneResult s t 0 d 1 (fun j _ => f j) (fun _ => 0)) :
    (∀ j ∈ s.acts, t.me.getV j d = f j) ∧
    (∀ j r, r < 128 → ¬(j ∈ s.acts ∧ r = d) → t.me.getV j r = s.me.getV j r) ∧
    t.me.p = s.me.p ∧ t.me.s = s.me.s ∧ t.me.csr = s.me.csr ∧ t.me.lanes = s.me.lanes := by
  obtain ⟨hwritten, hkept, hflags⟩ := h.now rfl
  have hcsr : t.me.csr = s.me.csr := by
    have hsame : t.me.csr.flags = s.me.csr.flags := by rw [hflags, orFlags_zero]; exact BitVec.or_zero
    rw [h.group]
    exact congrArg (fun fl => { s.me.csr with flags := fl }) hsame
  refine ⟨fun j hj => hwritten j hj 0 Nat.one_pos, fun j r hr hno => ?_, ?_, ?_, hcsr, ?_⟩
  · exact hkept j r hr fun ⟨hj, hd, hlt⟩ => hno ⟨hj, by omega⟩
  · rw [h.group]
  · rw [h.group]
  · rw [h.group]

/-- CALLV moves its lanes and leaves the return address in D (R130). -/
theorem callv_moves {s : State} {d a : Reg} (h : s.clear (need2 d.toNat a.toNat) (jumpCheck a) = true) :
    ∃ t, exec (.callv d a) s = .next t ∧ GroupAlone s t ∧ t.unit.moved = true ∧
      (∀ j, j < s.me.lanes.length →
        t.me.lane j = if s.unit.mask.getLsbD j then { s.me.lane j with lpc := s.rv j a.toNat } else s.me.lane j) ∧
      (∀ j ∈ s.acts, t.me.getV j d.toNat = s.unit.next) ∧
      (∀ j r, r < 128 → ¬(j ∈ s.acts ∧ r = d.toNat) → t.me.getV j r = s.me.getV j r) ∧
      t.me.p = s.me.p ∧ t.me.s = s.me.s ∧ t.me.csr = s.me.csr := by
  let u := s.vecResult 0 d.toNat (fun _ => [s.unit.next]) (fun _ => 0)
  have hx : exec (.callv d a) s = .next (u.jump a) :=
    answer_of_noScalars (eff := fun s => (s.vecResult 0 d.toNat (fun _ => [s.unit.next]) (fun _ => 0)).jump a) rfl rfl h
  have hres := vecResult_spec s [] 0 d.toNat 1 (fun _ => [s.unit.next]) (fun _ => 0) (fun _ _ => rfl) (reg_lt d)
  rw [learn_nil] at hres
  have hword := hres.congr (f' := fun _ _ => s.unit.next) fun _ _ hk => nth_single hk
  have hunit : u.unit = { s.unit with after := u.unit.after } := congrArg State.unit hres.only.rest
  obtain ⟨hgiven, hkept, hp, hs, hcsr, hlanes⟩ := hword.word_noFlags
  have hme : (u.jump a).me = u.me.onLanes s.unit.mask (fun j l => { l with lpc := s.rv j a.toNat }) := by
    have hpre : u.pre = s.pre := by rw [State.pre, hunit]; rfl
    have hmask : u.unit.mask = s.unit.mask := by rw [hunit]
    rw [show s.rv = s.pre.getV from rfl, ← hpre, ← hmask]
    exact moveLanes_me u _
  refine ⟨_, hx, hres.only.groupAlone.moveLanes _, rfl, fun j hj => ?_, ?_⟩
  · rw [hme, u.me.lane_onLanes _ _ (hlanes ▸ hj), Group.lane, hlanes]
    rfl
  · rw [hme]
    show (∀ j ∈ s.acts, u.me.getV j d.toNat = _) ∧ (∀ j r, _ → _ → u.me.getV j r = _) ∧ u.me.p = _ ∧ u.me.s = _ ∧ u.me.csr = _
    exact ⟨hgiven, hkept, hp, hs, hcsr⟩

/-- Settles O24: the branches by `branch_of_nonneg`, BRU by whether its lanes agree, the indirect transfers by their one move. -/
theorem branches : Obligations.Branches := by
  intro s neg p off d a T N c differ
  let D := fun i => if s.cond neg p i then some T else none
  have hD : ∀ i, (D i).getD N = if c i then T else N := fun _ => ite_getD
  have hlow : (s.moveLanes (fun _ => D s.lead)).me = s.me.onLanes s.unit.mask (fun _ l => { l with lpc := if c s.lead then T else N }) :=
    (moveLanes_me s _).trans (by rw [hD])
  refine ⟨fun ht => ⟨?bra, ?brx, fun hd => ?agree, fun hd htrap => ?differ, fun j js hd htrap => ?trap⟩,
    fun h => ⟨?jmpv, ?ret⟩, fun h => ?callv⟩
  case bra => exact moves_of_moveLanes (dest := fun _ => some T) (branch_of_nonneg ht (fun _ _ => true) id)
  case brx =>
    have hmoves := moves_of_moveLanes (i := .brx neg p off) (dest := D) (branch_of_nonneg ht (fun s i => s.cond neg p i) id)
    rwa [funext hD] at hmoves
  case agree =>
    have hx := (exec_bru (p := p) (neg := neg) ht).trans (congrArg _ (diverged_nil hd))
    have hmoves := moves_of_moveLanes (dest := fun _ => D s.lead) hx
    rwa [hD] at hmoves
  case differ =>
    have hx := (exec_bru (p := p) (neg := neg) ht).trans (congrArg _ (diverged_untrapped hd htrap))
    refine moves_of_me hx (((groupAlone_refl s).moveLanes _).onMe _) rfl ?_
    rw [State.me_onMe]
    exact congrArg (fun g : Group => { g with csr := { g.csr with divv := true } }) hlow
  case trap =>
    have hx := (exec_bru (p := p) (neg := neg) ht).trans (congrArg _ (diverged_trapped hd htrap))
    refine moves_of_me hx ((((groupAlone_refl s).moveLanes _).onMe _).withUnit _ rfl) rfl ?_
    rw [addAfter_me, State.me_onMe]
    exact congrArg (fun g : Group => { g with csr := { g.csr with divv := true } }) hlow
  case jmpv => exact moves_of_moveLanes (dest := fun j => some (s.rv j a.toNat)) (answer_of_noScalars (x := exec (.jmpv a) s) (eff := fun s => s.jump a) rfl rfl h)
  case ret => exact moves_of_moveLanes (dest := fun j => some (s.rv j a.toNat)) (answer_of_noScalars (x := exec (.ret a) s) (eff := fun s => s.jump a) rfl rfl h)
  case callv => exact callv_moves h

end Sys2Proof.Machine
end

section
/-!
O26: the SYS functions that wait, trap, and read or clear the flags and the clock (R138, R140, R257, R260).
-/

namespace Sys2Proof.Machine

-- One theorem at a time: its proof is checked, and its memory free, before the next begins.
set_option Elab.async false

theorem onlyGroup_refl (s : State) : OnlyGroup s s := ⟨fun _ _ => rfl, fun _ => rfl, rfl⟩

/-- An instruction that changes its group alone makes it what it has become. -/
theorem makesGroup_of_me {i : Instr} {s t : State} {g : Group} (hx : exec i s = .next t) (honly : OnlyGroup s t)
    (hunit : t.unit = s.unit) (hme : t.me = g) : MakesGroup i s g := by
  subst hme
  exact ⟨t, hx, rfl, honly, hunit⟩

/-- A member that changes its group by `f` and names no scalar source. -/
theorem makesGroup_of_onMe {i : Instr} {s : State} {f : Group → Group} (hx : exec i s = .next (s.onMe f)) :
    MakesGroup i s (f s.me) :=
  makesGroup_of_me hx ((onlyGroup_refl s).onMe f) rfl (s.me_onMe f)

/-- Reading tokens' scalars adds to what the group knows, and does nothing else (R193). -/
theorem makesGroup_of_learn {i : Instr} {s : State} {rs : List Nat} (hx : exec i s = .next (s.learn rs)) : MakesGroup i s s.me :=
  ⟨_, hx, learn_me s rs, learn_only s rs, learn_unit s rs⟩

/-- What a group knows of completed commands does not matter to a change of when it sleeps. -/
theorem makesGroup_of_sleep {i : Instr} {s : State} {rs : List Nat} {until_ : Nat}
    (hx : exec i s = .next ((s.learn rs).onMe (fun g => { g with sleepTo := until_ }))) :
    MakesGroup i s { s.me with sleepTo := until_ } := by
  refine ⟨_, hx, ?_, (learn_only s rs).onMe _, learn_unit s rs⟩
  rw [State.me_onMe, learn_me]
  rfl

@[simp] theorem learn_now (s : State) (rs : List Nat) : (s.learn rs).now = s.now := by
  simp only [State.now, State.cycle, dieOf_unit, learn_die, learn_myTeam]

/-! ### YIELD -/

/-- A maximum over some entries of a list bounds its start and each of those entries. -/
theorem le_foldl_max {α : Type} (p : α → Bool) (f : α → Nat) (l : List α) (m : Nat) :
    m ≤ l.foldl (fun m e => if p e then max m (f e) else m) m ∧
    ∀ e ∈ l, p e = true → f e ≤ l.foldl (fun m e => if p e then max m (f e) else m) m := by
  induction l generalizing m with
  | nil => exact ⟨le_refl m, fun _ he => absurd he List.not_mem_nil⟩
  | cons x l ih =>
    obtain ⟨hstart, hmem⟩ := ih (if p x then max m (f x) else m)
    rw [List.foldl_cons]
    refine ⟨le_trans ?_ hstart, List.forall_mem_cons.2 ⟨fun hx => le_trans ?_ hstart, hmem⟩⟩
    · split
      · exact le_max_left _ _
      · exact le_refl m
    · rw [if_pos hx]
      exact le_max_right _ _

/-- No group of the unit's core and partition has a later stamp than the youngest. -/
theorem stamp_le_youngest (s : State) {e : Nat × Group} (he : e ∈ s.groups) (hcore : (s.team e.2.team).core = s.myTeam.core)
    (hpart : e.2.part = s.me.part) : e.2.stamp ≤ s.youngest := by
  refine (le_foldl_max (fun e : Nat × Group => decide ((s.team e.2.team).core = s.myTeam.core) && e.2.part == s.me.part)
    (fun e => e.2.stamp) s.groups s.now).2 e he ?_
  rw [decide_eq_true hcore, hpart]
  exact beq_self_eq_true _

/-- Settles O26: each function by its one change of the group. -/
theorem systemFunctions : Obligations.SystemFunctions := by
  intro s a d n m
  refine ⟨?nop, ?isync, fun h => ⟨fun h0 => ?sleepNot, fun h0 => ?sleep⟩, ?yield, ?trap, fun h => ?flagrd, ?flagclr, fun h => ?clock⟩
  case nop => exact issue_nothing 0 id s
  case isync =>
    exact makesGroup_of_onMe (i := .isync) (f := fun g => { g with ibuf := [] })
      (issue_nothing 0 (fun s => s.onMe (fun g => { g with ibuf := [] })) s)
  case sleepNot =>
    have hx : exec (.sleep a) s = _ := (show exec (.sleep a) s = execSleep a s from rfl).trans (issue_clear h)
    simp only [learn_rs, h0, if_true] at hx
    exact makesGroup_of_learn hx
  case sleep =>
    have hx : exec (.sleep a) s = _ := (show exec (.sleep a) s = execSleep a s from rfl).trans (issue_clear h)
    simp only [learn_rs, h0, if_false, learn_now] at hx
    exact makesGroup_of_sleep hx
  case yield =>
    refine ⟨s.youngest + 1, ?_, fun e he hcore hpart => Nat.lt_succ_of_le (stamp_le_youngest s he hcore hpart)⟩
    exact makesGroup_of_onMe (f := fun g => { g with stamp := s.youngest + 1 })
      (issue_nothing 0 (fun s => s.onMe (fun g => { g with stamp := s.youngest + 1 })) s)
  case trap =>
    exact ⟨_, issue_nothing 0 (fun s => s.addAfter (s.afterCause 0x12 (n.setWidth 32) 0 s.lead)) s, rfl, rfl⟩
  case flagrd =>
    have hx : exec (.flagrd d) s = .next (s.flagsSet.putS d.toNat (s.flagsSet.me.csr.flags.setWidth 32)) :=
      answer_of_noScalars (eff := fun s => s.flagsSet.putS d.toNat (s.flagsSet.me.csr.flags.setWidth 32)) rfl rfl h
    refine makesGroup_of_me hx (((onlyGroup_refl s).onMe _).onMe _) rfl ?_
    rw [State.putS, State.me_onMe, State.flagsSet, State.me_onMe]
  case flagclr =>
    have hx := issue_nothing 0
      (fun s => s.flagsSet.onMe (fun g => { g with csr := { g.csr with flags := g.csr.flags &&& ~~~m } })) s
    refine makesGroup_of_me hx (((onlyGroup_refl s).onMe _).onMe _) rfl ?_
    rw [State.me_onMe, State.flagsSet, State.me_onMe]
  case clock => exact gives_of_putS2 (f := fun s => BitVec.ofNat 64 s.now) (fun _ => by rw [learn_now]) rfl h

end Sys2Proof.Machine
end

section
/-!
O30: ICINV and TLBINV of a group with nothing outstanding (R137, R259).
-/

namespace Sys2Proof.Machine

-- One theorem at a time: its proof is checked, and its memory free, before the next begins.
set_option Elab.async false

/-! ### What a walk reads -/

/-- The tables, their marks, the dies and the roots are the same. -/
structure State.SameTables (s t : State) : Prop where
  mem : t.mem = s.mem
  marks : t.marks = s.marks
  dieA : t.dieA = s.dieA
  dieB : t.dieB = s.dieB
  dieC : t.dieC = s.dieC

namespace State.SameTables

variable {s t : State}

theorem natAt (h : s.SameTables t) (key n : Nat) : t.natAt key n = s.natAt key n := by
  induction n with
  | zero => rfl
  | succ n ih => simp only [State.natAt, State.byteAt, ih, h.mem]

theorem marked (h : s.SameTables t) (key : Nat) : t.marked key = s.marked key := by
  have hport : t.port (keyPort key) = s.port (keyPort key) := by simp only [State.port, h.dieC]
  have hdie : t.die (keyDie key) = s.die (keyDie key) := by simp only [State.die, h.dieA, h.dieB]
  have hfence : t.dieFence (keyDie key) = s.dieFence (keyDie key) := by simp only [State.dieFence, hdie]
  simp only [State.marked, hport, hfence, h.marks]

theorem walkFrom (h : s.SameTables t) (va fuel level : Nat) (up : Dword) : t.walkFrom va fuel level up = s.walkFrom va fuel level up := by
  induction fuel generalizing level up with
  | zero => rfl
  | succ fuel ih => simp only [State.walkFrom, h.natAt, h.marked, ih]

theorem walk (h : s.SameTables t) (space va : Nat) : t.walk space va = s.walk space va := by
  simp only [State.walk, h.dieC, h.walkFrom]

theorem keyOf (h : s.SameTables t) (space : Nat) (l : Leaf) (va : Nat) : t.keyOf space l va = s.keyOf space l va := by
  simp only [State.keyOf, State.rsOffset, h.dieC]

theorem mapped (h : s.SameTables t) (space va : Nat) : t.mapped space va = s.mapped space va := by
  simp only [State.mapped, h.walk, h.keyOf]

end State.SameTables

/-! ### What reading a token leaves alone -/

/-- Reading a token changes the groups alone. -/
theorem learn_eq (s : State) (rs : List Nat) : s.learn rs = { s with groups := (s.learn rs).groups } := by
  unfold State.learn; split <;> rfl

theorem learn_sameTables (s : State) (rs : List Nat) : s.SameTables (s.learn rs) := by
  rw [learn_eq]; exact ⟨rfl, rfl, rfl, rfl, rfl⟩

@[simp] theorem learn_tlb (s : State) (rs : List Nat) : (s.learn rs).tlb = s.tlb := by rw [learn_eq]

@[simp] theorem learn_mapped (s : State) (rs : List Nat) (space va : Nat) : (s.learn rs).mapped space va = s.mapped space va := by
  exact (learn_sameTables s rs).mapped space va

theorem learn_hold (s : State) (rs : List Nat) : (s.learn rs).me.hold = s.me.hold := by rw [learn_me]

theorem learn_spaceOf (s : State) (rs : List Nat) : (s.learn rs).spaceOf s.unit.g = s.spaceOf s.unit.g := by
  have hexec : (s.learn rs).exec = s.exec := by rw [learn_eq]; rfl
  have hteam : (s.learn rs).team ((s.learn rs).grp s.unit.g).team = s.myTeam := by
    simpa only [State.myTeam, State.me, learn_unit] using learn_myTeam s rs
  simp only [State.spaceOf, hteam, hexec]
  rfl

/-! ### A wait that has nothing to wait for -/

/-- A member that would hold the group takes effect at once where nothing is outstanding (R249). -/
theorem gate_free {s : State} {h : Hold} {free : Bool} {eff : State → State} (hme : s.me.hold = .none) (hpre : s.pre.hold = .none)
    (hfree : free = true) : s.gate h free eff = eff s := by
  have hpassed : s.passedAs h.kind = none := by simp only [State.passedAs, hme]
  simp only [State.gate, hpassed, hpre, hfree, Hold.waits, Bool.false_eq_true, if_false, if_true]

/-- So does an instruction whose member that is. -/
theorem exec_of_gate {x : Answer} {s : State} {n : Need} {h : State → Hold} {eff : State → State → State}
    (hx : x = issue n noCheck 0 (fun s => s.gate (h s) (!s.pre.unacked .pkg) (eff s)) s) (hclear : s.clear n noCheck = true)
    (hme : s.me.hold = .none) (hpre : s.pre.hold = .none) (hacked : s.pre.unacked .pkg = false) :
    x = .next (eff (s.learn (expand n.ss)) (s.learn (expand n.ss))) := by
  have hfree : (!(s.learn (expand n.ss)).pre.unacked .pkg) = true := by rw [learn_pre, hacked]; rfl
  rw [hx, issue_clear hclear, gate_free (by rw [learn_hold, hme]) (by rw [learn_pre, hpre]) hfree]

/-! ### What is removed -/

/-- An empty range invalidates nothing; otherwise the words of its mapped lines leave every instruction cache (R137). -/
theorem icinvOf_nil {s : State} {k lo hi : Nat} (h : hi ≤ lo) : s.icinvOf k lo hi = s := if_pos h

theorem icinvOf_icache {s : State} {k lo hi : Nat} (h : lo < hi) (c : Nat) :
    ((s.icinvOf k lo hi).core c).icache = (s.core c).icache.filter (fun w =>
      !((List.range ((hi - lo) / 128)).filterMap (fun j => s.mapped (s.spaceOf k) (lo + 128 * j))).any (fun l => l / 128 == w.1 / 32)) := by
  rw [State.icinvOf, if_neg (Nat.not_le.2 h)]
  simp only [State.core, State.icInvalidate, ffind_fmapVals]
  cases ffind s.cores c <;> rfl

/-- ICINV changes the instruction caches alone. -/
theorem icinvOf_eq (s : State) (k lo hi : Nat) : s.icinvOf k lo hi = { s with cores := (s.icinvOf k lo hi).cores } := by
  unfold State.icinvOf; split <;> rfl

/-- The cached translations of the space, and global ones, that meet a range are removed (R259). -/
theorem tlbinvOf_range (s : State) (k lo hi : Nat) : (s.tlbinvOf k (some (lo, hi))).tlb =
    s.tlb.filter (fun c => !((c.space == s.spaceOf k || pteG c.leaf) && (decide (c.va < hi) && decide (lo < c.va + c.size)))) := rfl

theorem tlbinvOf_all (s : State) (k : Nat) :
    (s.tlbinvOf k none).tlb = s.tlb.filter (fun c => !(c.space == s.spaceOf k || pteG c.leaf)) := by
  simp only [State.tlbinvOf, State.invalidate, Bool.and_true]

section
variable {s : State} {a e : Reg}

/-- The range that ICINV and TLBINV name, rounded out to a granule: none for a length of 0. -/
def State.rangeOf (s : State) (gran : Nat) (a e : Reg) : Nat × Nat :=
  if (s.rs e.toNat).toNat = 0 then (0, 0) else roundOut gran (s.rs2 a.toNat).toNat (s.rs e.toNat).toNat

@[simp] theorem learn_rangeOf (s : State) (rs : List Nat) (gran : Nat) (a e : Reg) : (s.learn rs).rangeOf gran a e = s.rangeOf gran a e := by
  simp only [State.rangeOf, learn_rs, learn_rs2]

variable (hme : s.me.hold = .none) (hpre : s.pre.hold = .none) (hacked : s.pre.unacked .pkg = false)
include hme hpre hacked

theorem exec_icinv (hclear : s.clear (scalarNeed [(a.toNat, 2), (e.toNat, 1)] []) noCheck = true) :
    ∃ u, (∃ rs, u = s.learn rs) ∧ exec (.icinv a e) s = .next (u.icinvOf s.unit.g (s.rangeOf 128 a e).1 (s.rangeOf 128 a e).2) := by
  have hx := exec_of_gate (x := exec (.icinv a e) s) (h := fun s => .icinv (s.rangeOf 128 a e).1 (s.rangeOf 128 a e).2)
    (eff := fun s t => t.icinvOf t.unit.g (s.rangeOf 128 a e).1 (s.rangeOf 128 a e).2) rfl hclear hme hpre hacked
  simp only [learn_rangeOf, learn_unit] at hx
  exact ⟨_, ⟨_, rfl⟩, hx⟩

theorem exec_tlbinv (hsup : s.pre.csr.sup = true) (hclear : s.clear (scalarNeed [(a.toNat, 2), (e.toNat, 1)] []) noCheck = true) :
    ∃ u, (∃ rs, u = s.learn rs) ∧ exec (.tlbinv a e) s = .next (u.tlbinvOf s.unit.g (some (s.rangeOf 4096 a e))) := by
  have hx := exec_of_gate (x := exec (.tlbinv a e) s) (h := fun s => .tlbinv (some (s.rangeOf 4096 a e)))
    (eff := fun s t => t.tlbinvOf t.unit.g (some (s.rangeOf 4096 a e))) (if_pos hsup) hclear hme hpre hacked
  simp only [learn_rangeOf, learn_unit] at hx
  exact ⟨_, ⟨_, rfl⟩, hx⟩

theorem exec_tlbinvAll (hsup : s.pre.csr.sup = true) : exec .tlbinvAll s = .next (s.tlbinvOf s.unit.g none) := by
  have hx := exec_of_gate (x := exec .tlbinvAll s) (h := fun _ => .tlbinv none) (eff := fun _ t => t.tlbinvOf t.unit.g none)
    (if_pos hsup) (clear_nothing s) hme hpre hacked
  rwa [show expand (scalarNeed [] []).ss = [] from rfl, learn_nil] at hx

end

/-- Settles O30: each invalidation takes effect at once by `exec_of_gate`. -/
theorem invalidations : Obligations.Invalidations := by
  intro s a e hme hpre hacked n base space
  refine fun hclear => ⟨?icinv, fun hsup => ?tlbinv, fun hsup => ?all⟩
  case icinv =>
    obtain ⟨_, ⟨rs, rfl⟩, hx⟩ := exec_icinv hme hpre hacked hclear
    have heq := icinvOf_eq (s.learn rs) s.unit.g (s.rangeOf 128 a e).1 (s.rangeOf 128 a e).2
    refine ⟨_, hx, ?_, fun x => ?_, ?_, fun h0 c => ?_, fun h0 c => ?_⟩
    · rw [heq]
      exact learn_me s rs
    · rw [heq]
      exact (learn_only s rs).memory x
    · rw [heq]
      exact learn_tlb s rs
    · rw [State.rangeOf, if_pos h0, icinvOf_nil le_rfl, learn_core]
    · have hlt : base / 128 * 128 < (base + n + 127) / 128 * 128 := by omega
      have hr : s.rangeOf 128 a e = (base / 128 * 128, (base + n + 127) / 128 * 128) := if_neg h0.ne'
      simp only [hr, icinvOf_icache hlt, learn_core, learn_mapped, learn_spaceOf]
      rfl
  case tlbinv =>
    obtain ⟨_, ⟨rs, rfl⟩, hx⟩ := exec_tlbinv hme hpre hacked hsup hclear
    refine ⟨_, hx, learn_me s rs, (learn_only s rs).memory, ?_⟩
    by_cases h0 : n = 0
    · rw [State.rangeOf, if_pos h0, tlbinvOf_range, learn_spaceOf, learn_tlb, if_pos h0, if_pos h0]
    · have hr : s.rangeOf 4096 a e = (base / 4096 * 4096, (base + n + 4095) / 4096 * 4096) := if_neg h0
      rw [hr, tlbinvOf_range, learn_spaceOf, learn_tlb, if_neg h0, if_neg h0]
  case all =>
    exact ⟨_, exec_tlbinvAll hme hpre hacked hsup, rfl, fun _ => rfl, tlbinvOf_all s s.unit.g⟩

end Sys2Proof.Machine
end

section
/-!
Floors, publications and renewals (R300 to R302): what each of them raises, and what it leaves alone.
-/

namespace Sys2Proof.Machine

-- One theorem at a time: its proof is checked, and its memory free, before the next begins.
set_option Elab.async false

/-! ### Floors -/

theorem fget_raise (f : Floors) (p q n : Nat) : fget 0 (f.raise p n) q = if q = p then max (fget 0 f p) n else fget 0 f q :=
  fget_fset 0 f p q _

theorem le_raise (f : Floors) (p q n : Nat) : fget 0 f q ≤ fget 0 (f.raise p n) q := by
  rw [fget_raise]
  split
  · subst_vars; exact le_max_left _ _
  · exact le_rfl

theorem le_raise_same (f : Floors) (p n : Nat) : n ≤ fget 0 (f.raise p n) p := by
  rw [fget_raise, if_pos rfl]
  exact le_max_right _ _

section
variable {α : Type} {step : Floors → α → Floors} (hstep : ∀ f e p, fget 0 f p ≤ fget 0 (step f e) p)
include hstep

/-- A chain of steps that lower no floor lowers none. -/
theorem le_foldl_floors (l : List α) (f : Floors) (p : Nat) : fget 0 f p ≤ fget 0 (l.foldl step f) p := by
  induction l generalizing f with
  | nil => exact le_rfl
  | cons e l ih => exact (hstep f e p).trans (ih _)

/-- What one of its steps raises a floor to stays. -/
theorem le_foldl_floors_of_mem {l : List α} {e : α} (he : e ∈ l) {n p : Nat} (hn : ∀ f, n ≤ fget 0 (step f e) p) (f : Floors) :
    n ≤ fget 0 (l.foldl step f) p := by
  induction l generalizing f with
  | nil => exact absurd he List.not_mem_nil
  | cons x l ih =>
    rcases List.mem_cons.1 he with rfl | h
    · exact (hn f).trans (le_foldl_floors hstep l _ p)
    · exact ih h _

end

theorem le_join_left (f g : Floors) (p : Nat) : fget 0 f p ≤ fget 0 (f.join g) p :=
  le_foldl_floors (fun f (q : Nat × Nat) p => le_raise f q.1 p q.2) g f p

theorem le_join_of_mem (f : Floors) {g : Floors} {q : Nat × Nat} (hq : q ∈ g) : q.2 ≤ fget 0 (f.join g) q.1 :=
  le_foldl_floors_of_mem (fun f (q : Nat × Nat) p => le_raise f q.1 p q.2) hq (fun f => le_raise_same f q.1 q.2) f

/-- A floor that is not 0 is listed. -/
theorem fget_mem_or_zero (g : Floors) (p : Nat) : (p, fget 0 g p) ∈ g ∨ fget 0 g p = 0 := by
  induction g with
  | nil => exact .inr rfl
  | cons e g ih =>
    obtain ⟨k, v⟩ := e
    by_cases h : p = k
    · subst h; simp [fget]
    · simp only [fget, if_neg h]
      exact ih.imp_left (List.mem_cons_of_mem _)

theorem le_join_right (f g : Floors) (p : Nat) : fget 0 g p ≤ fget 0 (f.join g) p := by
  rcases fget_mem_or_zero g p with h | h
  · exact le_join_of_mem f h
  · rw [h]; exact Nat.zero_le _

/-! ### Publications of a part -/

/-- Each publication of the first list is made by one of the second, which reaches as far. -/
def PubsKept (l m : List Pub) : Prop := ∀ q ∈ l, ∃ r ∈ m, r.owner = q.owner ∧ r.reach = q.reach ∧ q.upTo ≤ r.upTo

theorem PubsKept.refl (l : List Pub) : PubsKept l l := fun q hq => ⟨q, hq, rfl, rfl, le_rfl⟩

theorem PubsKept.trans {l m n : List Pub} (h : PubsKept l m) (h' : PubsKept m n) : PubsKept l n := fun q hq => by
  obtain ⟨r, hr, ho, hw, hle⟩ := h q hq
  obtain ⟨u, hu, ho', hw', hle'⟩ := h' r hr
  exact ⟨u, hu, ho'.trans ho, hw'.trans hw, hle.trans hle'⟩

theorem addPub_kept (q : Pub) (l : List Pub) : PubsKept l (addPub q l) := by
  induction l with
  | nil => exact fun r hr => absurd hr List.not_mem_nil
  | cons x l ih =>
    intro r hr
    rw [addPub]
    split
    · rcases List.mem_cons.1 hr with rfl | h
      · exact ⟨_, List.mem_cons_self, rfl, rfl, le_max_left _ _⟩
      · exact ⟨r, List.mem_cons_of_mem _ h, rfl, rfl, le_rfl⟩
    · rcases List.mem_cons.1 hr with rfl | h
      · exact ⟨r, List.mem_cons_self, rfl, rfl, le_rfl⟩
      · obtain ⟨u, hu, h⟩ := ih r h
        exact ⟨u, List.mem_cons_of_mem _ hu, h⟩

/-- An entry of a map is still there once a key is set, or it was the entry of that key. -/
theorem mem_fins_of_mem {α : Type} {m : FMap α} {e : Nat × α} (he : e ∈ m) (i : Nat) (x : α) :
    e ∈ fins m i x ∨ (e.1 = i ∧ ffind m i = some e.2 ∧ (i, x) ∈ fins m i x) := by
  induction m with
  | nil => exact absurd he List.not_mem_nil
  | cons y m ih =>
    obtain ⟨k, v⟩ := y
    simp only [fins, ffind]
    by_cases hk : i = k
    · rw [if_pos hk, if_pos hk]
      rcases List.mem_cons.1 he with rfl | h
      · exact .inr ⟨hk.symm, rfl, List.mem_cons_self⟩
      · exact .inl (List.mem_cons_of_mem _ h)
    · rw [if_neg hk, if_neg hk]
      split
      · exact .inl (List.mem_cons_of_mem _ he)
      · rcases List.mem_cons.1 he with rfl | h
        · exact .inl List.mem_cons_self
        · exact (ih h).imp (List.mem_cons_of_mem _) fun ⟨h1, h2, h3⟩ => ⟨h1, h2, List.mem_cons_of_mem _ h3⟩

/-! ### Publishing -/

/-- Nothing but publications has been added: no version, and nothing elsewhere. -/
structure State.PublishesTo (s t : State) : Prop where
  eq : t = { s with parts := t.parts }
  versions : ∀ p, (t.part p).versions = (s.part p).versions
  kept : ∀ e ∈ s.parts, ∃ d ∈ t.parts, d.1 = e.1 ∧ PubsKept e.2.pubs d.2.pubs

theorem State.PublishesTo.refl (s : State) : s.PublishesTo s := ⟨rfl, fun _ => rfl, fun e he => ⟨e, he, rfl, .refl _⟩⟩

theorem State.PublishesTo.trans {s t u : State} (h : s.PublishesTo t) (h' : t.PublishesTo u) : s.PublishesTo u where
  eq := h'.eq.trans (congrArg (fun x : State => { x with parts := u.parts }) h.eq)
  versions p := (h'.versions p).trans (h.versions p)
  kept e he := by
    obtain ⟨d, hd, hk, hp⟩ := h.kept e he
    obtain ⟨c, hc, hk', hp'⟩ := h'.kept d hd
    exact ⟨c, hc, hk'.trans hk, hp.trans hp'⟩

theorem part_versions (s : State) (p : Nat) : (s.part p).versions = ((ffind s.parts p).map Part.versions).getD [] := by
  unfold State.part
  cases ffind s.parts p <;> rfl

/-- One publication of a part. -/
theorem State.publishesTo_addPub (s : State) (p : Nat) (q : Pub) :
    s.PublishesTo { s with parts := fins s.parts p { s.part p with pubs := addPub q (s.part p).pubs } } where
  eq := rfl
  versions r := by
    rw [part_versions, part_versions s]
    by_cases hr : r = p
    · subst hr
      rw [ffind_fins_same, ← part_versions s r]
      rfl
    · rw [ffind_fins_other s.parts hr]
  kept e he := by
    rcases mem_fins_of_mem he p { s.part p with pubs := addPub q (s.part p).pubs } with h | ⟨hk, hfind, h⟩
    · exact ⟨e, h, rfl, .refl _⟩
    · have hpart : s.part p = e.2 := by rw [State.part, hfind]; rfl
      exact ⟨_, h, hk.symm, hpart ▸ addPub_kept q _⟩

theorem State.publish_publishesTo (s : State) (a : Agent) (r : Reach) (f : Floors) : s.PublishesTo (s.publish a r f) := by
  unfold State.publish
  generalize f.foldl (fun g e => Floors.join g (s.whole e.1 e.2)) ([] : Floors) = l
  induction l generalizing s with
  | nil => exact .refl s
  | cons e l ih => exact (s.publishesTo_addPub e.1 ⟨e.2, a, r⟩).trans (ih _)

/-! ### Renewing -/

/-- The floors of a renewal, for device or for host memory (R302, R315). -/
def State.renewFloors (s : State) (k : Nat) (sc : Scope) (host : Bool) (f : Floors) : Floors :=
  s.parts.foldl (fun f e => if isHost (8 * e.1) == host then Floors.raise f e.1 (s.renewed k sc e.2) else f) f

theorem le_renewStep (s : State) (k : Nat) (sc : Scope) (host : Bool) (f : Floors) (e : Nat × Part) (p : Nat) :
    fget 0 f p ≤ fget 0 (if isHost (8 * e.1) == host then Floors.raise f e.1 (s.renewed k sc e.2) else f) p := by
  split
  · exact le_raise f e.1 p _
  · exact le_rfl

theorem le_renewFloors (s : State) (k : Nat) (sc : Scope) (host : Bool) (f : Floors) (p : Nat) :
    fget 0 f p ≤ fget 0 (s.renewFloors k sc host f) p :=
  le_foldl_floors (le_renewStep s k sc host) s.parts f p

theorem renewed_le_renewFloors {s : State} {k : Nat} {sc : Scope} {host : Bool} {e : Nat × Part} (he : e ∈ s.parts)
    (hhost : isHost (8 * e.1) = host) (f : Floors) : s.renewed k sc e.2 ≤ fget 0 (s.renewFloors k sc host f) e.1 :=
  le_foldl_floors_of_mem (le_renewStep s k sc host) he (fun f => by rw [hhost, beq_self_eq_true, if_pos rfl]; exact le_raise_same ..) f

/-- A group after a renewal: its floors of device memory are raised, and its floors of host memory or, below system scope, those for
pages that are not write-back (R315). -/
theorem renew_grp (s : State) (k : Nat) (sc : Scope) : (s.renew k sc).grp k =
    { s.grp k with
      low := if sc = .sys then s.renewFloors k sc true (s.renewFloors k sc false (s.grp k).low) else s.renewFloors k sc false (s.grp k).low
      lowThrough := if sc = .sys then (s.grp k).lowThrough else s.renewFloors k sc true (s.grp k).lowThrough } := by
  refine (State.grp_setGrp_same s k _).trans ?_
  split <;> rfl

theorem renew_eq (s : State) (k : Nat) (sc : Scope) : s.renew k sc = { s with groups := (s.renew k sc).groups } := rfl

theorem low_le_renew (s : State) (k : Nat) (sc : Scope) (p : Nat) : fget 0 (s.grp k).low p ≤ fget 0 ((s.renew k sc).grp k).low p := by
  have hdevice := le_renewFloors s k sc false (s.grp k).low p
  rw [renew_grp]
  by_cases h : sc = .sys
  · simp only [if_pos h]
    exact hdevice.trans (le_renewFloors ..)
  · simpa only [if_neg h] using hdevice

/-- What a renewal at a scope reaches of a part is a floor of the group afterwards (R302). -/
theorem renewed_le_low {s : State} {k : Nat} {sc : Scope} {e : Nat × Part} (he : e ∈ s.parts) (hsc : isHost (8 * e.1) = true → sc = .sys) :
    s.renewed k sc e.2 ≤ fget 0 ((s.renew k sc).grp k).low e.1 := by
  rw [renew_grp]
  cases hhost : isHost (8 * e.1) with
  | true =>
    simp only [if_pos (hsc hhost)]
    exact renewed_le_renewFloors he hhost _
  | false =>
    have hdevice := renewed_le_renewFloors (k := k) (sc := sc) he hhost (s.grp k).low
    by_cases h : sc = .sys
    · simp only [if_pos h]
      exact hdevice.trans (le_renewFloors ..)
    · simpa only [if_neg h] using hdevice

theorem renewed_le_lowThrough {s : State} {k : Nat} {sc : Scope} {e : Nat × Part} (he : e ∈ s.parts) (hhost : isHost (8 * e.1) = true)
    (hsc : sc ≠ .sys) : s.renewed k sc e.2 ≤ fget 0 ((s.renew k sc).grp k).lowThrough e.1 := by
  rw [renew_grp]
  simp only [if_neg hsc]
  exact renewed_le_renewFloors he hhost _

theorem le_maxOf {l : List Nat} {x : Nat} (hx : x ∈ l) (lo : Nat) : x ≤ maxOf lo l := by
  induction l with
  | nil => exact absurd hx List.not_mem_nil
  | cons y l ih =>
    rcases List.mem_cons.1 hx with rfl | h
    · exact le_max_left _ _
    · exact (ih h).trans (le_max_right _ _)

theorem upTo_le {x : Part} {q : Pub} {f : Pub → Bool} (hq : q ∈ x.pubs) (hf : f q = true) : q.upTo ≤ x.upTo f :=
  le_maxOf (List.mem_map_of_mem (List.mem_filter.2 ⟨hq, hf⟩)) 0

end Sys2Proof.Machine
end

section
/-!
O51: what the end of a wait leaves of the hold it ends (R137, R174, R193, R259, R273, R290, R310, R311, R313).
-/

namespace Sys2Proof.Machine

-- One theorem at a time: its proof is checked, and its memory free, before the next begins.
set_option Elab.async false

/-! ### The hold of a group, and the unit it holds -/

/-- A group's hold, and the address of the unit that is blocked. -/
def Group.held (g : Group) : Hold × Option Word := (g.hold, g.blocked.map Blocked.addr)

/-- The hold of a group that is there. -/
def State.heldAt (s : State) (k : Nat) : Option (Hold × Option Word) := (ffind s.groups k).map Group.held

theorem heldAt_of_groups {s t : State} (h : t.groups = s.groups) (k : Nat) : t.heldAt k = s.heldAt k := by rw [State.heldAt, h, State.heldAt]

theorem heldAt_of_runs {s : State} {k : Nat} (h : s.groupRuns k = true) : s.heldAt k = some (s.grp k).held := by
  obtain ⟨g, hg⟩ := State.groupRuns_find h
  rw [State.heldAt, State.grp, hg]
  rfl

theorem held_grp {s : State} {k : Nat} {x : Hold × Option Word} (h : s.heldAt k = some x) : (s.grp k).held = x := by
  obtain ⟨g, hg, rfl⟩ := Option.map_eq_some_iff.1 h
  rw [State.grp, hg]
  rfl

theorem heldAt_setGrp_same (s : State) (k : Nat) (g : Group) : (s.setGrp k g).heldAt k = some g.held := by
  rw [State.heldAt, State.setGrp_groups, ffind_fins_same]
  rfl

/-- A change of any group that keeps its hold. -/
theorem heldAt_setGrp {s : State} {k : Nat} {x : Hold × Option Word} (h : s.heldAt k = some x) (j : Nat) {g : Group}
    (hg : g.held = (s.grp j).held) : (s.setGrp j g).heldAt k = some x := by
  by_cases hj : k = j
  · subst hj
    rw [heldAt_setGrp_same, hg, held_grp h]
  · rw [State.heldAt, State.setGrp_groups, ffind_fins_other _ hj]
    exact h

/-- Waking the lanes that wait for some lines keeps every hold: it takes waits off a blocked unit, not the unit (R19). -/
theorem heldAt_wakeLines (s : State) (ls : List Nat) (k : Nat) : (s.wakeLines ls).heldAt k = s.heldAt k := by
  simp only [State.heldAt, State.wakeLines, State.mapGroups_groups, ffind_fmapVals, Option.map_map]
  congr 1
  funext g
  simp only [Function.comp_apply, Group.held, Group.wake, Option.map_map]
  rfl

theorem heldAt_applyAs (s : State) (whole : Bool) (a : Agent) (cs : List Host.Cell) (k : Nat) :
    (s.applyAs whole a cs).1.heldAt k = s.heldAt k := by
  unfold State.applyAs
  extract_lets eff olds s1 s2 s3 s4
  have hwritten : s3.groups = s.groups := (State.versions_groups whole a olds s1).trans (State.logRefused_groups s cs)
  exact (heldAt_of_groups (State.takeNumbers_groups _ _ (s4, 0)) k).trans
    ((heldAt_wakeLines s3 _ k).trans (heldAt_of_groups hwritten k))

theorem heldAt_walkerSets (s : State) (l : Leaf) (m : Byte) (k : Nat) : (s.walkerSets l m).heldAt k = s.heldAt k :=
  heldAt_applyAs s false _ _ k

theorem heldAt_touch (s : State) (space : Nat) (l : Leaf) (writes : Bool) (k : Nat) : (s.touch space l writes).heldAt k = s.heldAt k := by
  unfold State.touch
  extract_lets s1 s2
  have hA : s1.heldAt k = s.heldAt k := by
    unfold s1; split
    · rfl
    · exact heldAt_walkerSets s l _ k
  have hD : s2.heldAt k = s1.heldAt k := by
    unfold s2; split
    · exact heldAt_walkerSets s1 l _ k
    · rfl
  exact hD.trans hA

section
variable {s : State} {k : Nat} {x : Hold × Option Word} (h : s.heldAt k = some x)
include h

theorem heldAt_see (j p n : Nat) : (s.see j p n).heldAt k = some x := heldAt_setGrp h j rfl

theorem heldAt_loadRun (m : LoadMode) (va : Nat) (r : Leaf × Nat × Nat) (j : Nat) : (s.loadRun m va r j).1.heldAt k = some x := by
  unfold State.loadRun
  dsimp only
  split <;> exact heldAt_see h ..

theorem heldAt_landWords (j path : Nat) (waits : Bool) (ws : List Nat) : (s.landWords j path waits ws).heldAt k = some x := by
  unfold State.landWords
  dsimp only
  split
  · exact (heldAt_wakeLines _ _ k).trans h
  · exact h

end

theorem heldAt_loadRuns {k : Nat} {x : Hold × Option Word} (m : LoadMode) (va j : Nat) (rs : List (Leaf × Nat × Nat)) :
    ∀ {s : State}, s.heldAt k = some x → (s.loadRuns m va j rs).1.heldAt k = some x := by
  induction rs generalizing j with
  | nil => exact fun h => h
  | cons r rs ih => exact fun h => ih (j + 1) ((heldAt_touch ..).trans (heldAt_loadRun h m va r j))

/-- The read of a TIDSET's descriptor keeps every hold (R174). -/
theorem heldAt_tidRead {s : State} {k : Nat} {x : Hold × Option Word} (h : s.heldAt k = some x) (scr : Bool) (addr : Nat) :
    (s.tidRead scr addr).1.heldAt k = some x := by
  unfold State.tidRead
  split
  · exact heldAt_landWords h ..
  · exact heldAt_loadRuns _ _ _ _ h

/-! ### The hold passed -/

/-- The end of a wait changes the groups alone. -/
theorem pass_eq (s : State) (k : Nat) (f : Option Cause) : s.pass k f = { s with groups := (s.pass k f).groups } := by
  unfold State.pass State.onGrp; split <;> rfl

theorem grp_pass {s : State} {k : Nat} {x : Hold × Option Word} (h : s.heldAt k = some x) (f : Option Cause) :
    (s.pass k f).grp k = (s.grp k).pass f := by
  obtain ⟨g, hg, -⟩ := Option.map_eq_some_iff.1 h
  rw [State.pass, State.onGrp_of_some hg, State.grp_setGrp_same]

theorem Group.pass_low (g : Group) (f : Option Cause) : (g.pass f).low = g.low := rfl

theorem hold_pass {s : State} {k : Nat} {x : Hold × Option Word} (h : s.heldAt k = some x) (f : Option Cause) :
    ((s.pass k f).grp k).hold = .passed x.1.kind (x.2.getD 0) f := by
  rw [grp_pass h, ← held_grp h]
  rfl

/-! ### An event of a held group -/

/-- An event that ends a wait does so where the hold is its own and nothing is outstanding. -/
theorem heldEvent_of {s t : State} {k : Nat} {eff : Hold → State → Option State} (hrun : s.groupRuns k = true)
    (h : eff (s.grp k).hold s = some t) : heldEvent k eff s = .next t := by
  simp only [heldEvent, hrun, h, Bool.not_true, Bool.false_eq_true, if_false]

/-- A wait that ends with the effect `u`, which keeps the hold and memory, leaves the hold passed. -/
theorem goes_pass {i : Instr} {s u : State} {k : Nat} {P : State → Prop} (hrun : s.groupRuns k = true)
    (hgo : exec i s = .next (u.pass k none)) (hheld : u.heldAt k = s.heldAt k) (hmem : u.mem = s.mem)
    (hP : (u.pass k none).grp k = (u.grp k).pass none → P (u.pass k none)) :
    Goes i s (fun t => t = u.pass k none ∧
      (t.grp k).hold = .passed (s.grp k).hold.kind (((s.grp k).blocked.map Blocked.addr).getD 0) none ∧
      (∀ x, t.byteAt x = s.byteAt x) ∧ P t) := by
  have hu := hheld.trans (heldAt_of_runs hrun)
  refine ⟨_, hgo, rfl, hold_pass hu none, fun x => ?_, hP (grp_pass hu none)⟩
  rw [State.byteAt, State.pass, State.onGrp_mem, hmem]
  rfl

/-! ### What each effect leaves -/

theorem mem_tlbinvOf {s : State} {k : Nat} {r : Option (Nat × Nat)} {c : Cached} : c ∈ (s.tlbinvOf k r).tlb ↔ c ∈ s.tlb ∧
    ¬((c.space = s.spaceOf k ∨ pteG c.leaf = true) ∧ ∀ lo hi, r = some (lo, hi) → c.va < hi ∧ lo < c.va + c.size) := by
  cases r with
  | none => simp [tlbinvOf_all]
  | some r =>
    obtain ⟨lo, hi⟩ := r
    simp only [tlbinvOf_range, List.mem_filter, Bool.not_eq_true', ← Bool.not_eq_true, Bool.and_eq_true, Bool.or_eq_true, beq_iff_eq,
      decide_eq_true_eq, Option.some.injEq, Prod.mk.injEq, and_imp, forall_eq', forall_apply_eq_imp_iff]

/-- What a group's completed commands of the source paths have written, and its own writes on them. -/
def Group.fencedSet (g : Group) (src : Nat) : Floors :=
  Floors.join ((g.learnt.filter (fun d => src.testBit d.path)).foldl (fun f d => Floors.join f d.writes) [])
    (Floors.join (if src.testBit 0 then g.lowLane else []) (if src.testBit 5 then g.lowRsvs else []))

theorem writes_le_fencedSet {g : Group} {src : Nat} {d : Done} (hd : d ∈ g.learnt) (hsrc : src.testBit d.path = true) {q : Nat × Nat}
    (hq : q ∈ d.writes) : q.2 ≤ fget 0 (g.fencedSet src) q.1 :=
  (le_foldl_floors_of_mem (fun f (d : Done) p => le_join_left f d.writes p) (List.mem_filter.2 ⟨hd, hsrc⟩)
    (fun f => le_join_of_mem f hq) []).trans (le_join_left ..)

/-- XFENCE changes what teams' engines must observe and the group's own floors. -/
theorem xfenceOf_eq (s : State) (k src dst : Nat) (sc : Scope) : s.xfenceOf k src dst sc =
    { s with groups := (s.xfenceOf k src dst sc).groups, teams := (s.xfenceOf k src dst sc).teams } := rfl

theorem xfenceOf_v (s : State) (k src dst : Nat) (sc : Scope) : ((s.xfenceOf k src dst sc).grp k).v = (s.grp k).v := by
  unfold State.xfenceOf
  extract_lets
  rw [State.grp_setGrp_same]
  rfl

theorem xfenceOf_toldLane (s : State) (k src dst : Nat) (sc : Scope) : ((s.xfenceOf k src dst sc).grp k).toldLane =
    if dst.testBit 0 then Floors.join (s.grp k).toldLane ((s.grp k).fencedSet src) else (s.grp k).toldLane :=
  congrArg Group.toldLane (State.grp_setGrp_same ..)

theorem heldAt_xfenceOf {s : State} {k : Nat} {x : Hold × Option Word} (h : s.heldAt k = some x) (src dst : Nat) (sc : Scope) :
    (s.xfenceOf k src dst sc).heldAt k = some x := by
  unfold State.xfenceOf
  extract_lets
  exact heldAt_setGrp (s := State.setTeam ..) h k rfl

theorem heldAt_renew {s : State} {k : Nat} {x : Hold × Option Word} (h : s.heldAt k = some x) (sc : Scope) :
    (s.renew k sc).heldAt k = some x :=
  heldAt_setGrp h k (by split <;> rfl)

/-- Writing the pending results changes registers and flags alone. -/
theorem Group.flushLooks_eq (g : Group) : g.flushLooks =
    { g with v := g.flushLooks.v, vp := g.flushLooks.vp, csr := g.flushLooks.csr, looks := g.flushLooks.looks } := by
  have hstep : ∀ (ls : List Look) (h : Group), h = { g with v := h.v, vp := h.vp, csr := h.csr, looks := h.looks } →
      ∀ t, t = ls.foldl (fun g l => if l.fault.isSome then g else (g.write l.dests).addFlags l.flags) h →
      t = { g with v := t.v, vp := t.vp, csr := t.csr, looks := t.looks } := by
    intro ls
    induction ls with
    | nil => rintro h hh t rfl; exact hh
    | cons l ls ih =>
      rintro h hh t rfl
      refine ih _ ?_ _ rfl
      dsimp only
      split
      · exact hh
      · rw [hh]; rfl
  exact hstep g.looks _ rfl _ rfl

/-! ### PHASE -/

/-- What PHASE publishes: versions, and what the group's own writes on their way owe. -/
theorem publishAll_eq {s : State} {k : Nat} (hrun : s.groupRuns k = true) (e : FenceSet) : s.publishAll k e =
    (s.publish (s.agent k) (.scope e.scope) e.set).setGrp k ((s.grp k).oweTo e.scope e.time) := by
  have heq := (s.publish_publishesTo (s.agent k) (.scope e.scope) e.set).eq
  obtain ⟨g, hg⟩ := State.groupRuns_find hrun
  have hfind : ffind (s.publish (s.agent k) (.scope e.scope) e.set).groups k = some g := by rw [heq]; exact hg
  rw [State.publishAll, State.onGrp_of_some hfind, heq]
  rfl

theorem Group.oweTo_low (g : Group) (sc : Scope) (time : Nat) : (g.oweTo sc time).low = g.low := rfl

theorem low_le_phaseOf {s : State} {k : Nat} (hrun : s.groupRuns k = true) (sc : Scope) (p : Nat) :
    fget 0 (s.grp k).low p ≤ fget 0 ((s.phaseOf k sc).grp k).low p := by
  have hlow := low_le_renew (s.publishAll k ⟨sc, s.tick + 1, s.cumulative k sc⟩) k sc p
  rwa [publishAll_eq hrun, State.grp_setGrp_same, Group.oweTo_low, ← publishAll_eq hrun ⟨sc, s.tick + 1, s.cumulative k sc⟩] at hlow

/-- The group's view takes in every publication that reaches it from within the scope (R302). -/
def State.Renewed (s : State) (k : Nat) (sc : Scope) (t : State) : Prop :=
  ∀ e ∈ s.parts, ∀ q ∈ e.2.pubs, q.reaches (s.agent k) = true → within sc (s.agent k) q.owner = true →
    ((isHost (8 * e.1) = true → sc = .sys) → q.upTo ≤ fget 0 (t.grp k).low e.1) ∧
    (isHost (8 * e.1) = true → sc ≠ .sys → q.upTo ≤ fget 0 (t.grp k).lowThrough e.1)

/-- A renewal takes in what had been published before the publications just made. -/
theorem renewed_renew {s u : State} {k : Nat} {sc : Scope} (hkept : ∀ e ∈ s.parts, ∃ d ∈ u.parts, d.1 = e.1 ∧ PubsKept e.2.pubs d.2.pubs)
    (hagent : u.agent k = s.agent k) : s.Renewed k sc (u.renew k sc) := by
  intro e he q hq hreach hwithin
  obtain ⟨d, hd, hkey, hpubs⟩ := hkept e he
  obtain ⟨r, hr, howner, hr_reach, hle⟩ := hpubs q hq
  have hpub : (r.reaches (u.agent k) && within sc (u.agent k) r.owner) = true := by
    rw [Bool.and_eq_true, hagent, howner]
    refine ⟨?_, hwithin⟩
    rw [← hreach, Pub.reaches, Pub.reaches, hr_reach, howner]
  have hupTo : q.upTo ≤ u.renewed k sc d.2 := hle.trans (upTo_le hr hpub)
  rw [← hkey]
  exact ⟨fun hsc => hupTo.trans (renewed_le_low hd hsc), fun hhost hsc => hupTo.trans (renewed_le_lowThrough hd hhost hsc)⟩

theorem Renewed.congr {s t u : State} {k : Nat} {sc : Scope} (h : s.Renewed k sc t) (hgrp : u.grp k = (t.grp k).pass none) :
    s.Renewed k sc u := by
  intro e he q hq hreach hwithin
  rw [hgrp]
  exact h e he q hq hreach hwithin

/-! ### The ends of the waits -/

section
variable {s : State} {k : Nat} (hrun : s.groupRuns k = true)
include hrun

theorem exec_icinvDone {lo hi : Nat} (hhold : (s.grp k).hold = .icinv lo hi) (hacked : (s.grp k).unacked .pkg = false) :
    exec (.icinvDone k) s = .next ((s.icinvOf k lo hi).pass k none) :=
  show execIcinvDone k s = _ from heldEvent_of hrun (by simp only [hhold, hacked]; rfl)

theorem exec_tlbinvDone {r : Option (Nat × Nat)} (hhold : (s.grp k).hold = .tlbinv r) (hacked : (s.grp k).unacked .pkg = false) :
    exec (.tlbinvDone k) s = .next ((s.tlbinvOf k r).pass k none) :=
  show execTlbinvDone k s = _ from heldEvent_of hrun (by simp only [hhold, hacked]; rfl)

theorem exec_xfenceDone {src dst : Nat} {sc : Scope} (hhold : (s.grp k).hold = .xfence src dst sc)
    (hfree : (s.grp k).fenceWaits src dst sc = false) : exec (.xfenceDone k) s = .next ((s.xfenceOf k src dst sc).pass k none) :=
  show execXfenceDone k s = _ from heldEvent_of hrun (by simp only [hhold, hfree]; rfl)

theorem exec_phaseDone {sc : Scope} (hhold : (s.grp k).hold = .phase sc) (hacked : (s.grp k).unacked sc = false)
    (hbar : (s.grp k).allBarred = false) : exec (.phaseDone k) s = .next ((s.phaseOf k sc).pass k none) :=
  show execPhaseDone k s = _ from heldEvent_of hrun (by simp only [hhold, hacked, hbar]; rfl)

/-- A group whose lanes all wait at a package barrier arrives there (R423). -/
theorem exec_phaseDone_barred {sc : Scope} (hhold : (s.grp k).hold = .phase sc) (hacked : (s.grp k).unacked sc = false)
    (hbar : (s.grp k).allBarred = true) (hway : s.gbarWaits k = false) : exec (.phaseDone k) s =
      .next (((s.onGrp k (fun x => { x with hold := .none })).gbarPublish k).unlock (s.grp k).team) :=
  show execPhaseDone k s = _ from heldEvent_of hrun (by simp only [hhold, hacked, hbar, hway]; rfl)

theorem exec_fenceAcqDone {sc : Scope} (hhold : (s.grp k).hold = .fenceAcq sc) (hops : (s.grp k).hostOps = []) :
    exec (.fenceAcqDone k) s = .next ((s.fenceAcqOf k sc).pass k none) :=
  show execFenceAcqDone k s = _ from heldEvent_of hrun (by simp only [hhold, hops]; rfl)

theorem exec_redflushDone (hhold : (s.grp k).hold = .redflush) (hreds : (s.grp k).redsOut = 0) :
    exec (.redflushDone k) s = .next (s.pass k none) :=
  show execRedflushDone k s = _ from heldEvent_of hrun (by simp only [hhold, hreds, if_true])

theorem exec_tidsetDone {slot addr : Nat} {scr : Bool} {u : State} (hhold : (s.grp k).hold = .tidset slot scr addr)
    (harrive : s.tidArrive k slot scr addr = some u) : exec (.tidsetDone k) s = .next u :=
  show execTidsetDone k s = _ from heldEvent_of hrun (by simp only [hhold, harrive])

end

/-! ### The agent -/

/-- A group of the same team and number is the same agent. -/
theorem agent_setGrp (s : State) {k : Nat} {g : Group} (hteam : g.team = (s.grp k).team) (hindex : g.index = (s.grp k).index) :
    (s.setGrp k g).agent k = s.agent k := by
  simp only [State.agent, State.dieOf, State.grp_setGrp_same, hteam, hindex]
  rfl

/-! ### The descriptor of a TIDSET -/

/-- A descriptor is refused with POISON_CONSUMED or TENSOR_ID (R174, R272). -/
theorem descFault_code {slot code v : Nat} {ws : List (Word × Bool)} (h : descFault slot ws = some (code, v)) : code = 0x0A ∨ code = 0x14 := by
  unfold descFault at h
  split at h
  · cases h; exact .inl rfl
  · split at h
    · cases h
    · cases h; exact .inr rfl

/-- The arrival of a descriptor passes the hold of the TIDSET, with the fault the descriptor is refused with (R174). -/
theorem hold_tidArrive {s u : State} {k slot addr : Nat} {scr : Bool} {x : Hold × Option Word} (hheld : s.heldAt k = some x)
    (h : s.tidArrive k slot scr addr = some u) : u.unit = s.unit ∧
      ∃ f, (u.grp k).hold = .passed x.1.kind (x.2.getD 0) f ∧ ∀ c, f = some c → c.code = 0x0A ∨ c.code = 0x14 := by
  unfold State.tidArrive at h
  extract_lets g a b at h
  split at h
  · cases h
  · have hread : (b.tidRead scr addr).1.heldAt k = some x := heldAt_tidRead (s := b) hheld scr addr
    generalize b.tidRead scr addr = r at h hread
    obtain ⟨t, ws⟩ := r
    cases hfault : descFault slot ws with
    | some e =>
      simp only [hfault, Option.some.injEq] at h
      subst h
      exact ⟨rfl, _, hold_pass hread _, fun c hc => by cases hc; exact descFault_code (v := e.2) hfault⟩
    | none =>
      simp only [hfault, Option.some.injEq] at h
      subst h
      exact ⟨rfl, none, hold_pass (s := t.setSlot slot (some (ws.map Prod.fst))) hread none, fun c hc => by cases hc⟩

/-- Settles O51: the end of each wait is its effect, which keeps the hold and memory, and then the hold passed (`goes_pass`). -/
theorem waitsEnd : Obligations.WaitsEnd := by
  intro s k hrun g a ends renewed
  have hheld : s.heldAt k = some g.held := heldAt_of_runs hrun
  refine ⟨?icinv, ?tlbinv, ?xfence, ?phase, ?arrive, ?fenceAcq, ?redflush, ?tidset⟩
  case icinv =>
    intro lo hi hhold hacked
    have heq := icinvOf_eq s k lo hi
    refine goes_pass hrun (exec_icinvDone hrun hhold hacked) (by rw [heq]; rfl) (by rw [heq]) fun hgrp => ⟨?_, fun h0 => ?_⟩
    · rw [hgrp, heq]; rfl
    · rw [pass_eq, icinvOf_nil h0]
  case tlbinv =>
    intro r hhold hacked
    have htlb : ((s.tlbinvOf k r).pass k none).tlb = (s.tlbinvOf k r).tlb := by rw [pass_eq]
    refine goes_pass hrun (exec_tlbinvDone hrun hhold hacked) rfl rfl fun hgrp => ⟨?_, ?_, fun c hc => ?_, fun c hc => ?_⟩
    · rw [hgrp]; rfl
    · rw [pass_eq]; rfl
    · exact (mem_tlbinvOf.1 (htlb ▸ hc)).1
    · rw [htlb, mem_tlbinvOf, and_iff_right hc]
  case xfence =>
    intro src dst sc hhold hfree
    have htold : ((s.xfenceOf k src dst sc).grp k |>.pass none).toldLane = _ := xfenceOf_toldLane s k src dst sc
    refine goes_pass hrun (exec_xfenceDone hrun hhold hfree) ((heldAt_xfenceOf hheld src dst sc).trans hheld.symm) (by rw [xfenceOf_eq])
      fun hgrp => ⟨?_, ?_, fun hdst d hd hsrc q hq => ?_, fun p => ?_⟩
    · rw [hgrp]; exact xfenceOf_v s k src dst sc
    · rw [pass_eq, xfenceOf_eq]
    · rw [hgrp, htold, if_pos hdst]
      exact (writes_le_fencedSet hd hsrc hq).trans (le_join_right ..)
    · rw [hgrp, htold]
      split
      · exact le_join_left ..
      · exact le_rfl
  case phase =>
    intro sc hhold hacked hbar
    have hpub := s.publish_publishesTo (s.agent k) (.scope sc) (s.cumulative k sc)
    have hall := publishAll_eq hrun ⟨sc, s.tick + 1, s.cumulative k sc⟩
    have hparts : (s.phaseOf k sc).parts = (s.publish (s.agent k) (.scope sc) (s.cumulative k sc)).parts := by
      rw [State.phaseOf, renew_eq, hall]; rfl
    have howes : (s.publishAll k ⟨sc, s.tick + 1, s.cumulative k sc⟩).grp k = (s.grp k).oweTo sc (s.tick + 1) := by
      rw [hall, State.grp_setGrp_same]
    have hrenewed : s.Renewed k sc (s.phaseOf k sc) := renewed_renew
      (by rw [hall]; exact hpub.kept) (by rw [hall, hpub.eq]; exact agent_setGrp s rfl rfl)
    refine goes_pass hrun (exec_phaseDone hrun hhold hacked hbar) ?_ ?_
      fun hgrp => ⟨?_, Renewed.congr hrenewed hgrp, fun p => ?_, fun p => ?_⟩
    · refine (heldAt_renew ?_ sc).trans hheld.symm
      rw [hall, heldAt_setGrp_same]; rfl
    · rw [State.phaseOf, renew_eq, hall, hpub.eq]; rfl
    · rw [hgrp, State.phaseOf, renew_grp, howes]; rfl
    · rw [← hpub.versions p, pass_eq, part_versions, hparts, ← part_versions]
    · rw [hgrp, Group.pass_low]
      exact low_le_phaseOf hrun sc p
  case arrive =>
    exact fun sc hhold hacked hbar hway => exec_phaseDone_barred hrun hhold hacked hbar hway
  case fenceAcq =>
    intro sc hhold hops
    have hflush : (s.setGrp k g.flushLooks).heldAt k = some g.held := by
      rw [heldAt_setGrp_same, Group.flushLooks_eq]; rfl
    have hagent : (s.setGrp k g.flushLooks).agent k = s.agent k := by
      rw [Group.flushLooks_eq]; exact agent_setGrp s rfl rfl
    have hrenewed : s.Renewed k sc (s.fenceAcqOf k sc) := renewed_renew (u := s.setGrp k g.flushLooks)
      (fun e he => ⟨e, he, rfl, .refl _⟩) hagent
    refine goes_pass hrun (exec_fenceAcqDone hrun hhold hops) ((heldAt_renew hflush sc).trans hheld.symm) rfl
      fun hgrp => ⟨Renewed.congr hrenewed hgrp, ?_, ?_, fun p => ?_⟩
    · rw [pass_eq]; rfl
    · rw [hgrp, State.fenceAcqOf, renew_grp, State.grp_setGrp_same]; rfl
    · rw [hgrp, show fget 0 g.low p = fget 0 ((s.setGrp k g.flushLooks).grp k).low p by
        rw [State.grp_setGrp_same, Group.flushLooks_eq], Group.pass_low]
      exact low_le_renew _ k sc p
  case redflush =>
    exact fun hhold hreds => goes_pass hrun (exec_redflushDone hrun hhold hreds) rfl rfl fun _ => pass_eq s k none
  case tidset =>
    intro slot scr addr u hhold harrive
    obtain ⟨hunit, f, hf, hcode⟩ := hold_tidArrive hheld harrive
    exact ⟨u, exec_tidsetDone hrun hhold harrive, rfl, hunit, f, by rw [hf, Group.held, hhold]; rfl, hcode⟩

end Sys2Proof.Machine
end

section
/-!
A write at its home, and what changes no team, execution or byte (R269, R278 to R280, R300, R310, R355).
-/

namespace Sys2Proof.Machine

-- One theorem at a time: its proof is checked, and its memory free, before the next begins.
set_option Elab.async false

/-! ### Chains of changes -/

/-- What each change of a chain keeps, the chain keeps. -/
theorem foldl_keeps {α β σ : Type} (P : σ → α) {f : σ → β → σ} (h : ∀ t e, P (f t e) = P t) (l : List β) (s : σ) :
    P (l.foldl f s) = P s := by
  induction l generalizing s with
  | nil => rfl
  | cons e l ih => exact (ih _).trans (h s e)

/-- What a change keeps of each group, it keeps of a group by its key, whether there is one or not. -/
theorem grp_mapGroups {α : Type} (P : Group → α) {f : Nat → Group → Group} (h : ∀ j g, P (f j g) = P g) (s : State) (k : Nat) :
    P ((s.mapGroups f).grp k) = P (s.grp k) := by
  simp only [State.grp, State.mapGroups_groups, ffind_fmapVals]
  cases ffind s.groups k with
  | none => rfl
  | some g => exact h k g

theorem grp_setGrp_keeps {α : Type} (P : Group → α) (s : State) (j : Nat) {g : Group} (h : P g = P (s.grp j)) (k : Nat) :
    P ((s.setGrp j g).grp k) = P (s.grp k) := by
  rw [State.grp_setGrp]
  split
  · subst_vars; exact h
  · rfl

/-! ### A write at its home -/

theorem byteAt_of_mem {s t : State} (h : t.mem = s.mem) (a : Nat) : t.byteAt a = s.byteAt a := by rw [State.byteAt, h, State.byteAt]

theorem fget_poke (cs : List Host.Cell) (a : Nat) (d : Byte) :
    ∀ (m : FMap Byte) (o : Option Byte), fget Memory.unlisted m a = o.getD d →
      fget Memory.unlisted (cs.foldl (fun m c => fset Memory.unlisted m c.1 c.2) m) a =
        (cs.foldl (fun r c => if c.1 = a then some c.2 else r) o).getD d := by
  induction cs with
  | nil => exact fun _ _ h => h
  | cons c cs ih =>
    refine fun m o h => ih _ _ ?_
    rw [fget_fset]
    by_cases hc : c.1 = a
    · simp only [if_pos hc, if_pos hc.symm, Option.getD_some]
    · simp only [if_neg hc, if_neg (Ne.symm hc), h]

theorem wrote_poke (s : State) (cs : List Host.Cell) : Wrote s (s.poke cs) cs := fun a => fget_poke cs a _ s.mem none rfl

theorem State.logRas_mem (s : State) (d kind : Nat) (latent : Bool) (place addr : Nat) : (s.logRas d kind latent place addr).mem = s.mem := by
  unfold State.logRas State.reports
  split
  · rfl
  · exact State.setDie_mem s d _

theorem State.logRefused_mem (s : State) (cs : List Host.Cell) : (s.logRefused cs).mem = s.mem :=
  foldl_keeps State.mem (fun t _ => t.logRas_mem ..) _ s

theorem State.takeNumber_mem (s : State) (key : Nat) : (s.takeNumber key).1.mem = s.mem := by
  unfold State.takeNumber
  split
  · unfold State.countDrop; split <;> simp
  · unfold State.number; split <;> rfl

/-- A write changes the bytes of its effective cells, each to the last listed for it, and no others (R278, R279). -/
theorem wrote_applyAs (s : State) (whole : Bool) (a : Agent) (cs : List Host.Cell) :
    Wrote s (s.applyAs whole a cs).1 (s.effective cs) := by
  unfold State.applyAs
  extract_lets eff olds s1 s2 s3 s4
  have hversions : s2.mem = s1.mem := 
    foldl_keeps State.mem (f := fun t (e : Nat × Part) => t.version a whole e.2 e.1) (fun _ _ => rfl) olds s1
  have hnumbers : ∀ (ls : List Nat) (key : Nat → Nat),
      (ls.foldl (fun r l => r.1.takeNumber (key l)) ((s4, 0) : State × Word)).1.mem = s4.mem :=
    fun ls key => foldl_keeps (fun r : State × Word => r.1.mem) (fun r _ => r.1.takeNumber_mem _) ls _
  intro x
  calc _ = s1.byteAt x := byteAt_of_mem ((hnumbers _ _).trans hversions) x
    _ = (lastOf eff x).getD ((s.logRefused cs).byteAt x) := wrote_poke _ eff x
    _ = _ := by rw [byteAt_of_mem (s.logRefused_mem cs)]

theorem State.publish_mem (s : State) (a : Agent) (r : Reach) (f : Floors) : (s.publish a r f).mem = s.mem := by
  rw [(s.publish_publishesTo a r f).eq]

/-! ### What keeps every team -/

theorem State.publish_teams (s : State) (a : Agent) (r : Reach) (f : Floors) : (s.publish a r f).teams = s.teams := by
  rw [(s.publish_publishesTo a r f).eq]

theorem State.onGrp_teams (s : State) (k : Nat) (f : Group → Group) : (s.onGrp k f).teams = s.teams := by
  unfold State.onGrp; split <;> rfl

theorem State.phaseOf_teams (s : State) (k : Nat) (sc : Scope) : (s.phaseOf k sc).teams = s.teams :=
  (State.onGrp_teams _ k _).trans (s.publish_teams ..)

theorem State.logRas_teams (s : State) (d kind : Nat) (latent : Bool) (place addr : Nat) :
    (s.logRas d kind latent place addr).teams = s.teams := by
  unfold State.logRas State.reports
  split
  · rfl
  · exact State.setDie_teams s d _

theorem State.noteWalk_teams (s : State) (space va : Nat) : (s.noteWalk space va).teams = s.teams := by
  unfold State.noteWalk
  split
  · rfl
  · rfl
  · unfold State.reports
    split
    · rfl
    · exact State.setDie_teams s _ _
  · exact s.logRas_teams ..

theorem State.noteFault_teams (s : State) (e : Exec) (f : Option (Nat × Nat)) : (s.noteFault e f).teams = s.teams := by
  unfold State.noteFault
  split
  · exact s.noteWalk_teams ..
  · rfl
  · rfl

/-! ### Fencing -/

/-- Discarding staged reductions fences nothing and ends no fence. -/
theorem dropStaged_fenced (s : State) (ek j : Nat) : ((s.dropStaged ek).exec j).fenced = (s.exec j).fenced := by
  unfold State.dropStaged
  rw [State.exec_setExec]
  split
  · subst_vars; rfl
  · rfl

theorem fence_fenced (s : State) (ek : Nat) (f : FaultRec) : ((s.fence ek f).exec ek).fenced = true := by
  rw [State.fence, dropStaged_fenced, State.exec_setExec, if_pos rfl]

theorem fence_teams (s : State) (ek : Nat) (f : FaultRec) : (s.fence ek f).teams = s.teams := rfl

end Sys2Proof.Machine
end

section
/-!
A group that has retired stays so through the barrier rules that its retirement sets off (R134, R166, R167, R169, R423, R424).
-/

namespace Sys2Proof.Machine

-- One theorem at a time: its proof is checked, and its memory free, before the next begins.
set_option Elab.async false

/-- What both branches keep. -/
theorem ite_keeps {α σ : Type} (P : σ → α) {p : Prop} [Decidable p] {a b : σ} {x : α} (ha : P a = x) (hb : P b = x) :
    P (if p then a else b) = x := by
  split
  exacts [ha, hb]

/-! ### Groups at barriers -/

theorem Group.putP_retired (g : Group) (i r : Nat) (b : Bool) : (g.putP i r b).retired = g.retired := by
  unfold Group.putP; split <;> rfl

theorem Group.goOn_retired (g : Group) (pkg : Bool) (b : Nat) (ok : Bool) : (g.goOn pkg b ok).retired = g.retired :=
  foldl_keeps Group.retired (fun h i => h.putP_retired i _ ok) _ g

theorem Group.brokenTrap_retired (g : Group) (pkg : Bool) (b : Nat) : (g.brokenTrap pkg b).retired = g.retired := by
  unfold Group.brokenTrap
  extract_lets m i a
  split <;> rfl

theorem Group.endGbar_retired (g : Group) (b : Nat) (ok : Bool) : (g.endGbar b ok).retired = g.retired := g.goOn_retired true b ok

/-! ### Team and package phases -/

section
variable (s : State) (k : Nat)

theorem mapTeam_retired (team : Nat) {f : Group → Group} (h : ∀ g, (f g).retired = g.retired) :
    ((s.mapTeam team f).grp k).retired = (s.grp k).retired :=
  grp_mapGroups Group.retired (fun _ g => by split; exacts [h g, rfl]) s k

theorem mapExec_retired (ek : Nat) {f : Group → Group} (h : ∀ g, (f g).retired = g.retired) :
    ((s.mapExec ek f).grp k).retired = (s.grp k).retired :=
  grp_mapGroups Group.retired (fun _ g => by split; exacts [h g, rfl]) s k

theorem renew_retired (j : Nat) (sc : Scope) : ((s.renew j sc).grp k).retired = (s.grp k).retired :=
  grp_setGrp_keeps Group.retired s j (by split <;> rfl) k

theorem endEpoch_retired (j : Nat) : ((s.endEpoch j).grp k).retired = (s.grp k).retired :=
  grp_setGrp_keeps (g := { s.grp j with epoch := (s.grp j).epoch + 1 }) Group.retired s j rfl k

theorem completePhase_retired (team b : Nat) : ((s.completePhase team b).grp k).retired = (s.grp k).retired := by
  unfold State.completePhase
  extract_lets x s1
  have hgoOn : (s1.grp k).retired = (s.grp k).retired := mapTeam_retired _ k team fun g => g.goOn_retired false b true
  split
  · exact (foldl_keeps (fun t : State => (t.grp k).retired) (fun t j => endEpoch_retired t k j) _ s1).trans hgoOn
  · exact hgoOn

theorem breakPhase_retired (team b : Nat) : ((s.breakPhase team b).grp k).retired = (s.grp k).retired :=
  mapTeam_retired _ k team fun g => ((g.brokenTrap false b).goOn_retired false b false).trans (g.brokenTrap_retired false b)

theorem recheck_retired (team b : Nat) : ((s.recheck team b).grp k).retired = (s.grp k).retired := by
  unfold State.recheck
  split
  · rfl
  · split
    · exact completePhase_retired s k team b
    · rfl

theorem completeGbar_retired (ek b : Nat) : ((s.completeGbar ek b).grp k).retired = (s.grp k).retired :=
  (mapExec_retired _ k ek fun g => g.endGbar_retired b true).trans
    (foldl_keeps (fun t : State => (t.grp k).retired) (fun t j => renew_retired t k j .pkg) _ s)

theorem recheckGbar_retired (ek b : Nat) : ((s.recheckGbar ek b).grp k).retired = (s.grp k).retired := by
  unfold State.recheckGbar
  extract_lets e x
  split
  · rfl
  · exact ite_keeps (fun t : State => (t.grp k).retired) (completeGbar_retired _ k ek b) rfl

theorem unlock_retired (team : Nat) : ((s.unlock team).grp k).retired = (s.grp k).retired := by
  unfold State.unlock
  split
  · exact foldl_keeps (fun t : State => (t.grp k).retired) (fun t b => breakPhase_retired t k team b) _ s
  · rfl

theorem barsAtRetire_retired (j : Nat) : ((s.barsAtRetire j).grp k).retired = (s.grp k).retired := by
  unfold State.barsAtRetire
  extract_lets team s1 ek
  have hteam : (s1.grp k).retired = (s.grp k).retired :=
    foldl_keeps (fun t : State => (t.grp k).retired) (f := fun t (e : Nat × Barrier) => t.recheck team e.1)
      (fun t e => recheck_retired t k team e.1) _ s
  have hpackage : (((s1.exec ek).gbars.foldl (fun t e => t.recheckGbar ek e.1) s1).grp k).retired = (s1.grp k).retired :=
    foldl_keeps (fun t : State => (t.grp k).retired) (f := fun t (e : Nat × GBar) => t.recheckGbar ek e.1)
      (fun t e => recheckGbar_retired t k ek e.1) _ s1
  exact (unlock_retired _ k team).trans (hpackage.trans hteam)

theorem retire_retired : ((s.retire k).grp k).retired = true := by
  unfold State.retire
  extract_lets g s1 t s2 e s3 s4
  have hs1 : (s1.grp k).retired = true := by rw [State.grp_setGrp_same]
  have hs4 : (s4.grp k).retired = (s1.grp k).retired := by unfold s4; split <;> rfl
  exact (barsAtRetire_retired s4 k k).trans (hs4.trans hs1)

end

end Sys2Proof.Machine
end

section
/-!
O54: groups retire, teams end, halt, are saved and resume; the dispatcher takes requests, starts executions and places teams (R134, R269,
R273, R274, R340, R341, R347, R349, R350, R354, R369, R371).
-/

namespace Sys2Proof.Machine

-- One theorem at a time: its proof is checked, and its memory free, before the next begins.
set_option Elab.async false

/-! ### Halting -/

/-- The completion of an invalidation that has begun changes instruction caches and cached translations alone (R273). -/
theorem finishInv_eq (s : State) (k : Nat) : s.finishInv k = { s with cores := (s.finishInv k).cores, tlb := (s.finishInv k).tlb } := by
  unfold State.finishInv
  split
  · rfl
  · split
    case h_1 lo hi _ => unfold State.icinvOf; split <;> rfl
    all_goals rfl

theorem foldl_finishInv_eq (l : List Nat) (s : State) : l.foldl State.finishInv s =
    { s with cores := (l.foldl State.finishInv s).cores, tlb := (l.foldl State.finishInv s).tlb } := by
  induction l generalizing s with
  | nil => rfl
  | cons k l ih =>
    rw [List.foldl_cons, ih]
    exact congrArg (fun x : State => { x with
      cores := (l.foldl State.finishInv (s.finishInv k)).cores, tlb := (l.foldl State.finishInv (s.finishInv k)).tlb }) (finishInv_eq s k)

section
variable {s : State} {tk b : Nat} (hb : (s.exec (s.team tk).exec).freeBlock = some b)
include hb

/-- A halt takes a context block for the team (R350), and leaves other teams, other executions and memory as they are. -/
theorem halt_eq : s.halt tk = { s with
    teams := fins s.teams tk { s.team tk with halted := true, block := some b }
    execs := fins s.execs (s.team tk).exec
      { s.exec (s.team tk).exec with blocks := (s.exec (s.team tk).exec).blocks ++ [b] }
    groups := (s.halt tk).groups, cores := (s.halt tk).cores, tlb := (s.halt tk).tlb } := by
  have hhalt : s.halt tk = State.mapTeam ((s.unretired tk).foldl State.finishInv
      ((s.setTeam tk { s.team tk with halted := true, block := some b }).setExec (s.team tk).exec
        { s.exec (s.team tk).exec with blocks := (s.exec (s.team tk).exec).blocks ++ [b] })) tk
      (fun g => if g.retired then g else g.halt) := by
    simp only [State.halt, hb]
  rw [hhalt, State.mapTeam, State.mapGroups, foldl_finishInv_eq]
  rfl

theorem halt_team (j : Nat) : (s.halt tk).team j = if j = tk then { s.team tk with halted := true, block := some b } else s.team j := by
  rw [halt_eq hb]; exact s.team_setTeam tk j _

theorem halt_blocks : ((s.halt tk).exec (s.team tk).exec).blocks = (s.exec (s.team tk).exec).blocks ++ [b] := by
  rw [halt_eq hb]
  refine (congrArg Exec.blocks (s.exec_setExec (s.team tk).exec (s.team tk).exec _)).trans ?_
  rw [if_pos rfl]

end

/-! ### Cores drain -/

/-- A choice of cores to drain changes the cores alone (R349). -/
theorem drainFor_eq (s : State) (die : Nat) (w : Waiting) : s.drainFor die w = { s with cores := (s.drainFor die w).cores } := by
  unfold State.drainFor
  dsimp only
  split
  · rfl
  · split <;> rfl

theorem foldl_cores {α : Type} {f : State → α → State} (h : ∀ t e, f t e = { t with cores := (f t e).cores }) (l : List α) (s : State) :
    l.foldl f s = { s with cores := (l.foldl f s).cores } := by
  induction l generalizing s with
  | nil => rfl
  | cons e l ih =>
    rw [List.foldl_cons, ih]
    exact congrArg (fun x : State => { x with cores := (l.foldl f (f s e)).cores }) (h s e)

theorem drains_eq (s : State) (die : Nat) : s.drains die = { s with cores := (s.drains die).cores } :=
  foldl_cores (fun t w => by split; exacts [drainFor_eq t die w, rfl]) (s.waiting die) s

theorem drains_team (s : State) (die j : Nat) : (s.drains die).team j = s.team j := by rw [drains_eq]; rfl

/-! ### Resuming -/

/-- A team that resumes is on its new core, neither halted nor saved, and has no block; other teams are as they were (R274). -/
theorem restore_team (s : State) (tk core : Nat) (ps : List Place) (j : Nat) : (s.restore tk core ps).team j =
    if j = tk then { s.team tk with core := core, halted := false, saved := false, tun := none, block := none } else s.team j := by
  have hteams : (s.restore tk core ps).teams =
      fins s.teams tk { s.team tk with core := core, halted := false, saved := false, tun := none, block := none } := by
    unfold State.restore
    extract_lets t e now c s1 s2 s3 s4
    have hs3 : s3.teams = s2.teams :=
      foldl_keeps State.teams (f := fun u (q : Nat × Place) => u.setGrp q.1 ((u.grp q.1).replace q.2 now)) (fun _ _ => rfl) _ s2
    have hs4 : s4.teams = s3.teams := by unfold s4; split <;> rfl
    have hphases := foldl_keeps State.teams (f := fun u j => (u.carryPubs (s.agent j) (u.agent j)).phaseOf j .pkg)
      (fun u j => State.phaseOf_teams ..) (s.unretired tk) s4
    exact hphases.trans (hs4.trans hs3)
  exact (congrArg (fun m : FMap Team => (ffind m j).getD Team.blank) hteams).trans (s.team_setTeam tk j _)

/-! ### Releases of ordered sections -/

theorem map_modNth {α β : Type} (f : α → β) {g : α → α} {h : β → β} (hfg : ∀ x, f (g x) = h (f x)) (l : List α) (i : Nat) :
    (modNth l i g).map f = modNth (l.map f) i h := by
  induction l generalizing i with
  | nil => cases i <;> rfl
  | cons x l ih => cases i with
    | zero => simp only [modNth, List.map_cons, hfg]
    | succ i => simp only [modNth, List.map_cons, ih]

theorem nth_map {α β : Type} (f : α → β) (d : α) (l : List α) (i : Nat) : nth (f d) (l.map f) i = f (nth d l i) := by
  induction l generalizing i with
  | nil => cases i <;> rfl
  | cons x l ih => cases i with
    | zero => rfl
    | succ i => exact ih i

/-- What the lanes of a list are set to stays, whatever other lanes are set to it. -/
theorem nth_foldl_modNth {α : Type} (d v : α) {ls : List Nat} {i : Nat} (hi : i ∈ ls) {o : List α} (hlen : i < o.length) :
    nth d (ls.foldl (fun o j => modNth o j (fun _ => v)) o) i = v := by
  have hkeep : ∀ (ls : List Nat) (o : List α), nth d o i = v → nth d (ls.foldl (fun o j => modNth o j (fun _ => v)) o) i = v := by
    intro ls
    induction ls with
    | nil => exact fun _ h => h
    | cons j ls ih =>
      refine fun o h => ih _ ?_
      rw [nth_modNth, h, ite_self]
  induction ls generalizing o with
  | nil => exact absurd hi List.not_mem_nil
  | cons j ls ih =>
    rcases List.mem_cons.1 hi with rfl | h
    · exact hkeep ls _ (by rw [nth_modNth, if_pos ⟨rfl, hlen⟩])
    · exact ih h (by rwa [length_modNth])

/-- The progress of each lane of a group through its ordered section (R370). -/
def Group.ords (g : Group) : List Nat := g.lanes.map Lane.ord

theorem Group.lane_ord (g : Group) (i : Nat) : (g.lane i).ord = nth Lane.blank.ord g.ords i := (nth_map Lane.ord ..).symm

theorem Group.wake_ords (now : Nat) (p : WaitOn → Bool) (g : Group) : (g.wake now p).ords = g.ords := by
  simp only [Group.ords, Group.wake, List.map_map]
  refine List.map_congr_left fun l _ => ?_
  simp only [Function.comp_apply]
  split <;> rfl

theorem wakeLines_ords (s : State) (ls : List Nat) (k : Nat) : ((s.wakeLines ls).grp k).ords = (s.grp k).ords := by
  refine grp_mapGroups Group.ords (fun j g => ?_) s k
  exact g.wake_ords (s.cycle (s.dieOf j)) (WaitOn.onLines ls)

section
variable (s : State) (k i : Nat) (abandon : Bool)

theorem releaseLane_mem : (s.releaseLane k i abandon).mem = s.mem := rfl

theorem releaseLane_alike : s.GroupsAlike (s.releaseLane k i abandon) := by
  unfold State.releaseLane
  extract_lets g t px t1 t2 s1
  have hset : s.GroupsAlike s1 := State.setGrp_alike (State.setTeam ..) k _ ⟨rfl⟩
  refine (hset.trans (s1.mapGroups_alike _ fun j h => ?_)).trans (State.wakeLines_alike _ _)
  split
  · exact Group.wake_alike ..
  · exact .refl h

theorem releaseLane_ords : ((s.releaseLane k i abandon).grp k).ords = modNth (s.grp k).ords i (fun _ => 2) := by
  unfold State.releaseLane
  extract_lets g t px t1 t2 s1
  have hset : (s1.grp k).ords = modNth (s.grp k).ords i (fun _ => 2) := by
    rw [State.grp_setGrp_same]
    exact map_modNth Lane.ord (fun _ => rfl) ..
  have hrelease := grp_mapGroups Group.ords
    (f := fun j h => if h.team = g.team then h.wake (s1.cycle (s1.dieOf j)) (WaitOn.onRelease px) else h)
    (fun j h => by split; exacts [h.wake_ords .., rfl]) s1 k
  exact ((wakeLines_ords ..).trans hrelease).trans hset

end

theorem foldl_releaseLane_ords (k : Nat) (ls : List Nat) (s : State) :
    ((ls.foldl (fun t j => t.releaseLane k j true) s).grp k).ords = ls.foldl (fun o j => modNth o j (fun _ => 2)) (s.grp k).ords := by
  induction ls generalizing s with
  | nil => rfl
  | cons j ls ih => rw [List.foldl_cons, ih, releaseLane_ords]; rfl

/-- The watchdog releases the lanes that are overdue, and their group keeps one trap more (R371). -/
theorem ordTimeout_releases {s : State} {k : Nat} (h : s.overdue k ≠ []) :
    (∀ i ∈ s.overdue k, i < (s.grp k).lanes.length → (((s.ordTimeout k).grp k).lane i).ord = 2) ∧
    (s.ordTimeout k).mem = s.mem ∧ ∃ c m, ((s.ordTimeout k).grp k).pend = (s.grp k).pend ++ [(c, m)] ∧ c.code = 0x0F := by
  obtain ⟨i, is, hover⟩ := List.exists_cons_of_ne_nil h
  have hords := foldl_releaseLane_ords k (i :: is) s
  have halike := State.groupsAlike_foldl (fun t j => t.releaseLane k j true) (fun t j => releaseLane_alike t k j true) (i :: is) s
  have hmem : ((i :: is).foldl (fun t j => t.releaseLane k j true) s).mem = s.mem :=
    foldl_keeps State.mem (fun t j => releaseLane_mem t k j true) (i :: is) s
  simp only [State.ordTimeout, hover]
  generalize (i :: is).foldl (fun t j => t.releaseLane k j true) s = t at hords halike hmem
  refine ⟨fun j hj hlen => ?_, hmem, ?_⟩
  · rw [State.grp_setGrp_same, Group.lane_ord]
    refine (congrArg (nth Lane.blank.ord · j) hords).trans (nth_foldl_modNth _ _ hj ?_)
    rwa [Group.ords, List.length_map]
  · rw [State.grp_setGrp_same, (halike k).eq]
    exact ⟨_, _, rfl, rfl⟩

/-! ### Package barriers, launches and batches -/

/-- A package phase that breaks ends, and its execution holds a fault (R424). -/
theorem breakGbar_exec (s : State) (ek b : Nat) : ∃ f, (s.breakGbar ek b).exec ek = { s.exec ek with
    gbars := fins (s.exec ek).gbars b ⟨((s.exec ek).gbar b).phase + 1, none, [], [], none, 0⟩, fault := some f } := by
  have hset : ∀ x : GBar, ((s.setGbar ek b x).exec ek) = { s.exec ek with gbars := fins (s.exec ek).gbars b x } :=
    fun x => (s.exec_setExec ek ek _).trans (if_pos rfl)
  unfold State.breakGbar
  extract_lets x s1 w e trap f
  have he : e = { s.exec ek with gbars := fins (s.exec ek).gbars b ⟨x.phase + 1, none, [], [], none, 0⟩ } := hset _
  split
  next hfault =>
    obtain ⟨f, hf⟩ := Option.isSome_iff_exists.1 hfault
    refine ⟨f, ?_⟩
    rw [he] at hf
    show e = _
    rw [he, ← hf]
  next =>
    refine ⟨f, ((s1.exec_setExec ek ek _).trans (if_pos rfl)).trans ?_⟩
    rw [he]

theorem breakGbar_mem (s : State) (ek b : Nat) : (s.breakGbar ek b).mem = s.mem := by
  unfold State.breakGbar
  extract_lets x s1 w e trap f
  exact ite_keeps State.mem rfl rfl

theorem endLaunch_mem (s : State) (c : Cmd) (fault : Option Nat) : (s.endLaunch c fault).mem = s.mem :=
  State.onGrp_mem ..

/-- The add of a LAUNCH writes the new REQSEQ of its slot (R347). -/
theorem launchAdd_wrote (s : State) (c : Cmd) : Wrote s (s.launchAdd c)
    (s.effective (cellsOf (s.slotKey c.op + offReq) (s.slotWord c.op offReq + nth 0 c.args 0).toNat 4)) := by
  intro a
  refine Eq.trans (byteAt_of_mem ?_ a) (wrote_applyAs s false (s.cmdAgent c) _ a)
  unfold State.launchAdd
  extract_lets n r set t u
  rw [State.onC_mem, State.publish_mem, State.publish_mem]
  rfl

theorem addGroup_epoch (s : State) (k : Nat) (g : Group) : ((s.addGroup k g).grp k).epoch = g.epoch := by
  rw [State.addGroup, renew_grp, State.grp_setGrp_same]

/-! ### The events -/

section
variable {s : State} {k : Nat}

theorem exec_groupRetire (h : s.mayRetire k = true) : exec (.groupRetire k) s =
    .next (if (s.retire k).teamDone (s.grp k).team then (s.retire k).completeTeam (s.grp k).team else s.retire k) := by
  show execGroupRetire k s = _
  simp only [execGroupRetire, h, Bool.not_true, Bool.false_eq_true, if_false]

theorem exec_fatalTrap (hthere : (ffind s.teams k).isSome = true) (hcallable : (s.team k).callable = false)
    (hends : (s.team k).dead = true ∨ (s.exec (s.team k).exec).fenced = true) :
    exec (.fatalTrap k) s = .next (((s.freeTun k).stopWork k).endTeam k) := by
  show execFatalTrap k s = _
  have hgo : ((ffind s.teams k).isNone || (s.team k).callable || !((s.team k).dead || (s.exec (s.team k).exec).fenced)) = false := by
    rw [Bool.or_eq_true_iff.2 hends, hcallable, Option.isNone_eq_false_iff.2 hthere]; rfl
  simp only [execFatalTrap, hgo, Bool.false_eq_true, if_false]

theorem exec_haltRequest (hthere : (ffind s.teams k).isSome = true) (hopen : s.controlOpen (s.team k).core = true)
    (hvictim : s.victim (coreDie (s.team k).core) = some k) : exec (.haltRequest k) s = .next (s.halt k) := by
  show execHaltRequest k s = _
  simp only [execHaltRequest, hthere, hopen, hvictim, beq_self_eq_true, Bool.and_self, if_true]

theorem exec_fragmentGroupStart {j : Nat} (hruns : s.runs k = true) (htiled : (s.team k).tmoff.isSome = true)
    (hmore : (s.team k).batch < (s.team k).batches) (hplace : s.retiredPlace k = some j) :
    ∃ (t : Team) (x : Group), t.batch = (s.team k).batch + 1 ∧ x.epoch = (s.grp (groupKey k j)).epoch + 1 ∧
      exec (.fragmentGroupStart k) s = .next ((s.setTeam k t).addGroup (groupKey k j) x) := by
  have hgo : (!s.runs k || (s.team k).tmoff.isNone || decide ((s.team k).batches ≤ (s.team k).batch)) = false := by
    rw [hruns, Option.isNone_eq_false_iff.2 htiled, decide_eq_false (Nat.not_le.2 hmore)]; rfl
  have hx : exec (.fragmentGroupStart k) s = execFragmentGroupStart k s := rfl
  simp only [hx, execFragmentGroupStart, hgo, hplace, Bool.false_eq_true, if_false]
  refine ⟨_, _, ?_, ?_, rfl⟩ <;> rfl

theorem exec_gbarTimeout {b : Nat} (hthere : (ffind s.execs k).isSome = true) (hover : ((s.exec k).gbar b).overdue s.dieA.cycle = true) :
    exec (.gbarTimeout k b) s = .next (s.breakGbar k b) := by
  show execGbarTimeout k b s = _
  obtain ⟨e, he⟩ := Option.isSome_iff_exists.1 hthere
  have hexec : s.exec k = e := by rw [State.exec, he]; rfl
  rw [hexec] at hover
  simp only [execGbarTimeout, he, Option.any_some, hover, if_true]

theorem exec_coreSplitChange {p : Nat} (hdrain : (s.core k).drain = some p) (hempty : s.resident k = [])
    (hkeeps : s.keepsContext k = false) :
    exec (.coreSplitChange k) s = .next (s.setCore k { s.core k with split := some p, drain := none }) := by
  show execCoreSplitChange k s = _
  simp only [execCoreSplitChange, hdrain, hempty, hkeeps, List.isEmpty_nil, Bool.not_false, Bool.and_self, if_true]

end

/-- A LAUNCH command that die C holds goes on (R347). -/
theorem exec_launchReqseqAdd {s : State} {k : Nat} {c : Cmd} (h : s.dieC.launches.find? (fun c => c.id == k) = some c) :
    exec (.launchReqseqAdd k) s = s.launchStep c := by
  show execLaunchReqseqAdd k s = _
  simp only [execLaunchReqseqAdd, h]

section
variable {s : State} {k : Nat}

/-- The first team that waits is placed where it is a new one and its message finds its way (R348, R349). -/
theorem exec_teamPlace_fits (hk : k < 2) (hdown : s.dieDown k = false) (hstopped : s.dieC.stopped = false) {w : Waiting} {c : Nat}
    (hfit : (s.drains k).firstFit k = some (w, c)) : exec (.teamPlace k) s =
      .next (if w.saved.isNone && (s.drains k).controlOpen c then (s.drains k).placeNew w c else s.drains k) := by
  show execTeamPlace k s = _
  simp only [execTeamPlace, hdown, hstopped, hfit, decide_eq_false (Nat.not_le.2 hk), Bool.or_self, Bool.false_eq_true, if_false]

theorem exec_teamPlace_none (hk : k < 2) (hdown : s.dieDown k = false) (hstopped : s.dieC.stopped = false)
    (hnone : (s.drains k).firstFit k = none) : exec (.teamPlace k) s = .next (s.drains k) := by
  show execTeamPlace k s = _
  simp only [execTeamPlace, hdown, hstopped, hnone, decide_eq_false (Nat.not_le.2 hk), Bool.or_self, Bool.false_eq_true, if_false]

section
variable {core : Nat} {w : Waiting} (hfit : (s.drains (coreDie core)).firstFit (coreDie core) = some (w, core)) (hsaved : w.saved = some k)
  (hopen : (s.drains (coreDie core)).controlOpen core = true)
include hfit hsaved hopen

/-- A team whose block cannot be read back has its launch fenced (R355). -/
theorem exec_teamResume_fails {d : State} (hd : d = s.drains (coreDie core)) {bad : Nat × Nat}
    (hback : d.contextFault (d.exec (d.team k).exec) .read
      ((d.exec (d.team k).exec).context + blockBytes * (d.team k).block.getD 0) blockBytes = some bad) :
    exec (.teamResume k core) s = .next
      ((d.noteFault (d.exec (d.team k).exec) (some bad)).fence (d.team k).exec (d.teamFault k bad.1 0)).spent := by
  subst hd
  show execTeamResume k core s = _
  simp only [execTeamResume, hfit, hsaved, hopen, hback, ne_eq, not_true_eq_false, decide_false, Bool.not_true, Bool.or_self,
    Bool.false_eq_true, if_false]

theorem exec_teamResume {d : State} (hd : d = s.drains (coreDie core)) {ps : List Place}
    (hback : d.contextFault (d.exec (d.team k).exec) .read
      ((d.exec (d.team k).exec).context + blockBytes * (d.team k).block.getD 0) blockBytes = none)
    (hplaces : d.fitGone core w [] = some ps) : exec (.teamResume k core) s = .next (d.restore k core ps) := by
  subst hd
  show execTeamResume k core s = _
  simp only [execTeamResume, hfit, hsaved, hopen, hback, hplaces, ne_eq, not_true_eq_false, decide_false, Bool.not_true, Bool.or_self,
    Bool.false_eq_true, if_false]

end

end

theorem exec_spent (s : State) (j : Nat) : s.spent.exec j = s.exec j := rfl

/-- Settles O54: each event by its own lemma; what a team's retirement, halt and resumption leave by `retire_retired`, `halt_eq` and
`restore_team`. -/
theorem teamsAndDispatch : Obligations.TeamsAndDispatch := by
  intro s k
  refine ⟨?retire, ?fatal, ?halt, ?save, ?resume, ?notify, ?start, ?noMemory, ?place, ?split, ?launch, ?fragment, ?raster, ?gbar,
    ?ord, ?walk⟩
  case retire => exact fun h => ⟨retire_retired s k, exec_groupRetire h⟩
  case fatal => exact fun hthere hcallable hends => exec_fatalTrap hthere hcallable hends
  case halt =>
    intro b hthere hopen hvictim hb
    refine ⟨_, exec_haltRequest hthere hopen hvictim, ?_, fun j hj => ?_, halt_blocks hb, fun a => ?_⟩
    · rw [halt_team hb, if_pos rfl]
    · rw [halt_team hb, if_neg hj]
    · exact byteAt_of_mem (by rw [halt_eq hb]) a
  case save =>
    intro h
    show execContextSaveDone k s = _
    rw [execContextSaveDone, if_pos h]
  case resume =>
    intro core w d hfit hsaved hopen e back
    have hteam : ∀ j, d.team j = s.team j := drains_team s (coreDie core)
    refine ⟨drains_eq s _, fun bad hback => ?_, fun ps hback hplaces => ?_⟩
    · refine ⟨_, exec_teamResume_fails hfit hsaved hopen rfl hback, ?_, ?_⟩
      · rw [← hteam, exec_spent, fence_fenced]
      · rw [State.spent_teams, fence_teams, State.noteFault_teams, drains_eq]
    · refine ⟨_, exec_teamResume hfit hsaved hopen rfl hback hplaces, rfl, ?_, fun j hj => ?_⟩
      · rw [restore_team, if_pos rfl, drains_team]
      · rw [restore_team, if_neg hj, drains_team]
  case notify =>
    intro hwatches hthere
    show execReqseqNotify k s = _
    simp only [execReqseqNotify, hwatches, hthere, Bool.not_true, Bool.false_eq_true, if_false]
  case start =>
    intro hstart hthere
    show execExecutionStart k s = _
    simp only [execExecutionStart, hstart, hthere, Bool.not_true, Bool.and_false, Bool.false_eq_true, if_false]
    split <;> rfl
  case noMemory =>
    intro hwatches hthere
    refine ⟨show execReqseqNotify k s = _ from ?_, show execExecutionStart k s = _ from ?_⟩
    · simp only [execReqseqNotify, hwatches, hthere, Bool.not_true, Bool.not_false, Bool.false_eq_true, if_false, if_true]
    · simp only [execExecutionStart, hwatches, hthere, Bool.not_false, Bool.and_self, if_true]
  case place =>
    intro hk hdown hstopped d
    refine ⟨drains_eq s k, fun w c hfit hnew hopen => ?_, fun w c hfit hno => ?_,
      fun hnone => exec_teamPlace_none hk hdown hstopped hnone⟩
    · rw [exec_teamPlace_fits hk hdown hstopped hfit, hnew, hopen]; rfl
    · have hgo : (w.saved.isNone && (s.drains k).controlOpen c) = false := by
        rcases hno with h | h
        · rw [Option.isNone_eq_false_iff.2 (Option.isSome_iff_ne_none.2 h), Bool.false_and]
        · rw [h, Bool.and_false]
      rw [exec_teamPlace_fits hk hdown hstopped hfit, hgo]; rfl
  case split =>
    intro p hdrain hempty hkeeps
    refine ⟨_, exec_coreSplitChange hdrain hempty hkeeps, ?_, fun j hj => ?_, rfl⟩
    · rw [State.core_setCore, if_pos rfl]
    · rw [State.core_setCore, if_neg hj]
  case launch =>
    intro c hfind
    have hx := exec_launchReqseqAdd hfind
    refine ⟨fun hdead => ?_, fun hlives hshut => ?_, fun hlives hopen hstarted hack => ?_, fun hlives hopen hnew hready => ⟨fun hslot => ?_,
      fun hslot hthere hvalid hdevl hn => ?_⟩⟩
    · simp only [TurnsC, hx, State.launchStep, hdead, Bool.not_false, if_true]
      rfl
    · simp only [hx, State.launchStep, hlives, hshut, Bool.not_true, Bool.not_false, Bool.false_eq_true, if_false, if_true]
    · simp only [hx, State.launchStep, hlives, hopen, hstarted, hack, Bool.not_true, Bool.false_eq_true, if_false, if_true]
    · refine ⟨_, ?_, rfl, byteAt_of_mem (endLaunch_mem ..)⟩
      simp only [hx, State.launchStep, hlives, hopen, hnew, hready, hslot, Bool.not_true, Bool.false_eq_true, if_false, if_true]
    · refine ⟨_, ?_, rfl, launchAdd_wrote s c⟩
      simp only [hx, State.launchStep, hlives, hopen, hnew, hready, hthere, hvalid, hdevl, Nat.not_le.2 hslot, hn, Bool.not_true,
        Bool.or_self, Bool.false_eq_true, if_false]
  case fragment =>
    intro j hruns htiled hmore hplace
    obtain ⟨t, x, ht, hx, hgo⟩ := exec_fragmentGroupStart hruns htiled hmore hplace
    refine ⟨_, hgo, ?_, ?_, fun _ => rfl⟩
    · rw [← ht]
      exact congrArg Team.batch ((s.team_setTeam k k t).trans (if_pos rfl))
    · rw [addGroup_epoch, hx]
  case raster =>
    intro d hraster hup
    show execRasterBinning k s = _
    simp only [execRasterBinning, hraster, hup, Bool.false_eq_true, if_false]
  case gbar =>
    intro b hthere hover
    obtain ⟨f, hf⟩ := breakGbar_exec s k b
    have hbar : ((s.breakGbar k b).exec k).gbar b = ⟨((s.exec k).gbar b).phase + 1, none, [], [], none, 0⟩ := by
      rw [hf, Exec.gbar, ffind_fins_same]; rfl
    refine ⟨_, exec_gbarTimeout hthere hover, rfl, ?_, ?_, ?_, byteAt_of_mem (breakGbar_mem ..)⟩
    · rw [hbar]
    · rw [hbar]
    · rw [hf]; rfl
  case ord =>
    intro hrun hover
    obtain ⟨hords, hmem, hpend⟩ := ordTimeout_releases hover
    refine ⟨_, ?_, rfl, hords, byteAt_of_mem hmem, hpend⟩
    show execOrdTimeout k s = _
    rw [execOrdTimeout, if_pos hrun]
  case walk =>
    intro va w l hwalk
    refine ⟨_, ?_, rfl, ?_⟩
    · show execPageWalk k va w s = _
      simp only [execPageWalk, hwalk]
    · exact ⟨_, List.mem_cons_self, rfl, rfl, rfl⟩

end Sys2Proof.Machine
end
